-- ==== Sys2Proof/Word.lean ====
section
/-! DEFINITION. The words of the KV9640: a byte, a 64-bit register word, a byte string, and the
little-endian reading and writing of byte strings (R7). -/

namespace Sys2Proof

/-- One byte. -/
abbrev Byte := BitVec 8

/-- A register word. A 32-bit register uses its low half. -/
abbrev Word := BitVec 64

/-- A byte string, byte 0 first. -/
abbrev Bytes := List (BitVec 8)

end Sys2Proof
end

