-- ==== Sys2Proof/Syntax.lean ====
section
/-! DEFINITION. The commands of the KV9640 as the table of operations and events lists them, with their
operands: what the world outside the block brings (the data of a host read, a pin, a measured value, the
environment of a frame). -/

namespace Sys2Proof

/-- Who makes a BAR0 access: the administrative function (R16), a control core in privileged mode (R287), a
control core otherwise, a debug master, or Tamp (group 5, master 1, R275). -/
inductive Src where
  | admin | corePriv | core | debug | tamp
deriving DecidableEq, Repr

/-- A bit period of the mesh (R264), for pairs 0 to 7 as masks: the bits that MESH_DRV drives, and the samples of MESH_RET with the
pull-up and with the pull-down. -/
structure MeshBit where
  drv : Nat := 0
  up : Nat := 0
  down : Nat := 0
deriving DecidableEq, Repr

/-- Bit periods of one mesh pair, oldest first (R264). -/
structure MeshRun where
  pair : Nat
  periods : List MeshBit := []
deriving DecidableEq, Repr

/-- The count of a trim interval, and the phase of the member's boundary in ns (R332, R360). -/
structure TrimCount where
  count : Nat
  phase : Int := 0
deriving DecidableEq, Repr

/-- The 32 bytes of a flit that arrives, and whether it is the one expected (R350, R352). -/
structure FlitIn where
  bytes : Bytes
  inOrder : Bool := true
deriving DecidableEq, Repr

/-- An MSI-X vector that the host unmasks, and the dwords it has written to its table entries: place and value (R39, R55). -/
structure VectorIn where
  vector : Nat
  table : List (Nat × Nat) := []
deriving DecidableEq, Repr

/-- What the world shows the device over the frame that ends at a boundary. Every field has a quiet default. -/
structure FrameEnv where
  /-- in-flight commands whose running step met a detected memory error (R31) -/
  errors : List Nat := []
  /-- commands whose step met a KRC entry that failed its check: (command, 0 or 1 for its key, the host blob as the
  re-page reads it) (R198) -/
  krcErrors : List (Nat × Nat × Option Bytes) := []
  /-- commands whose step met a recipe or routine word that failed in one copy, or in both (R90, R153) -/
  storeFix : List Nat := []
  storeLost : List Nat := []
  /-- commands whose lane's wrap guard tripped (R134) -/
  wrapGuard : List Nat := []
  /-- posted-write credit was available on port A, port B at some moment of the frame (R53) -/
  creditA : Bool := true
  creditB : Bool := true
  /-- die temperatures by sensor in steps of TMP_TEMP; an empty list keeps the last samples (R269) -/
  temps : List Nat := []
  /-- oscillator edges (A, B) of the noise cells over the frame; empty keeps the last counts (R216) -/
  cellCounts : List (Nat × Nat) := []
  /-- guard descriptors in which errors changed bits: (group, descriptor, how the 16-bit check then differs) (R286) -/
  descErrors : List (Nat × Nat × Nat) := []
  /-- DRAM lines of which this many coming reads fail DCODE, and lines whose TAG no longer agrees with them, with the difference, though
  DCODE does: (line, count or difference) (R290) -/
  dramBad : List (Nat × Nat) := []
  tagErrors : List (Nat × Nat) := []
  /-- counter-tree leaf copies that MRAM errors changed: (leaf, copy 0 to 2, mask over its 16-bit check) (R203, R207) -/
  leafFlips : List (Nat × Nat × Nat) := []
  /-- cipher lanes whose mask generator stuck, with the command whose step ran there (R126) -/
  maskStuck : List (Nat × Nat) := []
  /-- ALERT_N is high at the boundary (R343) -/
  alertHigh : Bool := true
  /-- the 2 µs windows of the clock monitors in the frame: the edges that clocks 0 to 7 give in 2 µs of true time; none when every clock
  ran at its nominal rate in all of them (R335) -/
  windows : List (List Nat) := []
  /-- the Net PHY PLL passes monitor 8, and TREF its monitor 9, to the end of the frame (R335) -/
  phyOk : Bool := true
  trefOk : Bool := true
  /-- the CORECLK, SEQCLK and DDR PLLs report lock: bits 0 to 2 (R334) -/
  pllLock : Nat := 7
  /-- levels driven from outside on GPIO[7:0], and on DBG_TRST_N (bit 7) and TREF (bit 6) in the places of MGT_PIN_STS (R399) -/
  gpio : Nat := 0
  pins : Nat := 0
  /-- TAMPER_OUT reads back another level than the driven one (R273) -/
  outFault : Bool := false
  /-- ZEROIZE_N is low at the boundary (R267) -/
  zeroizeLow : Bool := false
  /-- VBAT in mV, and whether it is reversed (R270, R274) -/
  vbat : Nat := 3000
  vbatRev : Bool := false
  /-- commands for which a hash lane read a staging word that failed its check (R148) -/
  stageErrors : List Nat := []
deriving DecidableEq, Repr

/-- A PMBus read of Dose (R340, R343). -/
inductive PmbRead where
  | voutMode | vout | iout | statusWord
deriving DecidableEq, Repr

/-- How a PMBus read ends. -/
inductive PmbResult where
  | value (v : Nat) | nack | timeout
deriving DecidableEq, Repr

/-- What a check of the battery domain reads (R264, R266, R268, R269): the bit periods of the mesh (none when every enabled
pair returns its pattern), TS samples (input to 0 LOW, 1 HIGH, 2 OPEN; an input not listed is in its normal state), light sensors tripped, the battery in mV with its polarity, the temperature in
sixteenths of a degree, and ZEROIZE_N low. -/
structure BatteryReadings where
  mesh : List MeshBit := []
  ts : List (Nat × Nat) := []
  light : List Nat := []
  vbat : Nat := 3000
  reversed : Bool := false
  temp : Int := 400
  zeroize : Bool := false
deriving DecidableEq, Repr

/-- A fabric transaction (R23, R279), which is split at 4 KB boundaries: master group and number (R275), operation (0 read, 1 write,
2 fetch), address, length, the bytes of a write; for private DRAM the lines of which coming reads fail DCODE, with how many do (R290);
and guard descriptors found changed when they match, as in `FrameEnv.descErrors` (R286). For a
transaction of the host interface, an engine or the KPE: the command it serves (0 for none), and for an eviction the handle
of the key (0 for none) (R283). -/
structure FabricAcc where
  group : Nat
  master : Nat
  op : Nat
  addr : Nat
  len : Nat
  data : Bytes := []
  badReads : List (Nat × Nat) := []
  descFlips : List (Nat × Nat × Nat) := []
  cmd : Nat := 0
  evicts : Nat := 0
deriving DecidableEq, Repr

/-- A frame mark (R350, R360): FRAME_NO, hop count, flit times; in first transmission; whole frames elapsed since the
marked boundary (R361). -/
structure MarkFlit where
  frame : Nat
  hops : Nat
  flits : Nat := 0
  first : Bool := true
  elapsed : Nat := 0
deriving DecidableEq, Repr

/-- A LINK_HELLO flit (R350): member ID or 0xFFFF, nonce, NET_ID bytes 0 to 7. -/
structure HelloFlit where
  member : Nat
  nonce : Bytes
  netId : Bytes
deriving DecidableEq, Repr

/-- The header of a Net message as it arrives, with the 16 bytes of its GCM tag (R354, R355); the direct port it came by, or none for the
tunnel. -/
structure NetHeader where
  src : Nat
  dst : Nat
  bcast : Bool := false
  counter : Nat
  boot : Bytes := []
  tag : Bytes := []
  port : Option Nat := none
deriving DecidableEq, Repr

/-- A row of a TABLE message: member, its STATE and DEV (R355, R368). -/
structure MemberRow where
  member : Nat
  state : Nat
  dev : Nat
deriving DecidableEq, Repr

/-- What a DOMAIN record carries (R363); a full record carries every revocation entry, in `parts` messages of which this is number
`part`, from 0. -/
structure DomainRec where
  slice : Nat
  rseq : Nat
  home : Nat
  present : Bool
  epoch : Nat
  floor : Nat
  gen0 : Nat
  cursor : Nat
  root : Bytes
  revoked : List (Nat × Nat) := []
  full : Bool := false
  part : Nat := 0
  parts : Nat := 1
deriving DecidableEq, Repr

/-- A DRAM channel as its SPD device and its training show it (R296): gigabytes, 0 for an empty one; whether it carries DDR5 RDIMMs or
down devices with ECC; width of the devices, and their density in Gb; the rate code it trained at, 0 for none. -/
structure DramChan where
  gb : Nat := 0
  ecc : Bool := true
  width : Nat := 8
  density : Nat := 16
  rate : Nat := 3
deriving DecidableEq, Repr

/-- What start-up finds outside the device (R296, R369, R370): the DRAM channels, the flash size in units of 64 MB (0 when none answers) and sectors written to it from outside,
units that fail their known-answer tests, and whether the battery domain lost its power. -/
structure BootEnv where
  dram0 : DramChan := {}
  dram1 : DramChan := {}
  flash : Nat := 0
  sectors : List (Nat × Bytes) := []
  katTu : Nat := 0
  katCl : Nat := 0
  katHl : Nat := 0
  katPk : Nat := 0
  katLu : Nat := 0
  batteryLost : Bool := false
  /-- bytes of BBRAM that errors changed since the last power-up: (byte, mask) (R271) -/
  bbFlips : List (Nat × Nat) := []
  /-- bits of the lifecycle copies, as copy and bit, that fail to program at the boot (R231) -/
  otpStuck : List (Nat × Nat) := []
  /-- MRAM errors in the stored checks of the update journal's copies: (copy, mask) (R326) -/
  journalFlips : List (Nat × Nat) := []
deriving DecidableEq, Repr


/-- A command of the KV9640: one constructor per row of the table of operations and events, with the row's
operands. Each is one whole, indivisible step; the docstring names the rule and what the row says it does. -/
inductive Instr where
  /-- FRAME_BOUNDARY (R9). At each frame boundary FRAME_NO increments and the ordered boundary events run: staged commit, generation changes, observation and admission, then release. -/
  | frameBoundary (env : FrameEnv)
  /-- BAD_ACCESS (R10). A register access of the wrong width or alignment reads zero or is dropped, and the first after cold reset writes a record. -/
  | badAccess (off : Nat) (width : Nat) (isWrite : Bool)
  /-- GATED_ACCESS (R14). An access to a block whose clock gate is off completes with a bus error that the guard captures with cause GATED. -/
  | gatedAccess (off : Nat) (isWrite : Bool)
  /-- REGISTER_WRITE (R11). A write to a register without a row of its own sets, clears or shadows its fields by access type. -/
  | registerWrite (src : Src) (off : Nat) (value : Nat)
  /-- IRQ_EN_WRITE (R55). A write to an IRQ_EN register raises its function 0 vector if it enables a bit whose status bit is already set. -/
  | irqEnWrite (src : Src) (off : Nat) (value : Nat)
  /-- DOORBELL_WRITE (R44). A doorbell write is checked for generation, ring state and count, then updates TAIL and starts descriptor fetch. -/
  | doorbellWrite (off : Nat) (width : Nat) (value : Nat)
  /-- DESCRIPTOR_FETCH_DONE (R401). A descriptor fetch completes and the descriptor counts as held for observation at the next boundary. -/
  | descriptorFetchDone (slice : Nat) (ring : Nat) (number : Nat) (data : Bytes)
  /-- DESCRIPTOR_FETCH_FAIL (R401). A descriptor fetch fails or times out after 8 µs, and at the next boundary the ring enters fault. -/
  | descriptorFetchFail (slice : Nat) (ring : Nat) (number : Nat)
  /-- DMA_READ_DONE (R54). An input read for an admitted command completes into a staging buffer. -/
  | dmaReadDone (cmd : Nat) (target : Nat) (data : Bytes)
  /-- DMA_READ_FAULT (R54). An input read fails or times out, and the command completes with DMA_FAULT in its write-phase frame. -/
  | dmaReadFault (cmd : Nat) (target : Nat)
  /-- LOAD (R42). HIF_SLICE_CMD LOAD reads and checks a slice context block and stages it for the next commit. -/
  | sliceLoad (slice : Nat)
  /-- SLICE_CONTEXT_READ_DONE (R64). The slice context block read completes or fails after 8 µs, and the LOAD is staged or rejected with ERR 0x02. -/
  | sliceContextReadDone (block : Option Bytes)
  /-- SLICE_RESET (R58). HIF_SLICE_CMD RESET advances the generation at the next boundary, voids old commands and makes the slice READY at B+2. -/
  | sliceReset (slice : Nat)
  /-- QUIESCE (R59). HIF_SLICE_CMD QUIESCE stops observation from the next boundary while admitted commands finish. -/
  | sliceQuiesce (slice : Nat)
  /-- QUIESCE_COMPLETE (R59). A QUIESCING slice becomes QUIESCED at the boundary after IN_FLIGHT reaches 0. -/
  | sliceQuiesceComplete (slice : Nat)
  /-- RESUME (R59). HIF_SLICE_CMD RESUME restarts observation of a quiesced slice at the next boundary. -/
  | sliceResume (slice : Nat)
  /-- DISABLE (R59). HIF_SLICE_CMD DISABLE acts as RESET at its boundary and leaves the slice disabled. -/
  | sliceDisable (slice : Nat)
  /-- LOG_ACK (R60). A write to HIF_LOG_ACK acknowledges consumed dirty-page log entries of a slice. -/
  | logAck (slice : Nat) (count : Nat)
  /-- FUNCTION_LEVEL_RESET (R39). An FLR of function 1 resets every slice homed on that port; an FLR of function 0 is a warm reset. -/
  | functionLevelReset (portB : Bool) (fn : Nat)
  /-- PORT_LINK_LOSS (R38). Loss of a host port's link moves its slices to the other port in joined mode, or causes a warm reset. -/
  | portLinkLoss (portB : Bool)
  /-- PORT_STALL (R53). After 64 frames without posted-write credit the stall is flagged, recorded, and new descriptors of the port are refused. -/
  | portStall (portB : Bool)
  /-- PORT_STALL_END (R53). The credit stall ends at the first boundary after credits return. -/
  | portStallEnd (portB : Bool)
  /-- HELD_RELEASE (R78). A held command whose delay has passed and DEP_COUNT is 0 is released, priced and admitted or re-priced. -/
  | heldRelease (cmd : Nat)
  /-- HOLD_EXPIRE (R80). A held command whose dependences have not resolved within 4,096 frames is refused with NOT_ADMITTED. -/
  | holdExpire (cmd : Nat)
  /-- PIN_TRANSLATE (R100). Deciphers a PIN block under KEY0 and re-enciphers it in OUT_FMT under KEY1. -/
  | pinTranslate (cmd : Nat) (err : Bool)
  /-- PIN_VERIFY_OFFSET (R102). Verifies a PIN by the decimalization-table offset method. -/
  | pinVerifyOffset (cmd : Nat) (err : Bool)
  /-- PIN_VERIFY_PVV (R103). Verifies a PIN against a PIN verification value. -/
  | pinVerifyPvv (cmd : Nat) (err : Bool)
  /-- PIN_OFFSET_GENERATE (R104). Computes a PIN offset from the natural PIN. -/
  | pinOffsetGenerate (cmd : Nat) (err : Bool)
  /-- PVV_GENERATE (R104). Computes the four-digit PVV for a PIN. -/
  | pvvGenerate (cmd : Nat) (err : Bool)
  /-- CVV_GENERATE (R105). Computes up to three card verification values. -/
  | cvvGenerate (cmd : Nat) (err : Bool)
  /-- CVV_VERIFY (R105). Verifies up to three card verification values. -/
  | cvvVerify (cmd : Nat) (err : Bool)
  /-- MAC_GENERATE (R106). Computes a retail MAC or CMAC over up to 4 KB. -/
  | macGenerate (cmd : Nat) (err : Bool)
  /-- MAC_VERIFY (R106). Verifies a retail MAC or CMAC in fixed time. -/
  | macVerify (cmd : Nat) (err : Bool)
  /-- WAGER_SEAL (R108). Seals a record with an AES-256 CMAC over the data, FRAME_NO and the key's usage count. -/
  | wagerSeal (cmd : Nat) (err : Bool)
  /-- DRAW_SEED (R109). Draws a 32-byte seed and seals it with DRAW_ID, FRAME_NO and USE. -/
  | drawSeed (cmd : Nat) (err : Bool)
  /-- DUKPT_TDES_PIN_TRANSLATE (R111). Derives a TDES DUKPT PIN key and translates the PIN block. -/
  | dukptTdesPinTranslate (cmd : Nat) (err : Bool)
  /-- DUKPT_AES_PIN_TRANSLATE (R112). Derives an AES DUKPT PIN key and translates a format 4 PIN block. -/
  | dukptAesPinTranslate (cmd : Nat) (err : Bool)
  /-- ARQC_VERIFY (R113). Verifies an EMV ARQC and optionally writes an ARPC. -/
  | arqcVerify (cmd : Nat) (err : Bool)
  /-- KEYBLOCK_IMPORT (R115). Parses, decrypts and checks an X9.143 or ISO 20038 key block and writes Zhofort blobs. -/
  | keyblockImport (cmd : Nat) (err : Bool)
  /-- KEYBLOCK_EXPORT (R116). Writes KEY1 as a key block under KEY0. -/
  | keyblockExport (cmd : Nat) (err : Bool)
  /-- TR34_RECOVER (R118). Checks a TR-34 key token's signature and recovers the ephemeral key into a blob. -/
  | tr34Recover (cmd : Nat) (err : Bool)
  /-- TR34_IMPORT (R119). Decrypts the TR-34 key block under the ephemeral key and writes the imported key's blobs. -/
  | tr34Import (cmd : Nat) (err : Bool)
  /-- SYM_ECB (R132). Bulk ECB encryption or decryption. -/
  | symEcb (cmd : Nat) (err : Bool)
  /-- SYM_CBC (R132). Bulk CBC encryption or decryption. -/
  | symCbc (cmd : Nat) (err : Bool)
  /-- SYM_CTR (R134). Bulk CTR mode with a device-built counter block for encryption. -/
  | symCtr (cmd : Nat) (err : Bool)
  /-- SYM_GCM (R133). Bulk GCM with a device-built IV for encryption and a fixed-time tag check for decryption. -/
  | symGcm (cmd : Nat) (err : Bool)
  /-- SYM_XTS (R129). Bulk XTS-AES over data units. -/
  | symXts (cmd : Nat) (err : Bool)
  /-- SYM_MAC_GENERATE (R129). Bulk MAC generation up to 128 KB. -/
  | symMacGenerate (cmd : Nat) (err : Bool)
  /-- SYM_MAC_VERIFY (R129). Bulk MAC verification in fixed time. -/
  | symMacVerify (cmd : Nat) (err : Bool)
  /-- HASH (R142). Hashes one message on a hash lane. -/
  | hashOne (cmd : Nat) (err : Bool)
  /-- HASH_BATCH (R142). Hashes a batch of fixed-length records, one digest per record. -/
  | hashBatch (cmd : Nat) (err : Bool)
  /-- HMAC_GENERATE (R141). Computes an HMAC under an M7 key. -/
  | hmacGenerate (cmd : Nat) (err : Bool)
  /-- HMAC_VERIFY (R141). Verifies an HMAC in fixed time. -/
  | hmacVerify (cmd : Nat) (err : Bool)
  /-- RSA_SIGN (R163). RSA-2048 private signature with fixed-time double computation. -/
  | rsaSign (cmd : Nat) (err : Bool)
  /-- RSA_DECRYPT (R163). RSA-2048 private decryption with OAEP decoding. -/
  | rsaDecrypt (cmd : Nat) (err : Bool)
  /-- RSA_SIGN_LARGE (R164). RSA private signature up to 4096 bits on two rows. -/
  | rsaSignLarge (cmd : Nat) (err : Bool)
  /-- RSA_DECRYPT_LARGE (R164). RSA private decryption up to 4096 bits on two rows. -/
  | rsaDecryptLarge (cmd : Nat) (err : Bool)
  /-- RSA_VERIFY (R163). RSA public signature verification. -/
  | rsaVerify (cmd : Nat) (err : Bool)
  /-- ECDSA_SIGN_P256 (R165). ECDSA P-256 signature with a random nonce and scalar blinding. -/
  | ecdsaSignP256 (cmd : Nat) (err : Bool)
  /-- ECDSA_VERIFY_P256 (R158). ECDSA P-256 signature verification. -/
  | ecdsaVerifyP256 (cmd : Nat) (err : Bool)
  /-- ECDSA_SIGN_P384 (R165). ECDSA P-384 signature. -/
  | ecdsaSignP384 (cmd : Nat) (err : Bool)
  /-- ECDSA_VERIFY_P384 (R158). ECDSA P-384 signature verification. -/
  | ecdsaVerifyP384 (cmd : Nat) (err : Bool)
  /-- EDDSA_SIGN (R166). Pure Ed25519 or Ed448 signature. -/
  | eddsaSign (cmd : Nat) (err : Bool)
  /-- EDDSA_VERIFY (R166). Pure Ed25519 or Ed448 verification. -/
  | eddsaVerify (cmd : Nat) (err : Bool)
  /-- EC_AGREE (R167). Computes a shared secret and seals its SHA-256 derivation as a derive-only key. -/
  | ecAgree (cmd : Nat) (err : Bool)
  /-- PK_KEYGEN (R168). Generates an RSA or EC key pair, or completes with PARTIAL and a continuation record. -/
  | pkKeygen (cmd : Nat) (err : Bool)
  /-- PK_KEYGEN_CONTINUE (R170). A continuation descriptor resumes an RSA key search from its sealed continuation record. -/
  | pkKeygenContinue (cmd : Nat) (err : Bool)
  /-- MLKEM_KEYGEN (R172). Generates an ML-KEM key pair. -/
  | mlkemKeygen (cmd : Nat) (err : Bool)
  /-- MLKEM_ENCAPS (R174). Encapsulates to an ML-KEM key and seals the shared key. -/
  | mlkemEncaps (cmd : Nat) (err : Bool)
  /-- MLKEM_DECAPS (R174). Decapsulates with implicit rejection and seals the shared key. -/
  | mlkemDecaps (cmd : Nat) (err : Bool)
  /-- MLDSA_SIGN (R175). Hedged ML-DSA-44 or ML-DSA-65 signature over 64 fixed iteration slots. -/
  | mldsaSign (cmd : Nat) (err : Bool)
  /-- MLDSA87_SIGN (R175). Hedged ML-DSA-87 signature. -/
  | mldsa87Sign (cmd : Nat) (err : Bool)
  /-- MLDSA_VERIFY (R175). ML-DSA signature verification. -/
  | mldsaVerify (cmd : Nat) (err : Bool)
  /-- MLDSA_KEYGEN (R175). Generates an ML-DSA key pair. -/
  | mldsaKeygen (cmd : Nat) (err : Bool)
  /-- KEY_GENERATE (R209). Generates a symmetric key and writes its blob or blobs. -/
  | keyGenerate (cmd : Nat) (err : Bool)
  /-- KEY_DERIVE (R209). Derives a symmetric key from a derive-only parent. -/
  | keyDerive (cmd : Nat) (err : Bool)
  /-- KEY_REWRAP (R210). Reseals a persistent key's blob head at the current epoch. -/
  | keyRewrap (cmd : Nat) (err : Bool)
  /-- KEY_INVALIDATE (R199). Appends revocation entries and stages the generation bump of the key's index. -/
  | keyInvalidate (cmd : Nat) (err : Bool)
  /-- KEY_COMPONENT (R211). Accumulates a custodian's component and forms the key on the final component. -/
  | keyComponent (cmd : Nat) (err : Bool)
  /-- KEY_WRAP_EXPORT (R212). Wraps a key with KWP under a K0 key. -/
  | keyWrapExport (cmd : Nat) (err : Bool)
  /-- KEY_WRAP_IMPORT (R212). Unwraps a KWP-wrapped key and writes its blobs. -/
  | keyWrapImport (cmd : Nat) (err : Bool)
  /-- KEY_ATTEST (R213). Writes an attestation statement on a key signed by both identity keys. -/
  | keyAttest (cmd : Nat) (err : Bool)
  /-- INDEX_FREED (R200). An invalidated index becomes free at the first boundary after all its KRC entries are gone. -/
  | indexFreed (slice : Nat) (index : Nat)
  /-- CT_NODE_WRITEBACK (R203). Counter-tree nodes are written back to MRAM every 4,096 frames. -/
  | ctNodeWriteback
  /-- CONT_EXPIRY (R169). A continuation entry not consumed within 65,536 frames is freed. -/
  | contExpiry (slice : Nat) (entry : Nat)
  /-- COMPONENT_TIMEOUT (R211). The component accumulator is discarded when 256 frames pass without the next component. -/
  | componentTimeout (slice : Nat)
  /-- DATUM_GENERATE (R182). KS_DATUM_CMD GENERATE draws a new Datum and erases domain roots, the revocation list and counter leaves. -/
  | datumGenerate
  /-- DOMAIN_CREATE (R184). Creates a slice key domain with EPOCH and FLOOR 1. -/
  | domainCreate (slice : Nat)
  /-- ADVANCE (R184). Raises the domain EPOCH by one. -/
  | domainAdvance (slice : Nat)
  /-- RAISE_FLOOR (R184). Raises the domain FLOOR by one and drops old revocation entries. -/
  | raiseFloor (slice : Nat)
  /-- DOMAIN_REKEY (R184). Generates a new domain root, revoking every key of the domain. -/
  | domainRekey (slice : Nat)
  /-- DESTROY (R184). Re-keys and then erases the domain root, leaving the domain absent. -/
  | domainDestroy (slice : Nat)
  /-- ID_GENERATE (R183). KS_ID_CMD GENERATE creates the device identity keys in PROVISION. -/
  | idGenerate
  /-- KS_ID_DATA_READ (R214). A read of KS_ID_DATA returns a word of the selected identity item and advances WORD. -/
  | ksIdDataRead
  /-- RECIPE_DATA_WRITE (R90). A control-core write of TU_RECIPE_DATA fills both copies at WORD and advances WORD. -/
  | recipeDataWrite (src : Src) (value : Nat)
  /-- RECIPE_LOCK (R90). Setting TU_CTL.LOCK locks the recipe store and computes its SHA-384 digest. -/
  | recipeLock (src : Src)
  /-- ROUTINE_DATA_WRITE (R153). A control-core write of PK_ROUTINE_DATA or LU_ROUTINE_DATA fills both copies and advances WORD. -/
  | routineDataWrite (lattice : Bool) (src : Src) (value : Nat)
  /-- ROUTINE_LOCK (R153). Setting PK_CTL.LOCK or LU_CTL.LOCK locks the routine store and computes its digest. -/
  | routineLock (lattice : Bool) (src : Src)
  /-- TU_SLICE_POLICY_WRITE (R121). A TU_SLICE_POLICY write is staged only under a slice Security Officer session, else dropped and recorded. -/
  | tuSlicePolicyWrite (src : Src) (slice : Nat) (value : Nat)
  /-- RAW_BLOCK_CLOSE (R216). A cell's raw block of 1,024 bits closes and, if it passed its tests, is conditioned into the queue. -/
  | rawBlockClose (cell : Nat) (bits : BitVec 1024)
  /-- CELL_HEALTH_FAIL (R217). A cell fails a health test; refill stops, the cell stops for a frame and starts a restart run. -/
  | cellHealthFail (cell : Nat) (tests : Nat)
  /-- RESTART_RUN_DONE (R217). A cell passes its restart run and returns to use at the next boundary. -/
  | restartRunDone (cell : Nat)
  /-- HEALTH_HOLD_END (R224). The hold ends at the first boundary with every cell in use, expanders reseeded and none stopped. -/
  | healthHoldEnd
  /-- EXPANDER_AGE_STOP (R219). An expander reaching 16 frames since its last reseed stops producing. -/
  | expanderAgeStop (exp : Nat)
  /-- ADMIN_DRAW_SERVED (R221). A waiting administrative draw is served at the first boundary at which the pool holds all its bytes, and its operation takes effect. -/
  | adminDrawServed
  /-- RNG_WARMUP_DONE (R223). The RNG leaves WARMUP after its restart runs, 1,024 blocks, tests, instantiation and fill. -/
  | rngWarmupDone (katCond : Bool) (katExp : Nat)
  /-- RAW_TAP (R226). A write to RNG_RAW_CTL starts or ends the tap of one cell for raw-bit output. -/
  | rawTap (src : Src) (value : Nat)
  /-- RAW_TAP_DONE (R226). The raw-bit port has written RNG_RAW_LEN bytes and sets DONE. -/
  | rawTapDone
  /-- RAW_TAP_DMA_FAIL (R226). A raw-bit DMA write fails, setting ERR and ending the tap. -/
  | rawTapDmaFail
  /-- LC_TRANSITION (R233). A write to LC_TRANSITION requests a lifecycle transition, checked against token, target and preconditions. -/
  | lcTransition (value : Nat)
  /-- TRANSITION_DRAIN_END (R234). At the first boundary with no command in flight, lifecycle programming starts. -/
  | transitionDrainEnd
  /-- OTP_BIT_PROGRAM (R234). The LC programs and reads back one OTP bit per frame, ending with a cold reset after the last bit. -/
  | otpBitProgram (ok : Bool)
  /-- LC_ZEROIZE (R236). A write to LC_ZEROIZE requests zeroization under a device Security Officer session. -/
  | lcZeroize
  /-- ZEROIZE_DRAIN_END (R236). At the first boundary with no command in flight, zeroization clears secrets and sets the receipt. -/
  | zeroizeDrainEnd
  /-- CHALLENGE (R249). LC_DBG_CMD CHALLENGE writes a debug challenge at the boundary serving its draw. -/
  | dbgChallenge (scopes : Nat)
  /-- RESPOND (R250). LC_DBG_CMD RESPOND submits a debug response for verification, or opens scopes in RETURN. -/
  | dbgRespond (scopes : Nat) (response : Option Bytes)
  /-- DBG_CHAL (R249). The TAP instruction DBG_CHAL issues a debug challenge and shifts it out. -/
  | tapChallenge (scopes : Nat)
  /-- DBG_RESP (R250). The TAP instruction DBG_RESP shifts in a debug response. -/
  | tapRespond (scopes : Nat) (response : Bytes)
  /-- LC_ACCESS (R233). The TAP instruction LC_ACCESS writes a transition request in BLANK and FOUNDRY. -/
  | lcAccess (value : Nat)
  /-- LC_STATUS (R238). The TAP instruction LC_STATUS returns lifecycle status, the only TAP answer in END and INVALID. -/
  | lcStatus
  /-- DEBUG_OPEN (R251). A verified response opens debug scopes at the next boundary, ending sessions and suspending the Datum hierarchy. -/
  | debugOpen
  /-- OTP_PROGRAM (R254). LC_OTP_CMD PROGRAM writes an OTP field from LC_OTP_BUF one bit per frame. -/
  | otpProgram (field : Nat)
  /-- OTP_READ (R254). LC_OTP_CMD READ reads an OTP field into LC_OTP_BUF. -/
  | otpRead (field : Nat)
  /-- OPEN (R242). QU_CMD OPEN starts a session and writes its challenge at the boundary serving its draw. -/
  | quOpen (scope : Nat) (roles : Nat) (life : Nat)
  /-- SIGN (R243). QU_CMD SIGN submits an officer sign-in record for verification. -/
  | quSign (scope : Nat) (record : Option Bytes)
  /-- SIGN_IN_VERIFIED (R243). The QU verifier finishes a sign-in; roles reaching M become held at the next boundary. -/
  | signInVerified
  /-- CLOSE (R244). QU_CMD CLOSE ends a session. -/
  | quClose (scope : Nat)
  /-- ENROLL (R241). QU_CMD ENROLL enrolls an officer in a scope. -/
  | quEnroll (scope : Nat) (record : Option Bytes)
  /-- REMOVE (R241). QU_CMD REMOVE removes an officer and recounts open sessions. -/
  | quRemove (scope : Nat) (role : Nat) (index : Nat)
  /-- POLICY (R241). QU_CMD POLICY sets a scope's quorum policy. -/
  | quPolicy (scope : Nat) (record : Option Bytes)
  /-- SESSION_EXPIRY (R244). A session ends at the end of its lifetime, discarding staged writes it covered. -/
  | sessionExpiry (scope : Nat)
  /-- DEBUG_CHALLENGE_EXPIRY (R249). A debug challenge becomes invalid 65,536 frames after issue. -/
  | debugChallengeExpiry
  /-- MESH (R264). Two consecutive mesh mismatches on an enabled pair are a MESH cause. -/
  | tmpMesh (run : MeshRun)
  /-- TS (R266). An enabled TS input held abnormal or OPEN for DEB samples is a TS cause or TS_OPEN report. -/
  | tmpTs (input : Nat) (opened : Bool)
  /-- ZEROIZE (R267). ZEROIZE_N low for 200 ns is a ZEROIZE cause and holds the clamp. -/
  | tmpZeroize
  /-- RAIL_UV (R268). An armed rail below its under-voltage threshold for 50 ns is a cause. -/
  | tmpRailUv (rail : Nat)
  /-- RAIL_OV (R268). A rail above its over-voltage threshold for 50 ns is a cause. -/
  | tmpRailOv (rail : Nat)
  /-- TEMP (R269). Two consecutive temperature samples outside −40 °C to +100 °C are a cause. -/
  | tmpTemp (sensor : Nat) (celsius : Int)
  /-- LIGHT (R269). A light sensor above threshold is a cause. -/
  | tmpLight (sensor : Nat)
  /-- GLITCH (R269). A supply departure or short clock phase is a GLITCH cause. -/
  | tmpGlitch (source : Nat)
  /-- VBAT (R268). VBAT out of range for 10 µs with main power absent is a cause. -/
  | tmpVbat (mv : Nat)
  /-- BATTERY_CHECK (R264). Every 1 ms on battery the mesh, TS inputs and battery sensors are checked. -/
  | batteryCheck (check : BatteryReadings)
  /-- BAT_LOW (R270). VBAT outside 2.50 V to 3.60 V with main power present is reported. -/
  | batLow (mv : Nat)
  /-- BAT_REV (R270). VBAT below −0.30 V is reported and the battery domain runs from VDD_IO. -/
  | batRev
  /-- TMP_BAT_EVT_WRITE (R274). A W1C write to TMP_BAT_EVT needs a device Security Officer session in SERVICE, else it is dropped and recorded. -/
  | tmpBatEvtWrite (src : Src) (value : Nat)
  /-- FABRIC_ACCESS (R280). A fabric transaction piece passes the guard checks in order or faults with a cause code. -/
  | fabricAccess (acc : FabricAcc)
  /-- VIOL_CLEAR (R284). Writing 1 to GRD_VIOL_INFO VALID clears the capture and overflow count. -/
  | violClear (group : Nat)
  /-- ALLOC (R293). MSC_CMD ALLOC makes the lowest FREE key ID ACTIVE and derives its keys. -/
  | mscAlloc
  /-- MSC_REKEY (R293). MSC_CMD REKEY moves a map entry to a new key ID and starts the walker. -/
  | mscRekey (entry : Nat) (keyid : Nat)
  /-- RETIRE (R293). MSC_CMD RETIRE flushes the buffer, clears OLD and frees a key ID. -/
  | mscRetire (keyid : Nat)
  /-- INIT (R293). MSC_CMD INIT writes every line of a map entry as zero under its key ID. -/
  | mscInit (entry : Nat)
  /-- MSC_FLUSH (R293). MSC_CMD FLUSH writes out every write-combining buffer entry. -/
  | mscFlush
  /-- WALK_DONE (R294). The walker passes the last line, sets WALK_DONE and stops. -/
  | walkDone
  /-- WCB_ENTRY_AGE_OUT (R292). A partial buffer entry with no write for 16 frames is written out by read-modify-write. -/
  | wcbEntryAgeOut (line : Nat)
  /-- DIAG_BUFFER_WRITEOUT (R305). The diagnostic buffer is written to MRAM when it passes 96 KB. -/
  | diagBufferWriteout
  /-- EXPORT (R311). FB_CMD EXPORT freezes the log and writes records to host memory from the next boundary. -/
  | fbExport (keep : Bool) (diag : Bool) (scope : Nat)
  /-- EXPORT_END (R311). An export reaching its length or the last record writes an EXPORT record and ends. -/
  | exportEnd
  /-- EXPORT_DMA_FAIL (R311). A failed export DMA write ends the export with ERR 0x05 and no EXPORT record. -/
  | exportDmaFail
  /-- THAW (R312). FB_CMD THAW ends a freeze and writes the waiting records. -/
  | fbThaw
  /-- CLEAR (R313). FB_CMD CLEAR frees every audit slot after a qualifying kept export and writes LOG_CLEARED. -/
  | fbClear
  /-- DIAG_FLUSH (R305). FB_CMD FLUSH writes the diagnostic buffer to MRAM. -/
  | diagFlush
  /-- FREEZE_TIMEOUT (R312). A freeze ends 4,096 frames after it began. -/
  | freezeTimeout
  /-- REFUSALS (R314). Every 4,096 frames a REFUSALS record is written if FB_CNT_REFUSE changed. -/
  | fbRefusals
  /-- STORE_RO (R310). An MRAM store with no reserve sector left turns read-only. -/
  | storeRo (store : Nat)
  /-- START (R324). UPD_CMD START submits a head sector for verification. -/
  | updStart (head : Option Bytes)
  /-- VERIFY_DONE (R324). Tamp finishes checking the head sector and enters DRAIN or returns to IDLE with ERR. -/
  | verifyDone
  /-- UPDATE_DRAIN_END (R324). With no admitted command in flight and the recovery record written, the update enters WRITE. -/
  | updateDrainEnd
  /-- SECTOR (R325). UPD_CMD SECTOR submits a body sector for checking and flash programming. -/
  | updSector (number : Nat) (data : Option Bytes)
  /-- SECTOR_WRITTEN (R325). A body sector is programmed and read back and NEXT advances, or enters SEAL after the last. -/
  | updSectorWritten (ok : Bool)
  /-- WRITTEN (R324). Flash sector 0 is sealed from the recovery record and the journal becomes DONE. -/
  | updWritten
  /-- ACTIVATE (R324). UPD_CMD ACTIVATE performs a warm reset at the next boundary to boot the new image. -/
  | updActivate
  /-- ABORT (R324). UPD_CMD ABORT returns to IDLE from VERIFY or DRAIN and ends the hold. -/
  | updAbort
  /-- CONFIRM (R328). UPD_CMD CONFIRM raises the floor, confirms the current area and erases the old one. -/
  | updConfirm
  /-- TRIM_INTERVAL_END (R332). At the end of a measurement interval the trim error is measured and LOCK updated. -/
  | trimIntervalEnd (interval : TrimCount)
  /-- REF_LOST (R333). Loss of the trim reference enters holdover. -/
  | refLost
  /-- REF_RETURN (R333). The trim reference returns and measurement resumes with the next interval. -/
  | refReturn
  /-- CLK_MUX_WRITE (R334). A CLK_MUX write starts a glitch-free switch, or is dropped after SERVICE_READY. -/
  | clkMuxWrite (src : Src) (value : Nat)
  /-- MUX_SWITCH_DONE (R334). A mux completes its switch after low phases on both clocks. -/
  | muxSwitchDone (mux : Nat)
  /-- CLOCK_FAILURE (R336). A clock failure in service runs the fatal path on BKO and writes FATAL_CLOCK status words. -/
  | clockFailure (monitor : Nat) (kind : Nat) (count : Nat)
  /-- FATAL_RESET (R336). 150 µs after a clock failure in service the device performs a fatal reset. -/
  | fatalReset
  /-- SAFE_STATE_WAIT (R337). A clock failure outside service forces outputs safe and waits. -/
  | safeStateWait (monitor : Nat) (kind : Nat) (count : Nat)
  /-- SAFE_STATE_WAIT_END (R337). When every failed monitor passes 16 windows the device performs a cold reset. -/
  | safeStateWaitEnd
  /-- BKO_FAIL (R335). The backup oscillator fails its monitor and service continues. -/
  | bkoFail (kind : Nat) (count : Nat)
  /-- TELEMETRY_ROUND (R340). At the end of each 256-frame round Dose computes the round value and base tokens. -/
  | telemetryRound
  /-- PMBUS_READ_DONE (R340). A PMBus telemetry read completes, is NACKed or times out after 1 ms. -/
  | pmbusReadDone (rail : Nat) (what : PmbRead) (result : PmbResult)
  /-- BROWNOUT_WARNING (R343). ALERT_N or rail warnings set the BROWNOUT hold at the next boundary. -/
  | brownoutWarning (rail : Nat) (value : Nat)
  /-- BROWNOUT_CLEAR (R343). The warning clears after 256 frames, ALERT_N high and a clean telemetry round. -/
  | brownoutClear
  /-- THERMAL_CEILING_ON (R341). Two frames at or above T_HI activate the thermal ceiling. -/
  | thermalCeilingOn
  /-- THERMAL_CEILING_OFF (R341). 256 frames below T_HI − 5 °C end the thermal ceiling. -/
  | thermalCeilingOff
  /-- CREATE (R348). NET_CMD CREATE makes the device the benchmark member of a new Net. -/
  | netCreate
  /-- REQUEST (R358). NET_CMD REQUEST writes a join request. -/
  | netRequest
  /-- ADMIT (R358). NET_CMD ADMIT checks a join request on the benchmark and writes the admit. -/
  | netAdmit (auto : Bool) (member : Nat) (records : Option (Bytes × Bytes))
  /-- ACCEPT (R358). NET_CMD ACCEPT checks the admit and opens NRK, joining at the next boundary. -/
  | netAccept (records : Option (Bytes × Bytes))
  /-- JOIN_REQUEST_EXPIRY (R358). An outstanding join request lapses after 65,536 frames. -/
  | joinRequestExpiry
  /-- NET_LEAVE (R366). NET_CMD LEAVE makes a member leave the Net and erase its Net keys and domains. -/
  | netLeave
  /-- EXPEL (R366). NET_CMD EXPEL retires a member's ID and broadcasts TABLE. -/
  | netExpel (member : Nat)
  /-- BENCH (R366). NET_CMD BENCH names a new benchmark member. -/
  | netBench (member : Nat)
  /-- MOVE_HOME (R366). NET_CMD MOVE_HOME hands the home of a slice to another member. -/
  | moveHome (member : Nat) (slice : Nat)
  /-- PORT_REKEY (R353). NET_CMD PORT_REKEY starts a link key change. -/
  | portRekey (port : Nat)
  /-- LINK_UP (R349). A Net port completes training and sends LINK_HELLO. -/
  | linkUp (port : Nat) (swap : Bool) (rxInv : Bool) (txInv : Bool)
  /-- LINK_DOWN (R352). A link goes DOWN on repeated failures, tag failures, silence or monitor failure, erasing its keys. -/
  | linkDown (port : Nat) (cause : Nat)
  /-- LINK_RETRAIN (R352). A DOWN port retrains after 1,024 frames while enabled. -/
  | linkRetrain (port : Nat)
  /-- FLIT_ERROR (R352). A flit failing DCODE or TAG is discarded and a NAK is sent. -/
  | flitError (port : Nat) (flit : FlitIn)
  /-- REPLAY_TIMEOUT (R352). With the replay buffer full and no ACK for 2 µs the transmitter resends. -/
  | replayTimeout (port : Nat)
  /-- ACK (R352). A received ACK frees acknowledged flits from the replay buffer. -/
  | netAck (port : Nat) (seq : Nat)
  /-- NAK (R352). A received NAK makes the transmitter resend from the named flit. -/
  | netNak (port : Nat) (seq : Nat)
  /-- MARK (R360). A received frame mark drives trimming, alignment and onward marks. -/
  | netMark (port : Nat) (mark : MarkFlit)
  /-- KEY_SWITCH (R353). A received KEY_SWITCH moves the direction to the new link key ID. -/
  | keySwitch (port : Nat) (keyid : Nat) (seq : Nat)
  /-- LINK_HELLO (R353). A received LINK_HELLO keys the link when both ends are members of one Net. -/
  | linkHello (port : Nat) (hello : HelloFlit)
  /-- ROUTE (R355). A received ROUTE flit updates the hop count to a member. -/
  | netRoute (port : Nat) (member : Nat) (hops : Nat)
  /-- TABLE (R355). A received TABLE message updates the member table. -/
  | netTable (h : NetHeader) (bench : Nat) (rows : List MemberRow)
  /-- TIME (R361). A received TIME message aligns a tunnelled member's frame number. -/
  | netTime (h : NetHeader) (frame : Nat) (elapsed : Nat)
  /-- DOMAIN (R363). A received DOMAIN record is applied in RSEQ order and acknowledged. -/
  | netDomain (h : NetHeader) (record : DomainRec)
  /-- DOMAIN_ACK (R363). A received DOMAIN_ACK lowers PEND at the home member. -/
  | netDomainAck (h : NetHeader) (slice : Nat) (rseq : Nat)
  /-- LEASE (R364). A received LEASE extends the lease or triggers SYNC on a digest mismatch. -/
  | netLease (h : NetHeader) (frame : Nat) (digest : Bytes)
  /-- SYNC (R363). A received SYNC makes the home member reply with full records. -/
  | netSync (h : NetHeader) (slices : List Nat)
  /-- WITNESS (R365). A received WITNESS is recorded by the witness member. -/
  | netWitness (h : NetHeader) (seq : Nat) (digest : Bytes)
  /-- JOIN_DONE (R359). A received JOIN_DONE tells the benchmark the joiner has joined. -/
  | joinDone (h : NetHeader)
  /-- LEAVE_MESSAGE (R366). A received LEAVE message marks the sender's ID RETIRED. -/
  | leaveMessage (h : NetHeader)
  /-- FRAME_STEP (R361). An ALIGNING member steps FRAME_NO to the Net frame number at the boundary after a mark or TIME. -/
  | frameStep
  /-- LEASE_LAPSE (R364). A lease not renewed runs out and commands naming that slice's keys are refused. -/
  | leaseLapse (slice : Nat)
  /-- DOMAIN_RESEND (R363). Every 1,024 frames the home resends unacknowledged DOMAIN records. -/
  | domainResend
  /-- GAP_TIMEOUT (R363). A DOMAIN gap unfilled for 4,096 frames makes the member send SYNC. -/
  | gapTimeout (slice : Nat)
  /-- CFG_CHECK (R375). GLB_CFG_CMD CHECK tests the staged set at the next boundary and reports violations. -/
  | cfgCheck
  /-- CFG_COMMIT (R376). GLB_CFG_CMD COMMIT applies a checked staged set at the next boundary. -/
  | cfgCommit
  /-- DISCARD (R375). GLB_CFG_CMD DISCARD returns every shadow to the value in effect. -/
  | cfgDiscard
  /-- COLD (R374). GLB_RST_CMD COLD requests a cold reset, after a drain if DRAIN is set. -/
  | rstCold (drain : Bool)
  /-- WARM (R374). GLB_RST_CMD WARM requests a warm reset, after a drain if DRAIN is set. -/
  | rstWarm (drain : Bool)
  /-- RESET_DRAIN_END (R374). With every admitted command finished, the requested reset is performed. -/
  | resetDrainEnd
  /-- COLD_RESET (R373). A cold reset clears volatile state, restarts FRAME_NO and reruns start-up from the lifecycle stage. -/
  | coldReset (cause : Nat) (boot : BootEnv)
  /-- WARM_RESET (R373). A warm reset voids commands, redraws keys and reruns start-up from the clock stage. -/
  | warmReset (cause : Nat) (boot : BootEnv)
  /-- POWER_UP (R369). At the power-good point the start-up stages begin. -/
  | powerUp (boot : BootEnv)
  /-- SERVICE_READY (R371). At the first boundary at which all readiness conditions hold, Traverse starts observing. -/
  | serviceReady
  /-- PWR_FAIL (R391). A fall of PWR_FAIL_N disarms under-voltage, starts the flush and stops new OTP and flash work. -/
  | pwrFail
  /-- PWR_FAIL_RISE (R391). PWR_FAIL_N rising after a fall with rails in range causes a cold reset after the flush. -/
  | pwrFailRise
  /-- PERST (R372). PERST on the port or ports in use causes a warm reset, or link loss on one port in joined mode. -/
  | perst (portB : Bool) (level : Bool)
  /-- EXPANDER_REPEAT (R219). An expander's 128-bit output block equals the block before it, which is a fatal RNG alarm. -/
  | expanderRepeat (exp : Nat)
  /-- TAP_RESTART (R226). With RESTART set, a tapped cell restarts after every RESTART_LEN raw bits. -/
  | tapRestart
  /-- LINK_KEY_CHANGE_AUTO (R353). A link key change starts by itself when either direction has sent 2^40 flits under one key ID. -/
  | linkKeyChangeAuto (port : Nat)
  /-- ACK_INTERVAL (R352). A receiver sends an ACK when 500 ns have passed since its last ACK. -/
  | ackInterval (port : Nat)
  /-- HOST_LINK_UP (R369). A host port completes PCIe link training, updating HIF_PORT_STS and the port's write-ledger capacity. -/
  | hostLinkUp (portB : Bool) (width : Nat) (rate : Nat) (flit : Bool)
  /-- PCIE_POWER_STATE (R36). The host moves a function between D0 and D3hot, and D3hot stops the port's DMA. -/
  | pciePowerState (portB : Bool) (fn : Nat) (d3 : Bool)
  /-- VECTOR_UNMASK (R55). Unmasking an MSI-X vector whose PBA bit is set sends the pending message. The host's writes of table dwords that
come before it, as dword number and value, are `table` (R39, R385). -/
  | vectorUnmask (fn : Nat) (vector : VectorIn)
  /-- POWERED_CHECK (R263). The clamp clears at the first powered mesh and TS check that finds no response cause. -/
  | poweredCheck
  /-- MAIN_POWER_LOSS (R270). Main power falls away, and the battery domain switches VDD_AON to VBAT and starts its battery-rate checks. -/
  | mainPowerLoss
  /-- PMB_STUCK (R399). PMB_SCL or PMB_SDA held low for 35 ms sets STUCK, and the master releases the bus and clocks nine pulses. -/
  | pmbStuck
deriving DecidableEq, Repr

end Sys2Proof
end

