-- ==== Sys2Proof/Decode.lean ====
section
/-! DEFINITION. Commands as words. The table of operations and events gives no row any bits: the commands of this block are
register accesses, messages, pins and measured values, not words, so no word spells one. -/

namespace Sys2Proof

/-- The command a word spells by the table's bits: none, since no row has bits. -/
def decodeTableWord (_nbits _w : Nat) : Option Instr := none

end Sys2Proof
end

