-- ==== Sys2Proof/Config.lean ====
section
/-! DEFINITION. What the spec leaves to a published standard or leaves open: every constant here is opaque, so
no proof can see a value of it and a claim holds whatever it is.

The primitives of the published standards the spec names (AES, DES and SM4 of one block, the hashes, the encodings of RSA, the
curves, ML-KEM, ML-DSA, the key-block and DUKPT derivations) are uninterpreted: the spec cites the standards and does not
restate them (DESIGN CHOICE, assumption 2). The modes over them (CBC, CTR, CMAC, GCM, XTS, KWP, HMAC, the KDF of R181, the RSA
exponentiations) and what the spec itself writes out (PIN blocks, PVV, CVV, counter blocks, blob layouts, the order of
checks) are modelled concretely.

Values the spec leaves open are free values (`freeByte`, `freeNat`), applied to the counter `free` of the state, a
fresh one each time (assumption 3). -/

namespace Sys2Proof

/-- What the controller of a tile does with operand-memory words, by word number within the slot (R149, R150): the row's two
forms with operand A of `n` words at `a` and the word `b`, the row's write of the low words of ACC through its own port,
and the moves, compares and clears. -/
inductive RowOp where
  | mac (a n b : Nat)
  | macs (a n b : Nat)
  | out (a n : Nat)
  | move (src dst n : Nat)
  | compare (x y n : Nat)
  | clear (a n : Nat)
deriving DecidableEq, Repr

end Sys2Proof

namespace Sys2Proof.Config

/-- What a routine of the Alasta image issues in one eighth (R149, R153): the words of the routine store, opcode, public parameters,
CRT half, and the eighth counted from the routine's first. The image's code is not in the spec. -/
opaque routine : List (Nat × Word) → Nat → List Nat → Nat → Nat → List RowOp
/-- The eighth with which the pad stage of a routine begins (R154): opcode and public parameters. -/
opaque padFrom : Nat → List Nat → Nat
/-- VERSION in the header of a recipe or routine store: MAJOR above MINOR, 16 bits each (R121, R179, R180). The spec gives the header
no layout. -/
opaque storeVersion : List (Nat × Word) → Nat
/-- The secret state a recipe still needs after a step (R88): opcode, step, the keys' material and the inputs. -/
opaque recipeState : Nat → Nat → Bytes → Bytes → List Bytes → Bytes
/-- The IV of a carry record (R88): in-flight entry and frame. The spec gives none. -/
opaque carryIv : Nat → Nat → Bytes
/-- The IV under which the configuration and data store seals an item (R181, R183): item and frame. The spec gives none. -/
opaque storeIv : Nat → Nat → Bytes
/-- The key that seals the identity keys, derived from the OTP device secret (R183): the spec gives no label. -/
opaque identityKey : Bytes → Bytes
/-- The key that seals the officer set of the device, derived from the OTP device secret (R239): the spec gives no label. -/
opaque officerKey : Bytes → Bytes
/-- The 64-bit check of a copy of the update journal (R326): device secret, and what the copy holds. The spec gives no construction. -/
opaque journalCheck : Bytes → Bytes → BitVec 64
/-- The load map that a firmware section carries (R321): the pieces it loads, each with its place in the control cores' local memory. The
spec gives its form nowhere. -/
opaque loadMap : Bytes → List (Nat × Bytes)
/-- Where in MRAM a firmware data area lies, A or B (R323). The spec gives them no addresses. -/
opaque areaAt : Bool → Nat
/-- A data area converted by the firmware of a new image (R323): the old DATA_FMT, the new one, the old area's bytes. -/
opaque convertArea : Nat → Nat → Bytes → Bytes
/-- What UPD_FLOOR reads while the version floor leaf is lost (R320): the values of its three copies. The spec states none. -/
opaque lostFloor : Nat → Nat → Nat → BitVec 48
/-- The substitute operands in ROM (R155): opcode, and the public parameters with the size, curve or set of the real key and the length
of the real input. -/
opaque romSubst : Nat → List Nat → Bytes
/-- Free byte number `n`: what the device reads from outside, and random bytes for which the spec names no store. -/
opaque freeByte : Nat → Byte

/-- The free number `n`: metered energy, a sub-frame cycle count, a measured value. -/
opaque freeNat : Nat → Nat

/-! ## Symmetric primitives (R122, R124, R139) -/

/-- AES of one block (FIPS 197): key, block. -/
opaque aesEnc : Bytes → Bytes → Bytes
/-- Inverse AES of one block. -/
opaque aesDec : Bytes → Bytes → Bytes
/-- DES of one block under an 8-byte key. -/
opaque desEnc : Bytes → Bytes → Bytes
/-- Inverse DES of one block. -/
opaque desDec : Bytes → Bytes → Bytes
/-- SM4 of one block. -/
opaque sm4Enc : Bytes → Bytes → Bytes
/-- Inverse SM4 of one block. -/
opaque sm4Dec : Bytes → Bytes → Bytes
/-- The hash of R139 by its ALG code, with the output length in bytes. -/
opaque hash : Nat → Nat → Bytes → Bytes

/-! ## Payment standards (R111 to R119) -/

/-- ANSI X9.24-1: BDK and 10-byte KSN to the PIN encryption key. -/
opaque dukptTdes : Bytes → Bytes → Bytes
/-- ANSI X9.24-3: BDK and 12-byte KSN to the PIN encryption working key. -/
opaque dukptAes : Bytes → Bytes → Bytes
/-- EMV option A: ALG, issuer master key and the 16 digits to the ICC master key. -/
opaque emvIccKey : Nat → Bytes → Bytes → Bytes
/-- EMV common session key derivation: ALG, ICC master key, ATC. -/
opaque emvSessionKey : Nat → Bytes → Bytes → Bytes
/-- The encryption key and the MAC key that X9.143 key derivation binding gives (R115): version byte, key-block protection key. -/
opaque keyBlockKeys : Nat → Bytes → Bytes × Bytes
/-- TR-34 token: the signed attributes, the signature, the EnvelopedData and its parts, or `none` when malformed:
(signed attributes, signature, EnvelopedData, message digest attribute, header, encrypted key, content IV). -/
opaque tr34Parse : Bytes → Option (Bytes × Bytes × Bytes × Bytes × Bytes × Bytes × Bytes)
/-- The TR-34 key block in the decrypted content: (X9.143 header, clear key), or `none` when malformed. -/
opaque tr34Content : Bytes → Option (Bytes × Bytes)

/-! ## Public-key primitives (R160 to R175) -/

/-- The encoded message of an RSA signature (PKCS #1: EMSA-PKCS1-v1_5 or EMSA-PSS) as a number: scheme, hash, digest, salt,
modulus length in bytes. -/
opaque rsaEncode : Nat → Nat → Bytes → Bytes → Nat → Nat
/-- EME-OAEP decoding: hash, lHash, modulus length, representative; `none` on a decoding failure. -/
opaque rsaOaepDecode : Nat → Bytes → Nat → Nat → Option Bytes
/-- EME-PKCS1-v1_5 decoding (TR34_RECOVER only): modulus length, representative. -/
opaque rsaV15Decode : Nat → Nat → Option Bytes
/-- RSA verification: public material, scheme, hash, salt length, digest, signature. -/
opaque rsaVerify : Bytes → Nat → Nat → Nat → Bytes → Bytes → Bool
/-- The X coordinate of a scalar multiple of the base point of P-256 or P-384: curve ALG, scalar, and the value that randomises
the projective Z coordinate (FIPS 186-5 fixes the point, whatever Z). -/
opaque ecBaseX : Nat → Nat → Nat → Nat
/-- ECDSA verification with r and s already in range: curve ALG, public point, digest, signature. -/
opaque ecdsaVerify : Nat → Bytes → Bytes → Bytes → Bool
/-- Whether u1 G + u2 Q of an ECDSA verification is the point at infinity (R158): curve ALG, public point, digest, signature. -/
opaque ecdsaSumInfinity : Nat → Bytes → Bytes → Bytes → Bool
/-- EdDSA (FIPS 186-5): curve ALG, private key, context, message, and the bytes that blind the scalar multiplication. -/
opaque eddsaSign : Nat → Bytes → Bytes → Bytes → Bytes → Bytes
/-- EdDSA verification: curve ALG, public key, context, message, signature. -/
opaque eddsaVerify : Nat → Bytes → Bytes → Bytes → Bytes → Bool
/-- Whether a 32- or 57-byte string decodes to a point of the curve. -/
opaque edDecodes : Nat → Bytes → Bool
/-- The order n (or L) of the group of the curve with this ALG. -/
opaque curveOrder : Nat → Nat
/-- The field prime p of the curve with this ALG. -/
opaque curvePrime : Nat → Nat
/-- Whether an uncompressed point lies on the curve: ALG, X, Y. -/
opaque onCurve : Nat → Nat → Nat → Bool
/-- Edwards and Montgomery keys: the private scalar of the material is 0 or at least n (R158): curve ALG, material. -/
opaque scalarBad : Nat → Bytes → Bool
/-- X25519: [8]P of the u given is the neutral element (small order). -/
opaque x25519Small : Nat → Bool
/-- The shared secret Z of R167: curve ALG, private key, peer public key, and the bytes that blind the ladder. -/
opaque ecdh : Nat → Bytes → Bytes → Bytes → Bytes
/-- The pairwise consistency test of a new pair, but for agreement keys (R168): ALG, usage, private and public material. -/
opaque pairwiseOk : Nat → Nat → Bytes → Bytes → Bool
/-- The public key of private material as an agreement key computes it (R168): ALG, private material, blinding. -/
opaque publicOf : Nat → Bytes → Bytes → Bytes
/-- Key pair from draws: ALG, public exponent, random bytes to (private, public) material. -/
opaque keyPair : Nat → Nat → Bytes → Bytes × Bytes
/-- The progress of an RSA search over its draws: public exponent, ALG, earlier search state, draws to
(finished?, state, primes found, candidates tested). -/
opaque rsaSearch : Nat → Nat → Bytes → Bytes → Bool × Bytes × Nat × Nat
/-- The key pair a finished RSA search gives: ALG, exponent, search state. -/
opaque rsaPair : Nat → Nat → Bytes → Bytes × Bytes
/-- ML-KEM encapsulation: set ALG, encapsulation key, m to (ciphertext, shared key). -/
opaque mlkemEncaps : Nat → Bytes → Bytes → Bytes × Bytes
/-- The message that ML-KEM decapsulation decrypts (FIPS 203): set ALG, decapsulation key, ciphertext. -/
opaque mlkemDecrypt : Nat → Bytes → Bytes → Bytes
/-- ML-KEM decapsulation with implicit rejection from the decrypted message: set ALG, decapsulation key, ciphertext, m. -/
opaque mlkemDecaps : Nat → Bytes → Bytes → Bytes → Bytes
/-- The FIPS 203 modulus check of an encapsulation key: every coefficient below 3,329. -/
opaque mlkemCoeffOk : Nat → Bytes → Bool
/-- The FIPS 203 hash check of a decapsulation key. -/
opaque mlkemKeyOk : Nat → Bytes → Bool
/-- ML-DSA signing: set ALG, private key, pre-hash?, context, message, rnd to the accepting iteration (from 1) and
the signature. -/
opaque mldsaSign : Nat → Bytes → Bool → Bytes → Bytes → Bytes → Nat × Bytes
/-- ML-DSA verification: set ALG, public key, pre-hash?, context, message, signature. -/
opaque mldsaVerify : Nat → Bytes → Bool → Bytes → Bytes → Bytes → Bool

/-! ## Lines and flits (R288, R289, R350, R351) -/

/-- The four-round mix of R289: mix key, tweak, 64 bytes. The spec gives its properties and not its rounds. -/
opaque lineMix : Bytes → Nat → Bytes → Bytes
/-- The keyed tag of R288, 8 bytes: tag key and what it covers. -/
opaque lineTag : Bytes → Bytes → Bytes
/-- The bytes of a Net message's body: MTYPE, and its fields in order. The spec lays out the header and not the bodies (R354). -/
opaque netBody : Nat → List Bytes → Bytes
/-- What the spec leaves open of its CRCs beside their polynomials (R288, R350), by their width: start value, whether the low bit of a
byte goes first, and what the remainder is XORed with at the end. -/
opaque crcForm : Nat → Nat × Bool × Nat
/-- The CRC-32 of Datum in BBRAM (R271), for which the spec names no polynomial. -/
opaque datumCrc : Bytes → Nat
/-- The fixed pattern of the BBRAM canary, by byte (R271). The spec does not give it. -/
opaque canary : Nat → Byte

/-! ## Device constants -/

/-- The test key in ROM (R303, KSEL 0b10). -/
opaque romTestKey : Bytes
/-- The debug authority hash in ROM, for BLANK and FOUNDRY (R250). -/
opaque testDebugHash : Bytes
/-- The test image key hash and the Dreinaold diagnostic root hash in ROM (R319). -/
opaque testImageHash : Bytes
opaque diagImageHash : Bytes
/-- The Tamp ROM (R322). -/
opaque tampRom : Bytes
/-- Which locked region an MRAM byte address lies in (R277): 1 counter tree, 2 Tamp state and patches, 3 Fieldbook, any
other value none of them. The spec gives the sectors no addresses. -/
opaque mramRegion : Nat → Nat
/-- The silicon stepping (GLB_ID.STEPPING, "Per silicon"). -/
opaque stepping : Nat

end Sys2Proof.Config
end

