-- ==== Sys2Proof/Machine/Bytes.lean ====
section
/-! DEFINITION. Byte strings and bit fields: the little-endian and big-endian readings of a byte
string (R7), fields of a number, nibbles, and padding. -/

namespace Sys2Proof.Machine

/-- The number a little-endian byte string spells (R7). -/
def ofLE : Bytes → Nat
  | [] => 0
  | b :: bs => b.toNat + 256 * ofLE bs

/-- The `n` low bytes of a number, little-endian (R7). -/
def toLE : Nat → Nat → Bytes
  | 0, _ => []
  | n + 1, v => BitVec.ofNat 8 v :: toLE n (v / 256)

/-- The number a big-endian byte string spells. -/
def ofBE (bs : Bytes) : Nat := ofLE bs.reverse

/-- The `n` low bytes of a number, big-endian. -/
def toBE (n v : Nat) : Bytes := (toLE n v).reverse

/-- `n` bytes of a byte string from byte `off`; bytes beyond its end are left out. -/
def cut (bs : Bytes) (off n : Nat) : Bytes := (bs.drop off).take n

/-- The little-endian field of `n` bytes at byte `off` of a layout (R7). -/
def fieldLE (bs : Bytes) (off n : Nat) : Nat := ofLE (cut bs off n)

/-- Bits `hi` down to `lo` of a number (R7). -/
def bits (v hi lo : Nat) : Nat := (v >>> lo) % 2 ^ (hi + 1 - lo)

/-- Bit `i` of a number. -/
def bit (v i : Nat) : Bool := v.testBit i

/-- `n` bytes of the value `b`. -/
def fill (n : Nat) (b : Nat) : Bytes := List.replicate n (BitVec.ofNat 8 b)

/-- A byte string of exactly `n` bytes: cut, or extended with zeros. -/
def fitTo (n : Nat) (bs : Bytes) : Bytes := (bs ++ fill n 0).take n

/-- Whether every byte is zero. -/
def allZero (bs : Bytes) : Bool := bs.all (fun b => b == 0)

/-- Whether the bytes of a layout from `off`, `n` of them, are all zero (a reserved field). -/
def zeroAt (bs : Bytes) (off n : Nat) : Bool := allZero (cut bs off n)

/-- Bytewise exclusive or. -/
def xorBytes : Bytes → Bytes → Bytes
  | a :: as, b :: bs => (a ^^^ b) :: xorBytes as bs
  | _, _ => []

/-- The nibbles of a byte string, high nibble first. -/
def nibbles : Bytes → List Nat
  | [] => []
  | b :: bs => (b.toNat / 16) :: (b.toNat % 16) :: nibbles bs

/-- The bytes of a list of nibbles, high nibble first; an odd last nibble is dropped. -/
def ofNibbles : List Nat → Bytes
  | a :: b :: rest => BitVec.ofNat 8 (16 * a + b) :: ofNibbles rest
  | _ => []

/-- `a / b` rounded up. -/
def ceilDiv (a b : Nat) : Nat := (a + b - 1) / b

/-- The string cut into blocks of `n` bytes, at most `fuel` of them; the last may be short. -/
def blocks : Nat → Nat → Bytes → List Bytes
  | 0, _, _ => []
  | _ + 1, _, [] => []
  | fuel + 1, n, bs => bs.take n :: blocks fuel n (bs.drop n)

/-- One as a number. -/
def b2n (b : Bool) : Nat := if b then 1 else 0

/-- The ASCII bytes of a string of ASCII characters. -/
def ascii (s : String) : Bytes := s.toList.map (fun c => BitVec.ofNat 8 c.toNat)

/-- The number below 2 to the `n` whose bit `i` is set where `p i` holds. -/
def maskOf (p : Nat → Bool) : Nat → Nat
  | 0 => 0
  | n + 1 => maskOf p n + b2n (p n) * 2 ^ n

/-- The numbers below `n` from `0` up for which bit `i` of `mask` is set. -/
def setBits (n mask : Nat) : List Nat := (List.range n).filter (fun i => mask.testBit i)

/-- The number of set bits among the low `n`. -/
def popCount (n mask : Nat) : Nat := (setBits n mask).length

end Sys2Proof.Machine
end

