-- ==== Sys2Proof/Machine/Regs.lean ====
section
/-! DEFINITION. The register map: every field of every register field map of the spec, with its place, width,
access type (R11) and reset value. A field is named as the spec names it, register and field joined by an
underscore. Arrays carry their stride and count; element `i` stands at `off + stride * i` (R15, R379 to R385).
Reserved bits are no field: they read zero and discard writes (R13). A reset the field map gives as "From MRAM",
"Per OTP", "Pins" and the like stands as 0 here; start-up writes the value the named rule gives. -/

namespace Sys2Proof.Machine

/-- The access types of R11. -/
inductive Access where
  | rw | ro | wo | w1c | w1s | rws | st
deriving DecidableEq, Repr

/-- One field of a register array: BAR0 offset of element 0, stride, number of elements, lowest bit,
width, access type and reset value. -/
structure Field where
  off : Nat
  stride : Nat
  count : Nat
  lo : Nat
  width : Nat
  acc : Access
  reset : Nat
deriving DecidableEq, Repr

/-- One register array: the offset of element 0, stride, count, whether it is 64-bit, and its fields. -/
structure Reg where
  off : Nat
  stride : Nat
  count : Nat
  wide : Bool
  fields : List Field
deriving DecidableEq, Repr

/-- Where element `i` of a field is kept: BAR0 offset times 64 plus the lowest bit. -/
def Field.key (f : Field) (i : Nat) : Nat := (f.off + f.stride * i) * 64 + f.lo


/-! ## GLB -/

/-- GLB_ID (0x0), R378. Fields from the most significant bit down. -/
def R.GLB_ID_PART : Field := ⟨0x000000, 0, 1, 16, 16, .ro, 38464⟩
/-- GLB_ID.STEPPING (R378). -/
def R.GLB_ID_STEPPING : Field := ⟨0x000000, 0, 1, 8, 8, .ro, 0⟩ -- reset: Per silicon
/-- GLB_DEVICE_ID (0x8, array of 2, 64-bit), R378. Fields from the most significant bit down. -/
def R.GLB_DEVICE_ID_ID : Field := ⟨0x000008, 8, 2, 0, 64, .ro, 0⟩ -- reset: OTP
/-- GLB_CAP0 (0x18), R378. Fields from the most significant bit down. -/
def R.GLB_CAP0_PK : Field := ⟨0x000018, 0, 1, 24, 6, .ro, 0⟩ -- reset: Per R256
/-- GLB_CAP0.HL (R378). -/
def R.GLB_CAP0_HL : Field := ⟨0x000018, 0, 1, 16, 6, .ro, 0⟩ -- reset: Per R256
/-- GLB_CAP0.CL (R378). -/
def R.GLB_CAP0_CL : Field := ⟨0x000018, 0, 1, 8, 6, .ro, 0⟩ -- reset: Per R256
/-- GLB_CAP0.TU (R378). -/
def R.GLB_CAP0_TU : Field := ⟨0x000018, 0, 1, 0, 7, .ro, 0⟩ -- reset: Per R256
/-- GLB_CAP1 (0x1c), R378. Fields from the most significant bit down. -/
def R.GLB_CAP1_EDDSA : Field := ⟨0x00001c, 0, 1, 11, 1, .ro, 0⟩ -- reset: Per R256
/-- GLB_CAP1.SEAL (R378). -/
def R.GLB_CAP1_SEAL : Field := ⟨0x00001c, 0, 1, 10, 1, .ro, 0⟩ -- reset: Per R256
/-- GLB_CAP1.CLASS21 (R378). -/
def R.GLB_CAP1_CLASS21 : Field := ⟨0x00001c, 0, 1, 9, 1, .ro, 0⟩ -- reset: Per R256
/-- GLB_CAP1.SM4 (R378). -/
def R.GLB_CAP1_SM4 : Field := ⟨0x00001c, 0, 1, 8, 1, .ro, 0⟩ -- reset: Per R256
/-- GLB_CAP1.NET (R378). -/
def R.GLB_CAP1_NET : Field := ⟨0x00001c, 0, 1, 5, 3, .ro, 0⟩ -- reset: Per R256
/-- GLB_CAP1.LU (R378). -/
def R.GLB_CAP1_LU : Field := ⟨0x00001c, 0, 1, 0, 5, .ro, 0⟩ -- reset: Per R256
/-- GLB_STS (0x20), R378. Fields from the most significant bit down. -/
def R.GLB_STS_SERVICE_READY : Field := ⟨0x000020, 0, 1, 31, 1, .ro, 0⟩
/-- GLB_STS.FAIL (R378). -/
def R.GLB_STS_FAIL : Field := ⟨0x000020, 0, 1, 8, 8, .ro, 0⟩
/-- GLB_STS.STAGE (R378). -/
def R.GLB_STS_STAGE : Field := ⟨0x000020, 0, 1, 0, 4, .ro, 0⟩
/-- GLB_FRAME_NO (0x28, 64-bit), R378. Fields from the most significant bit down. -/
def R.GLB_FRAME_NO_FRAME_NO : Field := ⟨0x000028, 0, 1, 0, 64, .ro, 0⟩
/-- GLB_RST_CMD (0x30), R378. Fields from the most significant bit down. -/
def R.GLB_RST_CMD_OP : Field := ⟨0x000030, 0, 1, 28, 4, .wo, 0⟩
/-- GLB_RST_CMD.DRAIN (R378). -/
def R.GLB_RST_CMD_DRAIN : Field := ⟨0x000030, 0, 1, 0, 1, .wo, 0⟩
/-- GLB_RST_STS (0x34), R378. Fields from the most significant bit down. -/
def R.GLB_RST_STS_CAUSE : Field := ⟨0x000034, 0, 1, 28, 4, .ro, 0⟩ -- reset: Per R372
/-- GLB_RST_STS.WARM_COUNT (R378). -/
def R.GLB_RST_STS_WARM_COUNT : Field := ⟨0x000034, 0, 1, 0, 16, .rws, 0⟩
/-- GLB_KAT_TU (0x38, array of 2, 64-bit), R378. Fields from the most significant bit down. -/
def R.GLB_KAT_TU_FAIL : Field := ⟨0x000038, 8, 2, 0, 64, .ro, 0⟩
/-- GLB_CFG_CMD (0x48), R378. Fields from the most significant bit down. -/
def R.GLB_CFG_CMD_OP : Field := ⟨0x000048, 0, 1, 28, 4, .wo, 0⟩
/-- GLB_CFG_STS (0x4c), R378. Fields from the most significant bit down. -/
def R.GLB_CFG_STS_BUSY : Field := ⟨0x00004c, 0, 1, 31, 1, .ro, 0⟩
/-- GLB_CFG_STS.PASSED (R378). -/
def R.GLB_CFG_STS_PASSED : Field := ⟨0x00004c, 0, 1, 30, 1, .ro, 0⟩
/-- GLB_CFG_STS.STALE (R378). -/
def R.GLB_CFG_STS_STALE : Field := ⟨0x00004c, 0, 1, 29, 1, .ro, 0⟩
/-- GLB_CFG_STS.COMMIT_FAIL (R378). -/
def R.GLB_CFG_STS_COMMIT_FAIL : Field := ⟨0x00004c, 0, 1, 28, 1, .ro, 0⟩
/-- GLB_CFG_STS.LATE (R378). -/
def R.GLB_CFG_STS_LATE : Field := ⟨0x00004c, 0, 1, 27, 1, .ro, 0⟩
/-- GLB_CFG_STS.COUNT (R378). -/
def R.GLB_CFG_STS_COUNT : Field := ⟨0x00004c, 0, 1, 8, 8, .ro, 0⟩
/-- GLB_CFG_STS.ERR (R378). -/
def R.GLB_CFG_STS_ERR : Field := ⟨0x00004c, 0, 1, 0, 8, .ro, 0⟩
/-- GLB_CFG_FRAME (0x50, 64-bit), R378. Fields from the most significant bit down. -/
def R.GLB_CFG_FRAME_FRAME : Field := ⟨0x000050, 0, 1, 0, 64, .ro, 0⟩
/-- GLB_CFG_VIOL (0x100, array of 16), R378. Fields from the most significant bit down. -/
def R.GLB_CFG_VIOL_VALID : Field := ⟨0x000100, 4, 16, 31, 1, .ro, 0⟩
/-- GLB_CFG_VIOL.KIND (R378). -/
def R.GLB_CFG_VIOL_KIND : Field := ⟨0x000100, 4, 16, 28, 3, .ro, 0⟩
/-- GLB_CFG_VIOL.OFFSET (R378). -/
def R.GLB_CFG_VIOL_OFFSET : Field := ⟨0x000100, 4, 16, 0, 22, .ro, 0⟩
/-- Registers of block GLB, part 0. -/
def regTabGLB0 : List Reg := [
  ⟨0x000000, 0, 1, false, [R.GLB_ID_PART, R.GLB_ID_STEPPING]⟩,
  ⟨0x000008, 8, 2, true, [R.GLB_DEVICE_ID_ID]⟩,
  ⟨0x000018, 0, 1, false, [R.GLB_CAP0_PK, R.GLB_CAP0_HL, R.GLB_CAP0_CL, R.GLB_CAP0_TU]⟩,
  ⟨0x00001c, 0, 1, false, [R.GLB_CAP1_EDDSA, R.GLB_CAP1_SEAL, R.GLB_CAP1_CLASS21, R.GLB_CAP1_SM4, R.GLB_CAP1_NET, R.GLB_CAP1_LU]⟩,
  ⟨0x000020, 0, 1, false, [R.GLB_STS_SERVICE_READY, R.GLB_STS_FAIL, R.GLB_STS_STAGE]⟩,
  ⟨0x000028, 0, 1, true, [R.GLB_FRAME_NO_FRAME_NO]⟩,
  ⟨0x000030, 0, 1, false, [R.GLB_RST_CMD_OP, R.GLB_RST_CMD_DRAIN]⟩,
  ⟨0x000034, 0, 1, false, [R.GLB_RST_STS_CAUSE, R.GLB_RST_STS_WARM_COUNT]⟩,
  ⟨0x000038, 8, 2, true, [R.GLB_KAT_TU_FAIL]⟩,
  ⟨0x000048, 0, 1, false, [R.GLB_CFG_CMD_OP]⟩,
  ⟨0x00004c, 0, 1, false, [R.GLB_CFG_STS_BUSY, R.GLB_CFG_STS_PASSED, R.GLB_CFG_STS_STALE, R.GLB_CFG_STS_COMMIT_FAIL, R.GLB_CFG_STS_LATE, R.GLB_CFG_STS_COUNT, R.GLB_CFG_STS_ERR]⟩,
  ⟨0x000050, 0, 1, true, [R.GLB_CFG_FRAME_FRAME]⟩]
/-- Registers of block GLB, part 1. -/
def regTabGLB1 : List Reg := [
  ⟨0x000100, 4, 16, false, [R.GLB_CFG_VIOL_VALID, R.GLB_CFG_VIOL_KIND, R.GLB_CFG_VIOL_OFFSET]⟩]
/-- All registers of block GLB. -/
def regTabGLB : List Reg := regTabGLB0 ++ regTabGLB1

/-! ## HIF -/

/-- HIF_PORT_CTL (0x10000), R64. Fields from the most significant bit down. -/
def R.HIF_PORT_CTL_MODE : Field := ⟨0x010000, 0, 1, 8, 2, .st, 0⟩
/-- HIF_PORT_CTL.RESULT_RO (R64). -/
def R.HIF_PORT_CTL_RESULT_RO : Field := ⟨0x010000, 0, 1, 4, 1, .st, 0⟩
/-- HIF_PORT_STS (0x10004), R64. Fields from the most significant bit down. -/
def R.HIF_PORT_STS_STALL_B : Field := ⟨0x010004, 0, 1, 24, 1, .ro, 0⟩
/-- HIF_PORT_STS.FLIT_B (R64). -/
def R.HIF_PORT_STS_FLIT_B : Field := ⟨0x010004, 0, 1, 23, 1, .ro, 0⟩
/-- HIF_PORT_STS.WIDTH_B (R64). -/
def R.HIF_PORT_STS_WIDTH_B : Field := ⟨0x010004, 0, 1, 20, 3, .ro, 0⟩
/-- HIF_PORT_STS.RATE_B (R64). -/
def R.HIF_PORT_STS_RATE_B : Field := ⟨0x010004, 0, 1, 17, 3, .ro, 0⟩
/-- HIF_PORT_STS.LINK_B (R64). -/
def R.HIF_PORT_STS_LINK_B : Field := ⟨0x010004, 0, 1, 16, 1, .ro, 0⟩
/-- HIF_PORT_STS.STALL_A (R64). -/
def R.HIF_PORT_STS_STALL_A : Field := ⟨0x010004, 0, 1, 8, 1, .ro, 0⟩
/-- HIF_PORT_STS.FLIT_A (R64). -/
def R.HIF_PORT_STS_FLIT_A : Field := ⟨0x010004, 0, 1, 7, 1, .ro, 0⟩
/-- HIF_PORT_STS.WIDTH_A (R64). -/
def R.HIF_PORT_STS_WIDTH_A : Field := ⟨0x010004, 0, 1, 4, 3, .ro, 0⟩
/-- HIF_PORT_STS.RATE_A (R64). -/
def R.HIF_PORT_STS_RATE_A : Field := ⟨0x010004, 0, 1, 1, 3, .ro, 0⟩
/-- HIF_PORT_STS.LINK_A (R64). -/
def R.HIF_PORT_STS_LINK_A : Field := ⟨0x010004, 0, 1, 0, 1, .ro, 0⟩
/-- HIF_SLICE_CTX_ADDR (0x10008, 64-bit), R64. Fields from the most significant bit down. -/
def R.HIF_SLICE_CTX_ADDR_ADDR : Field := ⟨0x010008, 0, 1, 9, 55, .rw, 0⟩
/-- HIF_SLICE_CMD (0x10010), R64. Fields from the most significant bit down. -/
def R.HIF_SLICE_CMD_OP : Field := ⟨0x010010, 0, 1, 28, 4, .wo, 0⟩
/-- HIF_SLICE_CMD.SLICE (R64). -/
def R.HIF_SLICE_CMD_SLICE : Field := ⟨0x010010, 0, 1, 0, 10, .wo, 0⟩
/-- HIF_SLICE_CMD_STS (0x10014), R64. Fields from the most significant bit down. -/
def R.HIF_SLICE_CMD_STS_BUSY : Field := ⟨0x010014, 0, 1, 31, 1, .ro, 0⟩
/-- HIF_SLICE_CMD_STS.ERR (R64). -/
def R.HIF_SLICE_CMD_STS_ERR : Field := ⟨0x010014, 0, 1, 0, 8, .ro, 0⟩
/-- HIF_LOG_ACK (0x10018, 64-bit), R64. Fields from the most significant bit down. -/
def R.HIF_LOG_ACK_COUNT : Field := ⟨0x010018, 0, 1, 32, 32, .wo, 0⟩
/-- HIF_LOG_ACK.SLICE (R64). -/
def R.HIF_LOG_ACK_SLICE : Field := ⟨0x010018, 0, 1, 0, 10, .wo, 0⟩
/-- HIF_ERR_STS (0x10020), R64. Fields from the most significant bit down. -/
def R.HIF_ERR_STS_LOG_OVF : Field := ⟨0x010020, 0, 1, 7, 1, .w1c, 0⟩
/-- HIF_ERR_STS.DMA_FAULT (R64). -/
def R.HIF_ERR_STS_DMA_FAULT : Field := ⟨0x010020, 0, 1, 6, 1, .w1c, 0⟩
/-- HIF_ERR_STS.STALL_B (R64). -/
def R.HIF_ERR_STS_STALL_B : Field := ⟨0x010020, 0, 1, 5, 1, .w1c, 0⟩
/-- HIF_ERR_STS.STALL_A (R64). -/
def R.HIF_ERR_STS_STALL_A : Field := ⟨0x010020, 0, 1, 4, 1, .w1c, 0⟩
/-- HIF_ERR_STS.RING_FAULT (R64). -/
def R.HIF_ERR_STS_RING_FAULT : Field := ⟨0x010020, 0, 1, 3, 1, .w1c, 0⟩
/-- HIF_ERR_STS.BAD_DESC (R64). -/
def R.HIF_ERR_STS_BAD_DESC : Field := ⟨0x010020, 0, 1, 2, 1, .w1c, 0⟩
/-- HIF_ERR_STS.STALE (R64). -/
def R.HIF_ERR_STS_STALE : Field := ⟨0x010020, 0, 1, 1, 1, .w1c, 0⟩
/-- HIF_ERR_STS.BAD_DB (R64). -/
def R.HIF_ERR_STS_BAD_DB : Field := ⟨0x010020, 0, 1, 0, 1, .w1c, 0⟩
/-- HIF_ERR_INFO (0x10024), R64. Fields from the most significant bit down. -/
def R.HIF_ERR_INFO_CAUSE : Field := ⟨0x010024, 0, 1, 29, 3, .ro, 0⟩
/-- HIF_ERR_INFO.RING (R64). -/
def R.HIF_ERR_INFO_RING : Field := ⟨0x010024, 0, 1, 16, 4, .ro, 0⟩
/-- HIF_ERR_INFO.SLICE (R64). -/
def R.HIF_ERR_INFO_SLICE : Field := ⟨0x010024, 0, 1, 0, 10, .ro, 0⟩
/-- HIF_IRQ_EN (0x10028), R64. Fields from the most significant bit down. -/
def R.HIF_IRQ_EN_EN : Field := ⟨0x010028, 0, 1, 0, 8, .rw, 0⟩
/-- HIF_SLICE_STATE (0x11000, array of 1024), R64. Fields from the most significant bit down. -/
def R.HIF_SLICE_STATE_LOG_OVF : Field := ⟨0x011000, 4, 1024, 17, 1, .ro, 0⟩
/-- HIF_SLICE_STATE.LOG_EN (R64). -/
def R.HIF_SLICE_STATE_LOG_EN : Field := ⟨0x011000, 4, 1024, 16, 1, .ro, 0⟩
/-- HIF_SLICE_STATE.HOME (R64). -/
def R.HIF_SLICE_STATE_HOME : Field := ⟨0x011000, 4, 1024, 12, 1, .ro, 0⟩
/-- HIF_SLICE_STATE.STATE (R64). -/
def R.HIF_SLICE_STATE_STATE : Field := ⟨0x011000, 4, 1024, 8, 3, .ro, 0⟩
/-- HIF_SLICE_STATE.GEN (R64). -/
def R.HIF_SLICE_STATE_GEN : Field := ⟨0x011000, 4, 1024, 0, 8, .ro, 0⟩
/-- Registers of block HIF, part 0. -/
def regTabHIF0 : List Reg := [
  ⟨0x010000, 0, 1, false, [R.HIF_PORT_CTL_MODE, R.HIF_PORT_CTL_RESULT_RO]⟩,
  ⟨0x010004, 0, 1, false, [R.HIF_PORT_STS_STALL_B, R.HIF_PORT_STS_FLIT_B, R.HIF_PORT_STS_WIDTH_B, R.HIF_PORT_STS_RATE_B, R.HIF_PORT_STS_LINK_B, R.HIF_PORT_STS_STALL_A, R.HIF_PORT_STS_FLIT_A, R.HIF_PORT_STS_WIDTH_A, R.HIF_PORT_STS_RATE_A, R.HIF_PORT_STS_LINK_A]⟩,
  ⟨0x010008, 0, 1, true, [R.HIF_SLICE_CTX_ADDR_ADDR]⟩,
  ⟨0x010010, 0, 1, false, [R.HIF_SLICE_CMD_OP, R.HIF_SLICE_CMD_SLICE]⟩,
  ⟨0x010014, 0, 1, false, [R.HIF_SLICE_CMD_STS_BUSY, R.HIF_SLICE_CMD_STS_ERR]⟩,
  ⟨0x010018, 0, 1, true, [R.HIF_LOG_ACK_COUNT, R.HIF_LOG_ACK_SLICE]⟩,
  ⟨0x010020, 0, 1, false, [R.HIF_ERR_STS_LOG_OVF, R.HIF_ERR_STS_DMA_FAULT, R.HIF_ERR_STS_STALL_B, R.HIF_ERR_STS_STALL_A, R.HIF_ERR_STS_RING_FAULT, R.HIF_ERR_STS_BAD_DESC, R.HIF_ERR_STS_STALE, R.HIF_ERR_STS_BAD_DB]⟩,
  ⟨0x010024, 0, 1, false, [R.HIF_ERR_INFO_CAUSE, R.HIF_ERR_INFO_RING, R.HIF_ERR_INFO_SLICE]⟩,
  ⟨0x010028, 0, 1, false, [R.HIF_IRQ_EN_EN]⟩,
  ⟨0x011000, 4, 1024, false, [R.HIF_SLICE_STATE_LOG_OVF, R.HIF_SLICE_STATE_LOG_EN, R.HIF_SLICE_STATE_HOME, R.HIF_SLICE_STATE_STATE, R.HIF_SLICE_STATE_GEN]⟩]
/-- All registers of block HIF. -/
def regTabHIF : List Reg := regTabHIF0

/-! ## TRV -/

/-- TRV_CTL (0x20000), R86. Fields from the most significant bit down. -/
def R.TRV_CTL_OBS_STOP : Field := ⟨0x020000, 0, 1, 0, 1, .rw, 0⟩
/-- TRV_STS (0x20004), R86. Fields from the most significant bit down. -/
def R.TRV_STS_FATAL : Field := ⟨0x020004, 0, 1, 6, 1, .ro, 0⟩
/-- TRV_STS.BROWNOUT (R86). -/
def R.TRV_STS_BROWNOUT : Field := ⟨0x020004, 0, 1, 5, 1, .ro, 0⟩
/-- TRV_STS.ENTROPY (R86). -/
def R.TRV_STS_ENTROPY : Field := ⟨0x020004, 0, 1, 4, 1, .ro, 0⟩
/-- TRV_STS.AUDIT_FULL (R86). -/
def R.TRV_STS_AUDIT_FULL : Field := ⟨0x020004, 0, 1, 3, 1, .ro, 0⟩
/-- TRV_STS.UPDATE (R86). -/
def R.TRV_STS_UPDATE : Field := ⟨0x020004, 0, 1, 2, 1, .ro, 0⟩
/-- TRV_STS.BACKLOG (R86). -/
def R.TRV_STS_BACKLOG : Field := ⟨0x020004, 0, 1, 1, 1, .ro, 0⟩
/-- TRV_STS.READY (R86). -/
def R.TRV_STS_READY : Field := ⟨0x020004, 0, 1, 0, 1, .ro, 0⟩
/-- TRV_INFLIGHT (0x20008), R86. Fields from the most significant bit down. -/
def R.TRV_INFLIGHT_HELD : Field := ⟨0x020008, 0, 1, 16, 15, .ro, 0⟩
/-- TRV_INFLIGHT.COUNT (R86). -/
def R.TRV_INFLIGHT_COUNT : Field := ⟨0x020008, 0, 1, 0, 15, .ro, 0⟩
/-- TRV_WB_LIMIT (0x2000c), R86. Fields from the most significant bit down. -/
def R.TRV_WB_LIMIT_BYTES : Field := ⟨0x02000c, 0, 1, 0, 21, .st, 1113088⟩
/-- TRV_CNT_ADMIT (0x20010, 64-bit), R86. Fields from the most significant bit down. -/
def R.TRV_CNT_ADMIT_COUNT : Field := ⟨0x020010, 0, 1, 0, 64, .ro, 0⟩
/-- TRV_CNT_REFUSE (0x20018, 64-bit), R86. Fields from the most significant bit down. -/
def R.TRV_CNT_REFUSE_COUNT : Field := ⟨0x020018, 0, 1, 0, 64, .ro, 0⟩
/-- TRV_CNT_RECOMP (0x20020), R86. Fields from the most significant bit down. -/
def R.TRV_CNT_RECOMP_COUNT : Field := ⟨0x020020, 0, 1, 0, 32, .ro, 0⟩
/-- TRV_CNT_DEP_MISS (0x20024), R86. Fields from the most significant bit down. -/
def R.TRV_CNT_DEP_MISS_COUNT : Field := ⟨0x020024, 0, 1, 0, 32, .ro, 0⟩
/-- TRV_ERR_STS (0x20028), R86. Fields from the most significant bit down. -/
def R.TRV_ERR_STS_RECOMP_FAIL : Field := ⟨0x020028, 0, 1, 4, 1, .w1c, 0⟩
/-- TRV_ERR_STS.HOLD_EXPIRE (R86). -/
def R.TRV_ERR_STS_HOLD_EXPIRE : Field := ⟨0x020028, 0, 1, 3, 1, .w1c, 0⟩
/-- TRV_ERR_STS.DEP_MISS (R86). -/
def R.TRV_ERR_STS_DEP_MISS : Field := ⟨0x020028, 0, 1, 2, 1, .w1c, 0⟩
/-- TRV_ERR_STS.BACKLOG (R86). -/
def R.TRV_ERR_STS_BACKLOG : Field := ⟨0x020028, 0, 1, 1, 1, .w1c, 0⟩
/-- TRV_ERR_STS.BROWNOUT (R86). -/
def R.TRV_ERR_STS_BROWNOUT : Field := ⟨0x020028, 0, 1, 0, 1, .w1c, 0⟩
/-- TRV_IRQ_EN (0x2002c), R86. Fields from the most significant bit down. -/
def R.TRV_IRQ_EN_EN : Field := ⟨0x02002c, 0, 1, 0, 5, .rw, 0⟩
/-- TRV_CAL_SEL (0x20030), R86. Fields from the most significant bit down. -/
def R.TRV_CAL_SEL_RES : Field := ⟨0x020030, 0, 1, 16, 4, .rw, 0⟩
/-- TRV_CAL_SEL.OFFSET (R86). -/
def R.TRV_CAL_SEL_OFFSET : Field := ⟨0x020030, 0, 1, 0, 8, .rw, 0⟩
/-- TRV_CAL_DATA (0x20038, 64-bit), R86. Fields from the most significant bit down. -/
def R.TRV_CAL_DATA_ADMISSIBLE : Field := ⟨0x020038, 0, 1, 32, 32, .ro, 0⟩
/-- TRV_CAL_DATA.RESERVED (R86). -/
def R.TRV_CAL_DATA_RESERVED : Field := ⟨0x020038, 0, 1, 0, 32, .ro, 0⟩
/-- TRV_CLASS_INFO (0x20400, array of 256), R86. Fields from the most significant bit down. -/
def R.TRV_CLASS_INFO_VALID : Field := ⟨0x020400, 4, 256, 31, 1, .ro, 0⟩ -- reset: Per R67
/-- TRV_CLASS_INFO.BULK (R86). -/
def R.TRV_CLASS_INFO_BULK : Field := ⟨0x020400, 4, 256, 30, 1, .ro, 0⟩ -- reset: Per R67
/-- TRV_CLASS_INFO.CONT (R86). -/
def R.TRV_CLASS_INFO_CONT : Field := ⟨0x020400, 4, 256, 29, 1, .ro, 0⟩ -- reset: Per R67
/-- TRV_CLASS_INFO.RESUM (R86). -/
def R.TRV_CLASS_INFO_RESUM : Field := ⟨0x020400, 4, 256, 28, 1, .ro, 0⟩ -- reset: Per R67
/-- TRV_CLASS_INFO.KEYS (R86). -/
def R.TRV_CLASS_INFO_KEYS : Field := ⟨0x020400, 4, 256, 24, 4, .ro, 0⟩ -- reset: Per R67
/-- TRV_CLASS_INFO.SPAN (R86). -/
def R.TRV_CLASS_INFO_SPAN : Field := ⟨0x020400, 4, 256, 16, 8, .ro, 0⟩ -- reset: Per R67
/-- TRV_CLASS_INFO.DMAX (R86). -/
def R.TRV_CLASS_INFO_DMAX : Field := ⟨0x020400, 4, 256, 8, 8, .ro, 0⟩ -- reset: Per R67
/-- TRV_CLASS_INFO.PROMISE (R86). -/
def R.TRV_CLASS_INFO_PROMISE : Field := ⟨0x020400, 4, 256, 0, 8, .ro, 0⟩ -- reset: Per R67
/-- TRV_SLICE_SHARE (0x21000, array of 1024), R86. Fields from the most significant bit down. -/
def R.TRV_SLICE_SHARE_CAP : Field := ⟨0x021000, 4, 1024, 16, 9, .st, 256⟩
/-- TRV_SLICE_SHARE.GUAR (R86). -/
def R.TRV_SLICE_SHARE_GUAR : Field := ⟨0x021000, 4, 1024, 0, 9, .st, 0⟩
/-- TRV_SLICE_USE (0x22000, array of 1024), R86. Fields from the most significant bit down. -/
def R.TRV_SLICE_USE_HELD : Field := ⟨0x022000, 4, 1024, 16, 15, .ro, 0⟩
/-- TRV_SLICE_USE.INFLIGHT (R86). -/
def R.TRV_SLICE_USE_INFLIGHT : Field := ⟨0x022000, 4, 1024, 0, 15, .ro, 0⟩
/-- Registers of block TRV, part 0. -/
def regTabTRV0 : List Reg := [
  ⟨0x020000, 0, 1, false, [R.TRV_CTL_OBS_STOP]⟩,
  ⟨0x020004, 0, 1, false, [R.TRV_STS_FATAL, R.TRV_STS_BROWNOUT, R.TRV_STS_ENTROPY, R.TRV_STS_AUDIT_FULL, R.TRV_STS_UPDATE, R.TRV_STS_BACKLOG, R.TRV_STS_READY]⟩,
  ⟨0x020008, 0, 1, false, [R.TRV_INFLIGHT_HELD, R.TRV_INFLIGHT_COUNT]⟩,
  ⟨0x02000c, 0, 1, false, [R.TRV_WB_LIMIT_BYTES]⟩,
  ⟨0x020010, 0, 1, true, [R.TRV_CNT_ADMIT_COUNT]⟩,
  ⟨0x020018, 0, 1, true, [R.TRV_CNT_REFUSE_COUNT]⟩,
  ⟨0x020020, 0, 1, false, [R.TRV_CNT_RECOMP_COUNT]⟩,
  ⟨0x020024, 0, 1, false, [R.TRV_CNT_DEP_MISS_COUNT]⟩,
  ⟨0x020028, 0, 1, false, [R.TRV_ERR_STS_RECOMP_FAIL, R.TRV_ERR_STS_HOLD_EXPIRE, R.TRV_ERR_STS_DEP_MISS, R.TRV_ERR_STS_BACKLOG, R.TRV_ERR_STS_BROWNOUT]⟩,
  ⟨0x02002c, 0, 1, false, [R.TRV_IRQ_EN_EN]⟩,
  ⟨0x020030, 0, 1, false, [R.TRV_CAL_SEL_RES, R.TRV_CAL_SEL_OFFSET]⟩,
  ⟨0x020038, 0, 1, true, [R.TRV_CAL_DATA_ADMISSIBLE, R.TRV_CAL_DATA_RESERVED]⟩]
/-- Registers of block TRV, part 1. -/
def regTabTRV1 : List Reg := [
  ⟨0x020400, 4, 256, false, [R.TRV_CLASS_INFO_VALID, R.TRV_CLASS_INFO_BULK, R.TRV_CLASS_INFO_CONT, R.TRV_CLASS_INFO_RESUM, R.TRV_CLASS_INFO_KEYS, R.TRV_CLASS_INFO_SPAN, R.TRV_CLASS_INFO_DMAX, R.TRV_CLASS_INFO_PROMISE]⟩,
  ⟨0x021000, 4, 1024, false, [R.TRV_SLICE_SHARE_CAP, R.TRV_SLICE_SHARE_GUAR]⟩,
  ⟨0x022000, 4, 1024, false, [R.TRV_SLICE_USE_HELD, R.TRV_SLICE_USE_INFLIGHT]⟩]
/-- All registers of block TRV. -/
def regTabTRV : List Reg := regTabTRV0 ++ regTabTRV1

/-! ## TU -/

/-- TU_CTL (0x30000), R121. Fields from the most significant bit down. -/
def R.TU_CTL_LOCK : Field := ⟨0x030000, 0, 1, 0, 1, .w1s, 0⟩
/-- TU_STS (0x30004), R121. Fields from the most significant bit down. -/
def R.TU_STS_PRESENT : Field := ⟨0x030004, 0, 1, 16, 7, .ro, 0⟩ -- reset: Per GLB_CAP
/-- TU_STS.LOCKED (R121). -/
def R.TU_STS_LOCKED : Field := ⟨0x030004, 0, 1, 0, 1, .ro, 0⟩
/-- TU_RECIPE_IDX (0x30008), R121. Fields from the most significant bit down. -/
def R.TU_RECIPE_IDX_WORD : Field := ⟨0x030008, 0, 1, 0, 15, .rw, 0⟩
/-- TU_RECIPE_DATA (0x30010, 64-bit), R121. Fields from the most significant bit down. -/
def R.TU_RECIPE_DATA_DATA : Field := ⟨0x030010, 0, 1, 0, 64, .wo, 0⟩
/-- TU_RECIPE_VER (0x30018), R121. Fields from the most significant bit down. -/
def R.TU_RECIPE_VER_MAJOR : Field := ⟨0x030018, 0, 1, 16, 16, .ro, 0⟩
/-- TU_RECIPE_VER.MINOR (R121). -/
def R.TU_RECIPE_VER_MINOR : Field := ⟨0x030018, 0, 1, 0, 16, .ro, 0⟩
/-- TU_RECIPE_DIGEST (0x30020, array of 6, 64-bit), R121. Fields from the most significant bit down. -/
def R.TU_RECIPE_DIGEST_DIGEST : Field := ⟨0x030020, 8, 6, 0, 64, .ro, 0⟩
/-- TU_ERR_STS (0x30060), R121. Fields from the most significant bit down. -/
def R.TU_ERR_STS_RECIPE_LOST : Field := ⟨0x030060, 0, 1, 2, 1, .w1c, 0⟩
/-- TU_ERR_STS.RECIPE_FIX (R121). -/
def R.TU_ERR_STS_RECIPE_FIX : Field := ⟨0x030060, 0, 1, 1, 1, .w1c, 0⟩
/-- TU_ERR_STS.CARRY_AUTH (R121). -/
def R.TU_ERR_STS_CARRY_AUTH : Field := ⟨0x030060, 0, 1, 0, 1, .w1c, 0⟩
/-- TU_ERR_INFO (0x30064), R121. Fields from the most significant bit down. -/
def R.TU_ERR_INFO_OPCODE : Field := ⟨0x030064, 0, 1, 16, 16, .ro, 0⟩
/-- TU_ERR_INFO.CAUSE (R121). -/
def R.TU_ERR_INFO_CAUSE : Field := ⟨0x030064, 0, 1, 6, 2, .ro, 0⟩
/-- TU_ERR_INFO.UNIT (R121). -/
def R.TU_ERR_INFO_UNIT : Field := ⟨0x030064, 0, 1, 0, 6, .ro, 0⟩
/-- TU_UNIT_STS (0x30100, array of 64), R121. Fields from the most significant bit down. -/
def R.TU_UNIT_STS_PRESENT : Field := ⟨0x030100, 4, 64, 31, 1, .ro, 0⟩ -- reset: Per GLB_CAP
/-- TU_UNIT_STS.BUSY (R121). -/
def R.TU_UNIT_STS_BUSY : Field := ⟨0x030100, 4, 64, 30, 1, .ro, 0⟩
/-- TU_UNIT_STS.OPCODE (R121). -/
def R.TU_UNIT_STS_OPCODE : Field := ⟨0x030100, 4, 64, 0, 16, .ro, 0⟩
/-- TU_SLICE_POLICY (0x31000, array of 1024), R121. Fields from the most significant bit down. -/
def R.TU_SLICE_POLICY_MAX_PIN : Field := ⟨0x031000, 4, 1024, 12, 4, .st, 12⟩
/-- TU_SLICE_POLICY.MIN_PIN (R121). -/
def R.TU_SLICE_POLICY_MIN_PIN : Field := ⟨0x031000, 4, 1024, 8, 4, .st, 4⟩
/-- TU_SLICE_POLICY.SEAL (R121). -/
def R.TU_SLICE_POLICY_SEAL : Field := ⟨0x031000, 4, 1024, 7, 1, .st, 0⟩
/-- TU_SLICE_POLICY.AUDIT_MAC (R121). -/
def R.TU_SLICE_POLICY_AUDIT_MAC : Field := ⟨0x031000, 4, 1024, 6, 1, .st, 0⟩
/-- TU_SLICE_POLICY.AUDIT_CARD (R121). -/
def R.TU_SLICE_POLICY_AUDIT_CARD : Field := ⟨0x031000, 4, 1024, 5, 1, .st, 0⟩
/-- TU_SLICE_POLICY.AUDIT_PIN (R121). -/
def R.TU_SLICE_POLICY_AUDIT_PIN : Field := ⟨0x031000, 4, 1024, 4, 1, .st, 0⟩
/-- TU_SLICE_POLICY.PIN_GEN (R121). -/
def R.TU_SLICE_POLICY_PIN_GEN : Field := ⟨0x031000, 4, 1024, 3, 1, .st, 0⟩
/-- TU_SLICE_POLICY.PAN_CHANGE (R121). -/
def R.TU_SLICE_POLICY_PAN_CHANGE : Field := ⟨0x031000, 4, 1024, 2, 1, .st, 0⟩
/-- TU_SLICE_POLICY.DOWNGRADE (R121). -/
def R.TU_SLICE_POLICY_DOWNGRADE : Field := ⟨0x031000, 4, 1024, 1, 1, .st, 0⟩
/-- TU_SLICE_POLICY.FMT1_OUT (R121). -/
def R.TU_SLICE_POLICY_FMT1_OUT : Field := ⟨0x031000, 4, 1024, 0, 1, .st, 0⟩
/-- TU_SLICE_MISMATCH (0x32000, array of 1024), R121. Fields from the most significant bit down. -/
def R.TU_SLICE_MISMATCH_COUNT : Field := ⟨0x032000, 4, 1024, 0, 32, .ro, 0⟩
/-- Registers of block TU, part 0. -/
def regTabTU0 : List Reg := [
  ⟨0x030000, 0, 1, false, [R.TU_CTL_LOCK]⟩,
  ⟨0x030004, 0, 1, false, [R.TU_STS_PRESENT, R.TU_STS_LOCKED]⟩,
  ⟨0x030008, 0, 1, false, [R.TU_RECIPE_IDX_WORD]⟩,
  ⟨0x030010, 0, 1, true, [R.TU_RECIPE_DATA_DATA]⟩,
  ⟨0x030018, 0, 1, false, [R.TU_RECIPE_VER_MAJOR, R.TU_RECIPE_VER_MINOR]⟩,
  ⟨0x030020, 8, 6, true, [R.TU_RECIPE_DIGEST_DIGEST]⟩,
  ⟨0x030060, 0, 1, false, [R.TU_ERR_STS_RECIPE_LOST, R.TU_ERR_STS_RECIPE_FIX, R.TU_ERR_STS_CARRY_AUTH]⟩,
  ⟨0x030064, 0, 1, false, [R.TU_ERR_INFO_OPCODE, R.TU_ERR_INFO_CAUSE, R.TU_ERR_INFO_UNIT]⟩,
  ⟨0x030100, 4, 64, false, [R.TU_UNIT_STS_PRESENT, R.TU_UNIT_STS_BUSY, R.TU_UNIT_STS_OPCODE]⟩,
  ⟨0x031000, 4, 1024, false, [R.TU_SLICE_POLICY_MAX_PIN, R.TU_SLICE_POLICY_MIN_PIN, R.TU_SLICE_POLICY_SEAL, R.TU_SLICE_POLICY_AUDIT_MAC, R.TU_SLICE_POLICY_AUDIT_CARD, R.TU_SLICE_POLICY_AUDIT_PIN, R.TU_SLICE_POLICY_PIN_GEN, R.TU_SLICE_POLICY_PAN_CHANGE, R.TU_SLICE_POLICY_DOWNGRADE, R.TU_SLICE_POLICY_FMT1_OUT]⟩,
  ⟨0x032000, 4, 1024, false, [R.TU_SLICE_MISMATCH_COUNT]⟩]
/-- All registers of block TU. -/
def regTabTU : List Reg := regTabTU0

/-! ## CL -/

/-- CL_STS (0x40000), R147. Fields from the most significant bit down. -/
def R.CL_STS_PRESENT : Field := ⟨0x040000, 0, 1, 16, 6, .ro, 0⟩ -- reset: Per GLB_CAP
/-- CL_STS.SM4 (R147). -/
def R.CL_STS_SM4 : Field := ⟨0x040000, 0, 1, 8, 1, .ro, 0⟩ -- reset: Per GLB_CAP
/-- CL_STS.KAT_DONE (R147). -/
def R.CL_STS_KAT_DONE : Field := ⟨0x040000, 0, 1, 0, 1, .ro, 0⟩
/-- CL_GCM_FIXED (0x40004), R147. Fields from the most significant bit down. -/
def R.CL_GCM_FIXED_FIXED : Field := ⟨0x040004, 0, 1, 0, 20, .st, 0⟩
/-- CL_KAT_STS (0x40008), R147. Fields from the most significant bit down. -/
def R.CL_KAT_STS_FAIL : Field := ⟨0x040008, 0, 1, 0, 32, .ro, 0⟩
/-- CL_ERR_STS (0x4000c), R147. Fields from the most significant bit down. -/
def R.CL_ERR_STS_WRAP_GUARD : Field := ⟨0x04000c, 0, 1, 2, 1, .w1c, 0⟩
/-- CL_ERR_STS.MASK_STUCK (R147). -/
def R.CL_ERR_STS_MASK_STUCK : Field := ⟨0x04000c, 0, 1, 1, 1, .w1c, 0⟩
/-- CL_ERR_STS.CARRY_AUTH (R147). -/
def R.CL_ERR_STS_CARRY_AUTH : Field := ⟨0x04000c, 0, 1, 0, 1, .w1c, 0⟩
/-- CL_ERR_INFO (0x40010), R147. Fields from the most significant bit down. -/
def R.CL_ERR_INFO_OPCODE : Field := ⟨0x040010, 0, 1, 16, 16, .ro, 0⟩
/-- CL_ERR_INFO.CAUSE (R147). -/
def R.CL_ERR_INFO_CAUSE : Field := ⟨0x040010, 0, 1, 8, 2, .ro, 0⟩
/-- CL_ERR_INFO.LANE (R147). -/
def R.CL_ERR_INFO_LANE : Field := ⟨0x040010, 0, 1, 0, 5, .ro, 0⟩
/-- CL_CNT_BLOCKS (0x40018, 64-bit), R147. Fields from the most significant bit down. -/
def R.CL_CNT_BLOCKS_COUNT : Field := ⟨0x040018, 0, 1, 0, 64, .ro, 0⟩
/-- CL_CNT_MASK_SKIP (0x40020), R147. Fields from the most significant bit down. -/
def R.CL_CNT_MASK_SKIP_COUNT : Field := ⟨0x040020, 0, 1, 0, 32, .ro, 0⟩
/-- CL_CNT_EXHAUST (0x40024), R147. Fields from the most significant bit down. -/
def R.CL_CNT_EXHAUST_COUNT : Field := ⟨0x040024, 0, 1, 0, 32, .ro, 0⟩
/-- CL_LANE_STS (0x40100, array of 32), R147. Fields from the most significant bit down. -/
def R.CL_LANE_STS_PRESENT : Field := ⟨0x040100, 4, 32, 31, 1, .ro, 0⟩ -- reset: Per GLB_CAP
/-- CL_LANE_STS.BUSY (R147). -/
def R.CL_LANE_STS_BUSY : Field := ⟨0x040100, 4, 32, 30, 1, .ro, 0⟩
/-- CL_LANE_STS.ALG (R147). -/
def R.CL_LANE_STS_ALG : Field := ⟨0x040100, 4, 32, 28, 2, .ro, 0⟩
/-- CL_LANE_STS.OPCODE (R147). -/
def R.CL_LANE_STS_OPCODE : Field := ⟨0x040100, 4, 32, 0, 16, .ro, 0⟩
/-- Registers of block CL, part 0. -/
def regTabCL0 : List Reg := [
  ⟨0x040000, 0, 1, false, [R.CL_STS_PRESENT, R.CL_STS_SM4, R.CL_STS_KAT_DONE]⟩,
  ⟨0x040004, 0, 1, false, [R.CL_GCM_FIXED_FIXED]⟩,
  ⟨0x040008, 0, 1, false, [R.CL_KAT_STS_FAIL]⟩,
  ⟨0x04000c, 0, 1, false, [R.CL_ERR_STS_WRAP_GUARD, R.CL_ERR_STS_MASK_STUCK, R.CL_ERR_STS_CARRY_AUTH]⟩,
  ⟨0x040010, 0, 1, false, [R.CL_ERR_INFO_OPCODE, R.CL_ERR_INFO_CAUSE, R.CL_ERR_INFO_LANE]⟩,
  ⟨0x040018, 0, 1, true, [R.CL_CNT_BLOCKS_COUNT]⟩,
  ⟨0x040020, 0, 1, false, [R.CL_CNT_MASK_SKIP_COUNT]⟩,
  ⟨0x040024, 0, 1, false, [R.CL_CNT_EXHAUST_COUNT]⟩,
  ⟨0x040100, 4, 32, false, [R.CL_LANE_STS_PRESENT, R.CL_LANE_STS_BUSY, R.CL_LANE_STS_ALG, R.CL_LANE_STS_OPCODE]⟩]
/-- All registers of block CL. -/
def regTabCL : List Reg := regTabCL0

/-! ## PK -/

/-- PK_CTL (0x50000), R179. Fields from the most significant bit down. -/
def R.PK_CTL_LOCK : Field := ⟨0x050000, 0, 1, 0, 1, .w1s, 0⟩
/-- PK_STS (0x50004), R179. Fields from the most significant bit down. -/
def R.PK_STS_PRESENT : Field := ⟨0x050004, 0, 1, 16, 6, .ro, 0⟩ -- reset: Per GLB_CAP
/-- PK_STS.LOCKED (R179). -/
def R.PK_STS_LOCKED : Field := ⟨0x050004, 0, 1, 1, 1, .ro, 0⟩
/-- PK_STS.KAT_DONE (R179). -/
def R.PK_STS_KAT_DONE : Field := ⟨0x050004, 0, 1, 0, 1, .ro, 0⟩
/-- PK_ROUTINE_IDX (0x50008), R179. Fields from the most significant bit down. -/
def R.PK_ROUTINE_IDX_WORD : Field := ⟨0x050008, 0, 1, 0, 16, .rw, 0⟩
/-- PK_ROUTINE_DATA (0x50010, 64-bit), R179. Fields from the most significant bit down. -/
def R.PK_ROUTINE_DATA_DATA : Field := ⟨0x050010, 0, 1, 0, 64, .wo, 0⟩
/-- PK_ROUTINE_VER (0x50018), R179. Fields from the most significant bit down. -/
def R.PK_ROUTINE_VER_MAJOR : Field := ⟨0x050018, 0, 1, 16, 16, .ro, 0⟩
/-- PK_ROUTINE_VER.MINOR (R179). -/
def R.PK_ROUTINE_VER_MINOR : Field := ⟨0x050018, 0, 1, 0, 16, .ro, 0⟩
/-- PK_ROUTINE_DIGEST (0x50020, array of 6, 64-bit), R179. Fields from the most significant bit down. -/
def R.PK_ROUTINE_DIGEST_DIGEST : Field := ⟨0x050020, 8, 6, 0, 64, .ro, 0⟩
/-- PK_KAT_STS (0x50050), R179. Fields from the most significant bit down. -/
def R.PK_KAT_STS_FAIL : Field := ⟨0x050050, 0, 1, 0, 32, .ro, 0⟩
/-- PK_ERR_STS (0x50054), R179. Fields from the most significant bit down. -/
def R.PK_ERR_STS_CONT_EVICT : Field := ⟨0x050054, 0, 1, 4, 1, .w1c, 0⟩
/-- PK_ERR_STS.ROUTINE_LOST (R179). -/
def R.PK_ERR_STS_ROUTINE_LOST : Field := ⟨0x050054, 0, 1, 3, 1, .w1c, 0⟩
/-- PK_ERR_STS.ROUTINE_FIX (R179). -/
def R.PK_ERR_STS_ROUTINE_FIX : Field := ⟨0x050054, 0, 1, 2, 1, .w1c, 0⟩
/-- PK_ERR_STS.SLOT_ERR (R179). -/
def R.PK_ERR_STS_SLOT_ERR : Field := ⟨0x050054, 0, 1, 1, 1, .w1c, 0⟩
/-- PK_ERR_STS.COMPARE (R179). -/
def R.PK_ERR_STS_COMPARE : Field := ⟨0x050054, 0, 1, 0, 1, .w1c, 0⟩
/-- PK_ERR_INFO (0x50058), R179. Fields from the most significant bit down. -/
def R.PK_ERR_INFO_OPCODE : Field := ⟨0x050058, 0, 1, 16, 16, .ro, 0⟩
/-- PK_ERR_INFO.CAUSE (R179). -/
def R.PK_ERR_INFO_CAUSE : Field := ⟨0x050058, 0, 1, 8, 3, .ro, 0⟩
/-- PK_ERR_INFO.TILE (R179). -/
def R.PK_ERR_INFO_TILE : Field := ⟨0x050058, 0, 1, 0, 5, .ro, 0⟩
/-- PK_CNT_COMPARE (0x5005c), R179. Fields from the most significant bit down. -/
def R.PK_CNT_COMPARE_COUNT : Field := ⟨0x05005c, 0, 1, 0, 32, .ro, 0⟩
/-- PK_CNT_SUBST (0x50060), R179. Fields from the most significant bit down. -/
def R.PK_CNT_SUBST_COUNT : Field := ⟨0x050060, 0, 1, 0, 32, .ro, 0⟩
/-- PK_CNT_PARTIAL (0x50064), R179. Fields from the most significant bit down. -/
def R.PK_CNT_PARTIAL_COUNT : Field := ⟨0x050064, 0, 1, 0, 32, .ro, 0⟩
/-- PK_TILE_STS (0x50100, array of 32), R179. Fields from the most significant bit down. -/
def R.PK_TILE_STS_PRESENT : Field := ⟨0x050100, 4, 32, 31, 1, .ro, 0⟩ -- reset: Per GLB_CAP
/-- PK_TILE_STS.BUSY (R179). -/
def R.PK_TILE_STS_BUSY : Field := ⟨0x050100, 4, 32, 30, 1, .ro, 0⟩
/-- PK_TILE_STS.OPCODE (R179). -/
def R.PK_TILE_STS_OPCODE : Field := ⟨0x050100, 4, 32, 0, 16, .ro, 0⟩
/-- PK_SLICE_CONT (0x51000, array of 1024), R179. Fields from the most significant bit down. -/
def R.PK_SLICE_CONT_EVICTED : Field := ⟨0x051000, 4, 1024, 16, 16, .ro, 0⟩
/-- PK_SLICE_CONT.OUTSTANDING (R179). -/
def R.PK_SLICE_CONT_OUTSTANDING : Field := ⟨0x051000, 4, 1024, 0, 5, .ro, 0⟩
/-- Registers of block PK, part 0. -/
def regTabPK0 : List Reg := [
  ⟨0x050000, 0, 1, false, [R.PK_CTL_LOCK]⟩,
  ⟨0x050004, 0, 1, false, [R.PK_STS_PRESENT, R.PK_STS_LOCKED, R.PK_STS_KAT_DONE]⟩,
  ⟨0x050008, 0, 1, false, [R.PK_ROUTINE_IDX_WORD]⟩,
  ⟨0x050010, 0, 1, true, [R.PK_ROUTINE_DATA_DATA]⟩,
  ⟨0x050018, 0, 1, false, [R.PK_ROUTINE_VER_MAJOR, R.PK_ROUTINE_VER_MINOR]⟩,
  ⟨0x050020, 8, 6, true, [R.PK_ROUTINE_DIGEST_DIGEST]⟩,
  ⟨0x050050, 0, 1, false, [R.PK_KAT_STS_FAIL]⟩,
  ⟨0x050054, 0, 1, false, [R.PK_ERR_STS_CONT_EVICT, R.PK_ERR_STS_ROUTINE_LOST, R.PK_ERR_STS_ROUTINE_FIX, R.PK_ERR_STS_SLOT_ERR, R.PK_ERR_STS_COMPARE]⟩,
  ⟨0x050058, 0, 1, false, [R.PK_ERR_INFO_OPCODE, R.PK_ERR_INFO_CAUSE, R.PK_ERR_INFO_TILE]⟩,
  ⟨0x05005c, 0, 1, false, [R.PK_CNT_COMPARE_COUNT]⟩,
  ⟨0x050060, 0, 1, false, [R.PK_CNT_SUBST_COUNT]⟩,
  ⟨0x050064, 0, 1, false, [R.PK_CNT_PARTIAL_COUNT]⟩]
/-- Registers of block PK, part 1. -/
def regTabPK1 : List Reg := [
  ⟨0x050100, 4, 32, false, [R.PK_TILE_STS_PRESENT, R.PK_TILE_STS_BUSY, R.PK_TILE_STS_OPCODE]⟩,
  ⟨0x051000, 4, 1024, false, [R.PK_SLICE_CONT_EVICTED, R.PK_SLICE_CONT_OUTSTANDING]⟩]
/-- All registers of block PK. -/
def regTabPK : List Reg := regTabPK0 ++ regTabPK1

/-! ## LU -/

/-- LU_CTL (0x60000), R180. Fields from the most significant bit down. -/
def R.LU_CTL_LOCK : Field := ⟨0x060000, 0, 1, 0, 1, .w1s, 0⟩
/-- LU_STS (0x60004), R180. Fields from the most significant bit down. -/
def R.LU_STS_PRESENT : Field := ⟨0x060004, 0, 1, 16, 5, .ro, 0⟩ -- reset: Per GLB_CAP
/-- LU_STS.LOCKED (R180). -/
def R.LU_STS_LOCKED : Field := ⟨0x060004, 0, 1, 1, 1, .ro, 0⟩
/-- LU_STS.KAT_DONE (R180). -/
def R.LU_STS_KAT_DONE : Field := ⟨0x060004, 0, 1, 0, 1, .ro, 0⟩
/-- LU_ROUTINE_IDX (0x60008), R180. Fields from the most significant bit down. -/
def R.LU_ROUTINE_IDX_WORD : Field := ⟨0x060008, 0, 1, 0, 15, .rw, 0⟩
/-- LU_ROUTINE_DATA (0x60010, 64-bit), R180. Fields from the most significant bit down. -/
def R.LU_ROUTINE_DATA_DATA : Field := ⟨0x060010, 0, 1, 0, 64, .wo, 0⟩
/-- LU_ROUTINE_VER (0x60018), R180. Fields from the most significant bit down. -/
def R.LU_ROUTINE_VER_MAJOR : Field := ⟨0x060018, 0, 1, 16, 16, .ro, 0⟩
/-- LU_ROUTINE_VER.MINOR (R180). -/
def R.LU_ROUTINE_VER_MINOR : Field := ⟨0x060018, 0, 1, 0, 16, .ro, 0⟩
/-- LU_ROUTINE_DIGEST (0x60020, array of 6, 64-bit), R180. Fields from the most significant bit down. -/
def R.LU_ROUTINE_DIGEST_DIGEST : Field := ⟨0x060020, 8, 6, 0, 64, .ro, 0⟩
/-- LU_KAT_STS (0x60050), R180. Fields from the most significant bit down. -/
def R.LU_KAT_STS_FAIL : Field := ⟨0x060050, 0, 1, 0, 16, .ro, 0⟩
/-- LU_ERR_STS (0x60054), R180. Fields from the most significant bit down. -/
def R.LU_ERR_STS_ROUTINE_LOST : Field := ⟨0x060054, 0, 1, 3, 1, .w1c, 0⟩
/-- LU_ERR_STS.ROUTINE_FIX (R180). -/
def R.LU_ERR_STS_ROUTINE_FIX : Field := ⟨0x060054, 0, 1, 2, 1, .w1c, 0⟩
/-- LU_ERR_STS.SLOT_ERR (R180). -/
def R.LU_ERR_STS_SLOT_ERR : Field := ⟨0x060054, 0, 1, 1, 1, .w1c, 0⟩
/-- LU_ERR_STS.COMPARE (R180). -/
def R.LU_ERR_STS_COMPARE : Field := ⟨0x060054, 0, 1, 0, 1, .w1c, 0⟩
/-- LU_ERR_INFO (0x60058), R180. Fields from the most significant bit down. -/
def R.LU_ERR_INFO_OPCODE : Field := ⟨0x060058, 0, 1, 16, 16, .ro, 0⟩
/-- LU_ERR_INFO.CAUSE (R180). -/
def R.LU_ERR_INFO_CAUSE : Field := ⟨0x060058, 0, 1, 8, 2, .ro, 0⟩
/-- LU_ERR_INFO.UNIT (R180). -/
def R.LU_ERR_INFO_UNIT : Field := ⟨0x060058, 0, 1, 0, 4, .ro, 0⟩
/-- LU_CNT_COMPARE (0x6005c), R180. Fields from the most significant bit down. -/
def R.LU_CNT_COMPARE_COUNT : Field := ⟨0x06005c, 0, 1, 0, 32, .ro, 0⟩
/-- LU_CNT_RETRY (0x60060), R180. Fields from the most significant bit down. -/
def R.LU_CNT_RETRY_COUNT : Field := ⟨0x060060, 0, 1, 0, 32, .ro, 0⟩
/-- LU_CNT_ITER (0x60068, 64-bit), R180. Fields from the most significant bit down. -/
def R.LU_CNT_ITER_COUNT : Field := ⟨0x060068, 0, 1, 0, 64, .ro, 0⟩
/-- LU_CNT_SIGN (0x60070, 64-bit), R180. Fields from the most significant bit down. -/
def R.LU_CNT_SIGN_COUNT : Field := ⟨0x060070, 0, 1, 0, 64, .ro, 0⟩
/-- LU_UNIT_STS (0x60100, array of 16), R180. Fields from the most significant bit down. -/
def R.LU_UNIT_STS_PRESENT : Field := ⟨0x060100, 4, 16, 31, 1, .ro, 0⟩ -- reset: Per GLB_CAP
/-- LU_UNIT_STS.BUSY (R180). -/
def R.LU_UNIT_STS_BUSY : Field := ⟨0x060100, 4, 16, 30, 1, .ro, 0⟩
/-- LU_UNIT_STS.OPCODE (R180). -/
def R.LU_UNIT_STS_OPCODE : Field := ⟨0x060100, 4, 16, 0, 16, .ro, 0⟩
/-- Registers of block LU, part 0. -/
def regTabLU0 : List Reg := [
  ⟨0x060000, 0, 1, false, [R.LU_CTL_LOCK]⟩,
  ⟨0x060004, 0, 1, false, [R.LU_STS_PRESENT, R.LU_STS_LOCKED, R.LU_STS_KAT_DONE]⟩,
  ⟨0x060008, 0, 1, false, [R.LU_ROUTINE_IDX_WORD]⟩,
  ⟨0x060010, 0, 1, true, [R.LU_ROUTINE_DATA_DATA]⟩,
  ⟨0x060018, 0, 1, false, [R.LU_ROUTINE_VER_MAJOR, R.LU_ROUTINE_VER_MINOR]⟩,
  ⟨0x060020, 8, 6, true, [R.LU_ROUTINE_DIGEST_DIGEST]⟩,
  ⟨0x060050, 0, 1, false, [R.LU_KAT_STS_FAIL]⟩,
  ⟨0x060054, 0, 1, false, [R.LU_ERR_STS_ROUTINE_LOST, R.LU_ERR_STS_ROUTINE_FIX, R.LU_ERR_STS_SLOT_ERR, R.LU_ERR_STS_COMPARE]⟩,
  ⟨0x060058, 0, 1, false, [R.LU_ERR_INFO_OPCODE, R.LU_ERR_INFO_CAUSE, R.LU_ERR_INFO_UNIT]⟩,
  ⟨0x06005c, 0, 1, false, [R.LU_CNT_COMPARE_COUNT]⟩,
  ⟨0x060060, 0, 1, false, [R.LU_CNT_RETRY_COUNT]⟩,
  ⟨0x060068, 0, 1, true, [R.LU_CNT_ITER_COUNT]⟩]
/-- Registers of block LU, part 1. -/
def regTabLU1 : List Reg := [
  ⟨0x060070, 0, 1, true, [R.LU_CNT_SIGN_COUNT]⟩,
  ⟨0x060100, 4, 16, false, [R.LU_UNIT_STS_PRESENT, R.LU_UNIT_STS_BUSY, R.LU_UNIT_STS_OPCODE]⟩]
/-- All registers of block LU. -/
def regTabLU : List Reg := regTabLU0 ++ regTabLU1

/-! ## HL -/

/-- HL_STS (0x70000), R148. Fields from the most significant bit down. -/
def R.HL_STS_PRESENT : Field := ⟨0x070000, 0, 1, 16, 6, .ro, 0⟩ -- reset: Per GLB_CAP
/-- HL_STS.KAT_DONE (R148). -/
def R.HL_STS_KAT_DONE : Field := ⟨0x070000, 0, 1, 0, 1, .ro, 0⟩
/-- HL_KAT_STS (0x70004), R148. Fields from the most significant bit down. -/
def R.HL_KAT_STS_FAIL : Field := ⟨0x070004, 0, 1, 0, 32, .ro, 0⟩
/-- HL_ERR_STS (0x70008), R148. Fields from the most significant bit down. -/
def R.HL_ERR_STS_STAGE_ERR : Field := ⟨0x070008, 0, 1, 0, 1, .w1c, 0⟩
/-- HL_ERR_INFO (0x7000c), R148. Fields from the most significant bit down. -/
def R.HL_ERR_INFO_OPCODE : Field := ⟨0x07000c, 0, 1, 16, 16, .ro, 0⟩
/-- HL_ERR_INFO.LANE (R148). -/
def R.HL_ERR_INFO_LANE : Field := ⟨0x07000c, 0, 1, 0, 5, .ro, 0⟩
/-- HL_CNT_BLOCKS (0x70010, 64-bit), R148. Fields from the most significant bit down. -/
def R.HL_CNT_BLOCKS_COUNT : Field := ⟨0x070010, 0, 1, 0, 64, .ro, 0⟩
/-- HL_LANE_STS (0x70100, array of 32), R148. Fields from the most significant bit down. -/
def R.HL_LANE_STS_PRESENT : Field := ⟨0x070100, 4, 32, 31, 1, .ro, 0⟩ -- reset: Per GLB_CAP
/-- HL_LANE_STS.BUSY (R148). -/
def R.HL_LANE_STS_BUSY : Field := ⟨0x070100, 4, 32, 30, 1, .ro, 0⟩
/-- HL_LANE_STS.ALG (R148). -/
def R.HL_LANE_STS_ALG : Field := ⟨0x070100, 4, 32, 16, 8, .ro, 0⟩
/-- HL_LANE_STS.OPCODE (R148). -/
def R.HL_LANE_STS_OPCODE : Field := ⟨0x070100, 4, 32, 0, 16, .ro, 0⟩
/-- Registers of block HL, part 0. -/
def regTabHL0 : List Reg := [
  ⟨0x070000, 0, 1, false, [R.HL_STS_PRESENT, R.HL_STS_KAT_DONE]⟩,
  ⟨0x070004, 0, 1, false, [R.HL_KAT_STS_FAIL]⟩,
  ⟨0x070008, 0, 1, false, [R.HL_ERR_STS_STAGE_ERR]⟩,
  ⟨0x07000c, 0, 1, false, [R.HL_ERR_INFO_OPCODE, R.HL_ERR_INFO_LANE]⟩,
  ⟨0x070010, 0, 1, true, [R.HL_CNT_BLOCKS_COUNT]⟩,
  ⟨0x070100, 4, 32, false, [R.HL_LANE_STS_PRESENT, R.HL_LANE_STS_BUSY, R.HL_LANE_STS_ALG, R.HL_LANE_STS_OPCODE]⟩]
/-- All registers of block HL. -/
def regTabHL : List Reg := regTabHL0

/-! ## KS -/

/-- KS_CTL (0x80000), R214. Fields from the most significant bit down. -/
def R.KS_CTL_T2_EN : Field := ⟨0x080000, 0, 1, 0, 1, .st, 0⟩
/-- KS_STS (0x80004), R214. Fields from the most significant bit down. -/
def R.KS_STS_CT_RO : Field := ⟨0x080004, 0, 1, 4, 1, .ro, 0⟩
/-- KS_STS.ID_PRESENT (R214). -/
def R.KS_STS_ID_PRESENT : Field := ⟨0x080004, 0, 1, 3, 1, .ro, 0⟩
/-- KS_STS.DEBUG_SUSP (R214). -/
def R.KS_STS_DEBUG_SUSP : Field := ⟨0x080004, 0, 1, 2, 1, .ro, 0⟩
/-- KS_STS.READY (R214). -/
def R.KS_STS_READY : Field := ⟨0x080004, 0, 1, 1, 1, .ro, 0⟩
/-- KS_STS.DATUM (R214). -/
def R.KS_STS_DATUM : Field := ⟨0x080004, 0, 1, 0, 1, .ro, 0⟩
/-- KS_DATUM_CMD (0x80008), R214. Fields from the most significant bit down. -/
def R.KS_DATUM_CMD_OP : Field := ⟨0x080008, 0, 1, 28, 4, .wo, 0⟩
/-- KS_DOMAIN_CMD (0x8000c), R214. Fields from the most significant bit down. -/
def R.KS_DOMAIN_CMD_OP : Field := ⟨0x08000c, 0, 1, 28, 4, .wo, 0⟩
/-- KS_DOMAIN_CMD.SLICE (R214). -/
def R.KS_DOMAIN_CMD_SLICE : Field := ⟨0x08000c, 0, 1, 0, 10, .wo, 0⟩
/-- KS_CMD_STS (0x80010), R214. Fields from the most significant bit down. -/
def R.KS_CMD_STS_BUSY : Field := ⟨0x080010, 0, 1, 31, 1, .ro, 0⟩
/-- KS_CMD_STS.ERR (R214). -/
def R.KS_CMD_STS_ERR : Field := ⟨0x080010, 0, 1, 0, 8, .ro, 0⟩
/-- KS_ID_CMD (0x80014), R214. Fields from the most significant bit down. -/
def R.KS_ID_CMD_OP : Field := ⟨0x080014, 0, 1, 28, 4, .wo, 0⟩
/-- KS_T2_CFG (0x80018, 64-bit), R214. Fields from the most significant bit down. -/
def R.KS_T2_CFG_BASE : Field := ⟨0x080018, 0, 1, 28, 36, .st, 0⟩
/-- KS_T2_CFG.SIZE (R214). -/
def R.KS_T2_CFG_SIZE : Field := ⟨0x080018, 0, 1, 0, 6, .st, 0⟩
/-- KS_ERR_STS (0x80020), R214. Fields from the most significant bit down. -/
def R.KS_ERR_STS_T2_ERR : Field := ⟨0x080020, 0, 1, 5, 1, .w1c, 0⟩
/-- KS_ERR_STS.REVOKE_FULL (R214). -/
def R.KS_ERR_STS_REVOKE_FULL : Field := ⟨0x080020, 0, 1, 4, 1, .w1c, 0⟩
/-- KS_ERR_STS.NODE_FIX (R214). -/
def R.KS_ERR_STS_NODE_FIX : Field := ⟨0x080020, 0, 1, 3, 1, .w1c, 0⟩
/-- KS_ERR_STS.LEAF_LOST (R214). -/
def R.KS_ERR_STS_LEAF_LOST : Field := ⟨0x080020, 0, 1, 2, 1, .w1c, 0⟩
/-- KS_ERR_STS.LEAF_FIX (R214). -/
def R.KS_ERR_STS_LEAF_FIX : Field := ⟨0x080020, 0, 1, 1, 1, .w1c, 0⟩
/-- KS_ERR_STS.SLOT_ERR (R214). -/
def R.KS_ERR_STS_SLOT_ERR : Field := ⟨0x080020, 0, 1, 0, 1, .w1c, 0⟩
/-- KS_ERR_INFO (0x80024), R214. Fields from the most significant bit down. -/
def R.KS_ERR_INFO_CAUSE : Field := ⟨0x080024, 0, 1, 29, 3, .ro, 0⟩
/-- KS_ERR_INFO.SLICE (R214). -/
def R.KS_ERR_INFO_SLICE : Field := ⟨0x080024, 0, 1, 16, 10, .ro, 0⟩
/-- KS_ERR_INFO.LEAF (R214). -/
def R.KS_ERR_INFO_LEAF : Field := ⟨0x080024, 0, 1, 0, 15, .ro, 0⟩
/-- KS_IRQ_EN (0x80028), R214. Fields from the most significant bit down. -/
def R.KS_IRQ_EN_EN : Field := ⟨0x080028, 0, 1, 0, 6, .rw, 0⟩
/-- KS_CTR_STS (0x8002c), R214. Fields from the most significant bit down. -/
def R.KS_CTR_STS_LEAVES_USED : Field := ⟨0x08002c, 0, 1, 16, 16, .ro, 0⟩
/-- KS_CTR_STS.REVOKED (R214). -/
def R.KS_CTR_STS_REVOKED : Field := ⟨0x08002c, 0, 1, 0, 16, .ro, 0⟩
/-- KS_CNT_HIT (0x80040, 64-bit), R214. Fields from the most significant bit down. -/
def R.KS_CNT_HIT_COUNT : Field := ⟨0x080040, 0, 1, 0, 64, .ro, 0⟩
/-- KS_CNT_T2 (0x80048, 64-bit), R214. Fields from the most significant bit down. -/
def R.KS_CNT_T2_COUNT : Field := ⟨0x080048, 0, 1, 0, 64, .ro, 0⟩
/-- KS_CNT_HOST (0x80050, 64-bit), R214. Fields from the most significant bit down. -/
def R.KS_CNT_HOST_COUNT : Field := ⟨0x080050, 0, 1, 0, 64, .ro, 0⟩
/-- KS_CNT_EVICT (0x80058, 64-bit), R214. Fields from the most significant bit down. -/
def R.KS_CNT_EVICT_DISCARD : Field := ⟨0x080058, 0, 1, 32, 32, .ro, 0⟩
/-- KS_CNT_EVICT.SEALED (R214). -/
def R.KS_CNT_EVICT_SEALED : Field := ⟨0x080058, 0, 1, 0, 32, .ro, 0⟩
/-- KS_ID_SEL (0x80080), R214. Fields from the most significant bit down. -/
def R.KS_ID_SEL_ITEM : Field := ⟨0x080080, 0, 1, 28, 4, .rw, 0⟩
/-- KS_ID_SEL.WORD (R214). -/
def R.KS_ID_SEL_WORD : Field := ⟨0x080080, 0, 1, 0, 16, .rw, 0⟩
/-- KS_ID_DATA (0x80088, 64-bit), R214. Fields from the most significant bit down. -/
def R.KS_ID_DATA_DATA : Field := ⟨0x080088, 0, 1, 0, 64, .ro, 0⟩
/-- KS_SLICE_TAB (0x81000, array of 1024, 64-bit), R214. Fields from the most significant bit down. -/
def R.KS_SLICE_TAB_BASE : Field := ⟨0x081000, 8, 1024, 12, 52, .st, 0⟩
/-- KS_SLICE_TAB.SIZE (R214). -/
def R.KS_SLICE_TAB_SIZE : Field := ⟨0x081000, 8, 1024, 0, 5, .st, 0⟩
/-- KS_SLICE_ETAB (0x83000, array of 1024, 64-bit), R214. Fields from the most significant bit down. -/
def R.KS_SLICE_ETAB_BASE : Field := ⟨0x083000, 8, 1024, 12, 52, .st, 0⟩
/-- KS_SLICE_ETAB.ESIZE (R214). -/
def R.KS_SLICE_ETAB_ESIZE : Field := ⟨0x083000, 8, 1024, 0, 5, .st, 0⟩
/-- KS_SLICE_DOM (0x85000, array of 1024, 64-bit), R214. Fields from the most significant bit down. -/
def R.KS_SLICE_DOM_PRESENT : Field := ⟨0x085000, 8, 1024, 63, 1, .ro, 0⟩
/-- KS_SLICE_DOM.WINDOW (R214). -/
def R.KS_SLICE_DOM_WINDOW : Field := ⟨0x085000, 8, 1024, 48, 2, .ro, 0⟩
/-- KS_SLICE_DOM.EPOCH (R214). -/
def R.KS_SLICE_DOM_EPOCH : Field := ⟨0x085000, 8, 1024, 0, 48, .ro, 0⟩
/-- KS_SLICE_LEAF (0x87000, array of 1024), R214. Fields from the most significant bit down. -/
def R.KS_SLICE_LEAF_CAP : Field := ⟨0x087000, 4, 1024, 0, 15, .st, 31744⟩
/-- Registers of block KS, part 0. -/
def regTabKS0 : List Reg := [
  ⟨0x080000, 0, 1, false, [R.KS_CTL_T2_EN]⟩,
  ⟨0x080004, 0, 1, false, [R.KS_STS_CT_RO, R.KS_STS_ID_PRESENT, R.KS_STS_DEBUG_SUSP, R.KS_STS_READY, R.KS_STS_DATUM]⟩,
  ⟨0x080008, 0, 1, false, [R.KS_DATUM_CMD_OP]⟩,
  ⟨0x08000c, 0, 1, false, [R.KS_DOMAIN_CMD_OP, R.KS_DOMAIN_CMD_SLICE]⟩,
  ⟨0x080010, 0, 1, false, [R.KS_CMD_STS_BUSY, R.KS_CMD_STS_ERR]⟩,
  ⟨0x080014, 0, 1, false, [R.KS_ID_CMD_OP]⟩,
  ⟨0x080018, 0, 1, true, [R.KS_T2_CFG_BASE, R.KS_T2_CFG_SIZE]⟩,
  ⟨0x080020, 0, 1, false, [R.KS_ERR_STS_T2_ERR, R.KS_ERR_STS_REVOKE_FULL, R.KS_ERR_STS_NODE_FIX, R.KS_ERR_STS_LEAF_LOST, R.KS_ERR_STS_LEAF_FIX, R.KS_ERR_STS_SLOT_ERR]⟩,
  ⟨0x080024, 0, 1, false, [R.KS_ERR_INFO_CAUSE, R.KS_ERR_INFO_SLICE, R.KS_ERR_INFO_LEAF]⟩,
  ⟨0x080028, 0, 1, false, [R.KS_IRQ_EN_EN]⟩,
  ⟨0x08002c, 0, 1, false, [R.KS_CTR_STS_LEAVES_USED, R.KS_CTR_STS_REVOKED]⟩,
  ⟨0x080040, 0, 1, true, [R.KS_CNT_HIT_COUNT]⟩]
/-- Registers of block KS, part 1. -/
def regTabKS1 : List Reg := [
  ⟨0x080048, 0, 1, true, [R.KS_CNT_T2_COUNT]⟩,
  ⟨0x080050, 0, 1, true, [R.KS_CNT_HOST_COUNT]⟩,
  ⟨0x080058, 0, 1, true, [R.KS_CNT_EVICT_DISCARD, R.KS_CNT_EVICT_SEALED]⟩,
  ⟨0x080080, 0, 1, false, [R.KS_ID_SEL_ITEM, R.KS_ID_SEL_WORD]⟩,
  ⟨0x080088, 0, 1, true, [R.KS_ID_DATA_DATA]⟩,
  ⟨0x081000, 8, 1024, true, [R.KS_SLICE_TAB_BASE, R.KS_SLICE_TAB_SIZE]⟩,
  ⟨0x083000, 8, 1024, true, [R.KS_SLICE_ETAB_BASE, R.KS_SLICE_ETAB_ESIZE]⟩,
  ⟨0x085000, 8, 1024, true, [R.KS_SLICE_DOM_PRESENT, R.KS_SLICE_DOM_WINDOW, R.KS_SLICE_DOM_EPOCH]⟩,
  ⟨0x087000, 4, 1024, false, [R.KS_SLICE_LEAF_CAP]⟩]
/-- All registers of block KS. -/
def regTabKS : List Reg := regTabKS0 ++ regTabKS1

/-! ## RNG -/

/-- RNG_CTL (0x90000), R227. Fields from the most significant bit down. -/
def R.RNG_CTL_CELL_EN : Field := ⟨0x090000, 0, 1, 0, 8, .st, 255⟩
/-- RNG_STS (0x90004), R227. Fields from the most significant bit down. -/
def R.RNG_STS_FAIL_WIN : Field := ⟨0x090004, 0, 1, 16, 4, .ro, 0⟩
/-- RNG_STS.IN_USE (R227). -/
def R.RNG_STS_IN_USE : Field := ⟨0x090004, 0, 1, 8, 8, .ro, 0⟩
/-- RNG_STS.EXP_RUN (R227). -/
def R.RNG_STS_EXP_RUN : Field := ⟨0x090004, 0, 1, 4, 4, .ro, 0⟩
/-- RNG_STS.KAT_DONE (R227). -/
def R.RNG_STS_KAT_DONE : Field := ⟨0x090004, 0, 1, 3, 1, .ro, 0⟩
/-- RNG_STS.STATE (R227). -/
def R.RNG_STS_STATE : Field := ⟨0x090004, 0, 1, 0, 3, .ro, 1⟩
/-- RNG_ERR_STS (0x90008), R227. Fields from the most significant bit down. -/
def R.RNG_ERR_STS_KAT : Field := ⟨0x090008, 0, 1, 7, 1, .w1c, 0⟩
/-- RNG_ERR_STS.FATAL (R227). -/
def R.RNG_ERR_STS_FATAL : Field := ⟨0x090008, 0, 1, 6, 1, .w1c, 0⟩
/-- RNG_ERR_STS.HOLD (R227). -/
def R.RNG_ERR_STS_HOLD : Field := ⟨0x090008, 0, 1, 5, 1, .w1c, 0⟩
/-- RNG_ERR_STS.REPEAT (R227). -/
def R.RNG_ERR_STS_REPEAT : Field := ⟨0x090008, 0, 1, 4, 1, .w1c, 0⟩
/-- RNG_ERR_STS.LOCK (R227). -/
def R.RNG_ERR_STS_LOCK : Field := ⟨0x090008, 0, 1, 3, 1, .w1c, 0⟩
/-- RNG_ERR_STS.LIVE (R227). -/
def R.RNG_ERR_STS_LIVE : Field := ⟨0x090008, 0, 1, 2, 1, .w1c, 0⟩
/-- RNG_ERR_STS.APT (R227). -/
def R.RNG_ERR_STS_APT : Field := ⟨0x090008, 0, 1, 1, 1, .w1c, 0⟩
/-- RNG_ERR_STS.RCT (R227). -/
def R.RNG_ERR_STS_RCT : Field := ⟨0x090008, 0, 1, 0, 1, .w1c, 0⟩
/-- RNG_ERR_INFO (0x9000c), R227. Fields from the most significant bit down. -/
def R.RNG_ERR_INFO_CAUSE : Field := ⟨0x09000c, 0, 1, 16, 8, .ro, 0⟩
/-- RNG_ERR_INFO.EXP (R227). -/
def R.RNG_ERR_INFO_EXP : Field := ⟨0x09000c, 0, 1, 3, 1, .ro, 0⟩
/-- RNG_ERR_INFO.UNIT (R227). -/
def R.RNG_ERR_INFO_UNIT : Field := ⟨0x09000c, 0, 1, 0, 3, .ro, 0⟩
/-- RNG_IRQ_EN (0x90010), R227. Fields from the most significant bit down. -/
def R.RNG_IRQ_EN_EN : Field := ⟨0x090010, 0, 1, 0, 8, .rw, 0⟩
/-- RNG_RES_STS (0x90014), R227. Fields from the most significant bit down. -/
def R.RNG_RES_STS_FILL : Field := ⟨0x090014, 0, 1, 0, 19, .ro, 0⟩
/-- RNG_POOL_STS (0x90018), R227. Fields from the most significant bit down. -/
def R.RNG_POOL_STS_WAITING : Field := ⟨0x090018, 0, 1, 16, 16, .ro, 0⟩
/-- RNG_POOL_STS.LEVEL (R227). -/
def R.RNG_POOL_STS_LEVEL : Field := ⟨0x090018, 0, 1, 0, 16, .ro, 0⟩
/-- RNG_KAT_STS (0x9001c), R227. Fields from the most significant bit down. -/
def R.RNG_KAT_STS_EXP : Field := ⟨0x09001c, 0, 1, 1, 4, .ro, 0⟩
/-- RNG_KAT_STS.COND (R227). -/
def R.RNG_KAT_STS_COND : Field := ⟨0x09001c, 0, 1, 0, 1, .ro, 0⟩
/-- RNG_CNT_FAIL (0x90020), R227. Fields from the most significant bit down. -/
def R.RNG_CNT_FAIL_COUNT : Field := ⟨0x090020, 0, 1, 0, 32, .ro, 0⟩
/-- RNG_CNT_RESEED (0x90028, 64-bit), R227. Fields from the most significant bit down. -/
def R.RNG_CNT_RESEED_COUNT : Field := ⟨0x090028, 0, 1, 0, 64, .ro, 0⟩
/-- RNG_CNT_OUT (0x90030, 64-bit), R227. Fields from the most significant bit down. -/
def R.RNG_CNT_OUT_COUNT : Field := ⟨0x090030, 0, 1, 0, 64, .ro, 0⟩
/-- RNG_RAW_CTL (0x90040), R227. Fields from the most significant bit down. -/
def R.RNG_RAW_CTL_RESTART_LEN : Field := ⟨0x090040, 0, 1, 16, 16, .rw, 0⟩
/-- RNG_RAW_CTL.RESTART (R227). -/
def R.RNG_RAW_CTL_RESTART : Field := ⟨0x090040, 0, 1, 4, 1, .rw, 0⟩
/-- RNG_RAW_CTL.CELL (R227). -/
def R.RNG_RAW_CTL_CELL : Field := ⟨0x090040, 0, 1, 1, 3, .rw, 0⟩
/-- RNG_RAW_CTL.EN (R227). -/
def R.RNG_RAW_CTL_EN : Field := ⟨0x090040, 0, 1, 0, 1, .rw, 0⟩
/-- RNG_RAW_STS (0x90044), R227. Fields from the most significant bit down. -/
def R.RNG_RAW_STS_ERR : Field := ⟨0x090044, 0, 1, 2, 1, .ro, 0⟩
/-- RNG_RAW_STS.DONE (R227). -/
def R.RNG_RAW_STS_DONE : Field := ⟨0x090044, 0, 1, 1, 1, .ro, 0⟩
/-- RNG_RAW_STS.ACTIVE (R227). -/
def R.RNG_RAW_STS_ACTIVE : Field := ⟨0x090044, 0, 1, 0, 1, .ro, 0⟩
/-- RNG_RAW_ADDR (0x90048, 64-bit), R227. Fields from the most significant bit down. -/
def R.RNG_RAW_ADDR_ADDR : Field := ⟨0x090048, 0, 1, 12, 52, .rw, 0⟩
/-- RNG_RAW_LEN (0x90050), R227. Fields from the most significant bit down. -/
def R.RNG_RAW_LEN_BYTES : Field := ⟨0x090050, 0, 1, 0, 27, .rw, 0⟩
/-- RNG_CELL_STS (0x90100, array of 8), R227. Fields from the most significant bit down. -/
def R.RNG_CELL_STS_CSTATE : Field := ⟨0x090100, 4, 8, 30, 2, .ro, 0⟩
/-- RNG_CELL_STS.COUNT_A (R227). -/
def R.RNG_CELL_STS_COUNT_A : Field := ⟨0x090100, 4, 8, 16, 13, .ro, 0⟩
/-- RNG_CELL_STS.COUNT_B (R227). -/
def R.RNG_CELL_STS_COUNT_B : Field := ⟨0x090100, 4, 8, 0, 13, .ro, 0⟩
/-- RNG_CELL_FAIL (0x90120, array of 8), R227. Fields from the most significant bit down. -/
def R.RNG_CELL_FAIL_COUNT : Field := ⟨0x090120, 4, 8, 0, 32, .ro, 0⟩
/-- RNG_EXP_STS (0x90140, array of 4), R227. Fields from the most significant bit down. -/
def R.RNG_EXP_STS_RUN : Field := ⟨0x090140, 4, 4, 31, 1, .ro, 0⟩
/-- RNG_EXP_STS.AGE (R227). -/
def R.RNG_EXP_STS_AGE : Field := ⟨0x090140, 4, 4, 0, 5, .ro, 0⟩
/-- Registers of block RNG, part 0. -/
def regTabRNG0 : List Reg := [
  ⟨0x090000, 0, 1, false, [R.RNG_CTL_CELL_EN]⟩,
  ⟨0x090004, 0, 1, false, [R.RNG_STS_FAIL_WIN, R.RNG_STS_IN_USE, R.RNG_STS_EXP_RUN, R.RNG_STS_KAT_DONE, R.RNG_STS_STATE]⟩,
  ⟨0x090008, 0, 1, false, [R.RNG_ERR_STS_KAT, R.RNG_ERR_STS_FATAL, R.RNG_ERR_STS_HOLD, R.RNG_ERR_STS_REPEAT, R.RNG_ERR_STS_LOCK, R.RNG_ERR_STS_LIVE, R.RNG_ERR_STS_APT, R.RNG_ERR_STS_RCT]⟩,
  ⟨0x09000c, 0, 1, false, [R.RNG_ERR_INFO_CAUSE, R.RNG_ERR_INFO_EXP, R.RNG_ERR_INFO_UNIT]⟩,
  ⟨0x090010, 0, 1, false, [R.RNG_IRQ_EN_EN]⟩,
  ⟨0x090014, 0, 1, false, [R.RNG_RES_STS_FILL]⟩,
  ⟨0x090018, 0, 1, false, [R.RNG_POOL_STS_WAITING, R.RNG_POOL_STS_LEVEL]⟩,
  ⟨0x09001c, 0, 1, false, [R.RNG_KAT_STS_EXP, R.RNG_KAT_STS_COND]⟩,
  ⟨0x090020, 0, 1, false, [R.RNG_CNT_FAIL_COUNT]⟩,
  ⟨0x090028, 0, 1, true, [R.RNG_CNT_RESEED_COUNT]⟩,
  ⟨0x090030, 0, 1, true, [R.RNG_CNT_OUT_COUNT]⟩,
  ⟨0x090040, 0, 1, false, [R.RNG_RAW_CTL_RESTART_LEN, R.RNG_RAW_CTL_RESTART, R.RNG_RAW_CTL_CELL, R.RNG_RAW_CTL_EN]⟩]
/-- Registers of block RNG, part 1. -/
def regTabRNG1 : List Reg := [
  ⟨0x090044, 0, 1, false, [R.RNG_RAW_STS_ERR, R.RNG_RAW_STS_DONE, R.RNG_RAW_STS_ACTIVE]⟩,
  ⟨0x090048, 0, 1, true, [R.RNG_RAW_ADDR_ADDR]⟩,
  ⟨0x090050, 0, 1, false, [R.RNG_RAW_LEN_BYTES]⟩,
  ⟨0x090100, 4, 8, false, [R.RNG_CELL_STS_CSTATE, R.RNG_CELL_STS_COUNT_A, R.RNG_CELL_STS_COUNT_B]⟩,
  ⟨0x090120, 4, 8, false, [R.RNG_CELL_FAIL_COUNT]⟩,
  ⟨0x090140, 4, 4, false, [R.RNG_EXP_STS_RUN, R.RNG_EXP_STS_AGE]⟩]
/-- All registers of block RNG. -/
def regTabRNG : List Reg := regTabRNG0 ++ regTabRNG1

/-! ## LC -/

/-- LC_STATE (0xa0000), R257. Fields from the most significant bit down. -/
def R.LC_STATE_COPY_VALID : Field := ⟨0x0a0000, 0, 1, 16, 3, .ro, 0⟩ -- reset: Per R231
/-- LC_STATE.TARGET (R257). -/
def R.LC_STATE_TARGET : Field := ⟨0x0a0000, 0, 1, 8, 4, .ro, 15⟩
/-- LC_STATE.CODE (R257). -/
def R.LC_STATE_CODE : Field := ⟨0x0a0000, 0, 1, 0, 4, .ro, 0⟩ -- reset: Per R231
/-- LC_TOKEN (0xa0004), R257. Fields from the most significant bit down. -/
def R.LC_TOKEN_STATE : Field := ⟨0x0a0004, 0, 1, 28, 4, .ro, 0⟩ -- reset: Per R231
/-- LC_TOKEN.SEQ (R257). -/
def R.LC_TOKEN_SEQ : Field := ⟨0x0a0004, 0, 1, 0, 28, .ro, 0⟩
/-- LC_TRANSITION (0xa0008, 64-bit), R257. Fields from the most significant bit down. -/
def R.LC_TRANSITION_TOKEN : Field := ⟨0x0a0008, 0, 1, 32, 32, .wo, 0⟩
/-- LC_TRANSITION.TARGET (R257). -/
def R.LC_TRANSITION_TARGET : Field := ⟨0x0a0008, 0, 1, 0, 4, .wo, 0⟩
/-- LC_STS (0xa0010), R257. Fields from the most significant bit down. -/
def R.LC_STS_BUSY : Field := ⟨0x0a0010, 0, 1, 31, 1, .ro, 0⟩
/-- LC_STS.DRAIN (R257). -/
def R.LC_STS_DRAIN : Field := ⟨0x0a0010, 0, 1, 30, 1, .ro, 0⟩
/-- LC_STS.ZRCPT (R257). -/
def R.LC_STS_ZRCPT : Field := ⟨0x0a0010, 0, 1, 29, 1, .ro, 0⟩
/-- LC_STS.ERR (R257). -/
def R.LC_STS_ERR : Field := ⟨0x0a0010, 0, 1, 0, 8, .ro, 0⟩
/-- LC_ZEROIZE (0xa0014), R257. Fields from the most significant bit down. -/
def R.LC_ZEROIZE_OP : Field := ⟨0x0a0014, 0, 1, 28, 4, .wo, 0⟩
/-- LC_EVT_STS (0xa0018), R257. Fields from the most significant bit down. -/
def R.LC_EVT_STS_OTP_FAIL : Field := ⟨0x0a0018, 0, 1, 5, 1, .w1c, 0⟩
/-- LC_EVT_STS.OTP_DONE (R257). -/
def R.LC_EVT_STS_OTP_DONE : Field := ⟨0x0a0018, 0, 1, 4, 1, .w1c, 0⟩
/-- LC_EVT_STS.DBG_OPEN (R257). -/
def R.LC_EVT_STS_DBG_OPEN : Field := ⟨0x0a0018, 0, 1, 3, 1, .w1c, 0⟩
/-- LC_EVT_STS.ZEROIZED (R257). -/
def R.LC_EVT_STS_ZEROIZED : Field := ⟨0x0a0018, 0, 1, 2, 1, .w1c, 0⟩
/-- LC_EVT_STS.SESSION (R257). -/
def R.LC_EVT_STS_SESSION : Field := ⟨0x0a0018, 0, 1, 1, 1, .w1c, 0⟩
/-- LC_EVT_STS.VERIFY (R257). -/
def R.LC_EVT_STS_VERIFY : Field := ⟨0x0a0018, 0, 1, 0, 1, .w1c, 0⟩
/-- LC_IRQ_EN (0xa001c), R257. Fields from the most significant bit down. -/
def R.LC_IRQ_EN_EN : Field := ⟨0x0a001c, 0, 1, 0, 6, .rw, 0⟩
/-- LC_DBG_CMD (0xa0020), R257. Fields from the most significant bit down. -/
def R.LC_DBG_CMD_OP : Field := ⟨0x0a0020, 0, 1, 28, 4, .wo, 0⟩
/-- LC_DBG_CMD.SCOPES (R257). -/
def R.LC_DBG_CMD_SCOPES : Field := ⟨0x0a0020, 0, 1, 0, 4, .wo, 0⟩
/-- LC_DBG_STS (0xa0024), R257. Fields from the most significant bit down. -/
def R.LC_DBG_STS_BUSY : Field := ⟨0x0a0024, 0, 1, 31, 1, .ro, 0⟩
/-- LC_DBG_STS.OPEN (R257). -/
def R.LC_DBG_STS_OPEN : Field := ⟨0x0a0024, 0, 1, 8, 4, .ro, 0⟩
/-- LC_DBG_STS.ERR (R257). -/
def R.LC_DBG_STS_ERR : Field := ⟨0x0a0024, 0, 1, 0, 8, .ro, 0⟩
/-- LC_DBG_POLICY (0xa0028), R257. Fields from the most significant bit down. -/
def R.LC_DBG_POLICY_ALLOW : Field := ⟨0x0a0028, 0, 1, 0, 3, .st, 0⟩
/-- LC_DBG_RESP_ADDR (0xa0030, 64-bit), R257. Fields from the most significant bit down. -/
def R.LC_DBG_RESP_ADDR_ADDR : Field := ⟨0x0a0030, 0, 1, 5, 59, .rw, 0⟩
/-- LC_OTP_CMD (0xa0040), R257. Fields from the most significant bit down. -/
def R.LC_OTP_CMD_OP : Field := ⟨0x0a0040, 0, 1, 28, 4, .wo, 0⟩
/-- LC_OTP_CMD.FIELD (R257). -/
def R.LC_OTP_CMD_FIELD : Field := ⟨0x0a0040, 0, 1, 0, 8, .wo, 0⟩
/-- LC_OTP_STS (0xa0044), R257. Fields from the most significant bit down. -/
def R.LC_OTP_STS_BUSY : Field := ⟨0x0a0044, 0, 1, 31, 1, .ro, 0⟩
/-- LC_OTP_STS.ANY_DAMAGED (R257). -/
def R.LC_OTP_STS_ANY_DAMAGED : Field := ⟨0x0a0044, 0, 1, 8, 1, .ro, 0⟩ -- reset: Per R255
/-- LC_OTP_STS.ERR (R257). -/
def R.LC_OTP_STS_ERR : Field := ⟨0x0a0044, 0, 1, 0, 8, .ro, 0⟩
/-- LC_OTP_DAMAGED (0xa0048), R257. Fields from the most significant bit down. -/
def R.LC_OTP_DAMAGED_TABLES : Field := ⟨0x0a0048, 0, 1, 16, 16, .ro, 0⟩ -- reset: Per R255
/-- LC_OTP_DAMAGED.FIELDS (R257). -/
def R.LC_OTP_DAMAGED_FIELDS : Field := ⟨0x0a0048, 0, 1, 0, 6, .ro, 0⟩ -- reset: Per R255
/-- LC_DBG_CHAL (0xa0100, array of 12, 64-bit), R257. Fields from the most significant bit down. -/
def R.LC_DBG_CHAL_DATA : Field := ⟨0x0a0100, 8, 12, 0, 64, .ro, 0⟩
/-- LC_OTP_BUF (0xa0180, array of 6, 64-bit), R257. Fields from the most significant bit down. -/
def R.LC_OTP_BUF_DATA : Field := ⟨0x0a0180, 8, 6, 0, 64, .rw, 0⟩
/-- LC_CAP_FUSE (0xa01c0, array of 4, 64-bit), R257. Fields from the most significant bit down. -/
def R.LC_CAP_FUSE_BITS : Field := ⟨0x0a01c0, 8, 4, 0, 64, .ro, 0⟩ -- reset: Per OTP
/-- Registers of block LC, part 0. -/
def regTabLC0 : List Reg := [
  ⟨0x0a0000, 0, 1, false, [R.LC_STATE_COPY_VALID, R.LC_STATE_TARGET, R.LC_STATE_CODE]⟩,
  ⟨0x0a0004, 0, 1, false, [R.LC_TOKEN_STATE, R.LC_TOKEN_SEQ]⟩,
  ⟨0x0a0008, 0, 1, true, [R.LC_TRANSITION_TOKEN, R.LC_TRANSITION_TARGET]⟩,
  ⟨0x0a0010, 0, 1, false, [R.LC_STS_BUSY, R.LC_STS_DRAIN, R.LC_STS_ZRCPT, R.LC_STS_ERR]⟩,
  ⟨0x0a0014, 0, 1, false, [R.LC_ZEROIZE_OP]⟩,
  ⟨0x0a0018, 0, 1, false, [R.LC_EVT_STS_OTP_FAIL, R.LC_EVT_STS_OTP_DONE, R.LC_EVT_STS_DBG_OPEN, R.LC_EVT_STS_ZEROIZED, R.LC_EVT_STS_SESSION, R.LC_EVT_STS_VERIFY]⟩,
  ⟨0x0a001c, 0, 1, false, [R.LC_IRQ_EN_EN]⟩,
  ⟨0x0a0020, 0, 1, false, [R.LC_DBG_CMD_OP, R.LC_DBG_CMD_SCOPES]⟩,
  ⟨0x0a0024, 0, 1, false, [R.LC_DBG_STS_BUSY, R.LC_DBG_STS_OPEN, R.LC_DBG_STS_ERR]⟩,
  ⟨0x0a0028, 0, 1, false, [R.LC_DBG_POLICY_ALLOW]⟩,
  ⟨0x0a0030, 0, 1, true, [R.LC_DBG_RESP_ADDR_ADDR]⟩,
  ⟨0x0a0040, 0, 1, false, [R.LC_OTP_CMD_OP, R.LC_OTP_CMD_FIELD]⟩]
/-- Registers of block LC, part 1. -/
def regTabLC1 : List Reg := [
  ⟨0x0a0044, 0, 1, false, [R.LC_OTP_STS_BUSY, R.LC_OTP_STS_ANY_DAMAGED, R.LC_OTP_STS_ERR]⟩,
  ⟨0x0a0048, 0, 1, false, [R.LC_OTP_DAMAGED_TABLES, R.LC_OTP_DAMAGED_FIELDS]⟩,
  ⟨0x0a0100, 8, 12, true, [R.LC_DBG_CHAL_DATA]⟩,
  ⟨0x0a0180, 8, 6, true, [R.LC_OTP_BUF_DATA]⟩,
  ⟨0x0a01c0, 8, 4, true, [R.LC_CAP_FUSE_BITS]⟩]
/-- All registers of block LC. -/
def regTabLC : List Reg := regTabLC0 ++ regTabLC1

/-! ## QU -/

/-- QU_STS (0xb0000), R258. Fields from the most significant bit down. -/
def R.QU_STS_SESSIONS : Field := ⟨0x0b0000, 0, 1, 0, 11, .ro, 0⟩
/-- QU_CMD (0xb0004), R258. Fields from the most significant bit down. -/
def R.QU_CMD_OP : Field := ⟨0x0b0004, 0, 1, 28, 4, .wo, 0⟩
/-- QU_CMD.ROLES (R258). -/
def R.QU_CMD_ROLES : Field := ⟨0x0b0004, 0, 1, 24, 4, .wo, 0⟩
/-- QU_CMD.LIFE (R258). -/
def R.QU_CMD_LIFE : Field := ⟨0x0b0004, 0, 1, 16, 8, .wo, 0⟩
/-- QU_CMD.SCOPE (R258). -/
def R.QU_CMD_SCOPE : Field := ⟨0x0b0004, 0, 1, 0, 11, .wo, 0⟩
/-- QU_CMD_ADDR (0xb0008, 64-bit), R258. Fields from the most significant bit down. -/
def R.QU_CMD_ADDR_ADDR : Field := ⟨0x0b0008, 0, 1, 5, 59, .rw, 0⟩
/-- QU_CMD_STS (0xb0010), R258. Fields from the most significant bit down. -/
def R.QU_CMD_STS_BUSY : Field := ⟨0x0b0010, 0, 1, 31, 1, .ro, 0⟩
/-- QU_CMD_STS.ERR (R258). -/
def R.QU_CMD_STS_ERR : Field := ⟨0x0b0010, 0, 1, 0, 8, .ro, 0⟩
/-- QU_SESS (0xb1000, array of 1025, 64-bit), R258. Fields from the most significant bit down. -/
def R.QU_SESS_SESSION_ID : Field := ⟨0x0b1000, 8, 1025, 32, 32, .ro, 0⟩
/-- QU_SESS.LEFT (R258). -/
def R.QU_SESS_LEFT : Field := ⟨0x0b1000, 8, 1025, 16, 16, .ro, 0⟩
/-- QU_SESS.HELD (R258). -/
def R.QU_SESS_HELD : Field := ⟨0x0b1000, 8, 1025, 12, 4, .ro, 0⟩
/-- QU_SESS.REQ (R258). -/
def R.QU_SESS_REQ : Field := ⟨0x0b1000, 8, 1025, 8, 4, .ro, 0⟩
/-- QU_SESS.STATE (R258). -/
def R.QU_SESS_STATE : Field := ⟨0x0b1000, 8, 1025, 0, 2, .ro, 0⟩
/-- QU_POLICY (0xb4000, array of 1025), R258. Fields from the most significant bit down. -/
def R.QU_POLICY_M_OPER : Field := ⟨0x0b4000, 4, 1025, 12, 4, .ro, 0⟩ -- reset: Stored
/-- QU_POLICY.M_AUD (R258). -/
def R.QU_POLICY_M_AUD : Field := ⟨0x0b4000, 4, 1025, 8, 4, .ro, 0⟩ -- reset: Stored
/-- QU_POLICY.M_KC (R258). -/
def R.QU_POLICY_M_KC : Field := ⟨0x0b4000, 4, 1025, 4, 4, .ro, 0⟩ -- reset: Stored
/-- QU_POLICY.M_SO (R258). -/
def R.QU_POLICY_M_SO : Field := ⟨0x0b4000, 4, 1025, 0, 4, .ro, 0⟩ -- reset: Stored
/-- QU_OFFICERS (0xb6000, array of 1025), R258. Fields from the most significant bit down. -/
def R.QU_OFFICERS_N_OPER : Field := ⟨0x0b6000, 4, 1025, 24, 6, .ro, 0⟩ -- reset: Stored
/-- QU_OFFICERS.N_AUD (R258). -/
def R.QU_OFFICERS_N_AUD : Field := ⟨0x0b6000, 4, 1025, 16, 6, .ro, 0⟩ -- reset: Stored
/-- QU_OFFICERS.N_KC (R258). -/
def R.QU_OFFICERS_N_KC : Field := ⟨0x0b6000, 4, 1025, 8, 6, .ro, 0⟩ -- reset: Stored
/-- QU_OFFICERS.N_SO (R258). -/
def R.QU_OFFICERS_N_SO : Field := ⟨0x0b6000, 4, 1025, 0, 6, .ro, 0⟩ -- reset: Stored
/-- Registers of block QU, part 0. -/
def regTabQU0 : List Reg := [
  ⟨0x0b0000, 0, 1, false, [R.QU_STS_SESSIONS]⟩,
  ⟨0x0b0004, 0, 1, false, [R.QU_CMD_OP, R.QU_CMD_ROLES, R.QU_CMD_LIFE, R.QU_CMD_SCOPE]⟩,
  ⟨0x0b0008, 0, 1, true, [R.QU_CMD_ADDR_ADDR]⟩,
  ⟨0x0b0010, 0, 1, false, [R.QU_CMD_STS_BUSY, R.QU_CMD_STS_ERR]⟩,
  ⟨0x0b1000, 8, 1025, true, [R.QU_SESS_SESSION_ID, R.QU_SESS_LEFT, R.QU_SESS_HELD, R.QU_SESS_REQ, R.QU_SESS_STATE]⟩,
  ⟨0x0b4000, 4, 1025, false, [R.QU_POLICY_M_OPER, R.QU_POLICY_M_AUD, R.QU_POLICY_M_KC, R.QU_POLICY_M_SO]⟩,
  ⟨0x0b6000, 4, 1025, false, [R.QU_OFFICERS_N_OPER, R.QU_OFFICERS_N_AUD, R.QU_OFFICERS_N_KC, R.QU_OFFICERS_N_SO]⟩]
/-- All registers of block QU. -/
def regTabQU : List Reg := regTabQU0

/-! ## TMP -/

/-- TMP_CTL (0xc0000), R274. Fields from the most significant bit down. -/
def R.TMP_CTL_TEST_ARM : Field := ⟨0x0c0000, 0, 1, 0, 1, .rw, 0⟩
/-- TMP_STS (0xc0004), R274. Fields from the most significant bit down. -/
def R.TMP_STS_ARMED : Field := ⟨0x0c0004, 0, 1, 31, 1, .ro, 0⟩ -- reset: Per R259
/-- TMP_STS.CLAMP (R274). -/
def R.TMP_STS_CLAMP : Field := ⟨0x0c0004, 0, 1, 30, 1, .ro, 0⟩ -- reset: Per R263
/-- TMP_STS.HALT (R274). -/
def R.TMP_STS_HALT : Field := ⟨0x0c0004, 0, 1, 29, 1, .ro, 0⟩
/-- TMP_STS.BAT_OK (R274). -/
def R.TMP_STS_BAT_OK : Field := ⟨0x0c0004, 0, 1, 28, 1, .ro, 0⟩
/-- TMP_STS.OUT_FAULT (R274). -/
def R.TMP_STS_OUT_FAULT : Field := ⟨0x0c0004, 0, 1, 27, 1, .ro, 0⟩
/-- TMP_STS.ACTIVE (R274). -/
def R.TMP_STS_ACTIVE : Field := ⟨0x0c0004, 0, 1, 0, 9, .ro, 0⟩
/-- TMP_EVT_STS (0xc0008), R274. Fields from the most significant bit down. -/
def R.TMP_EVT_STS_EVT : Field := ⟨0x0c0008, 0, 1, 0, 32, .w1c, 0⟩
/-- TMP_BAT_EVT (0xc000c), R274. Fields from the most significant bit down. -/
def R.TMP_BAT_EVT_EVT : Field := ⟨0x0c000c, 0, 1, 0, 32, .w1c, 0⟩ -- reset: Battery domain
/-- TMP_EVT_INFO (0xc0010), R274. Fields from the most significant bit down. -/
def R.TMP_EVT_INFO_BATT : Field := ⟨0x0c0010, 0, 1, 31, 1, .ro, 0⟩ -- reset: Battery domain
/-- TMP_EVT_INFO.FIRST (R274). -/
def R.TMP_EVT_INFO_FIRST : Field := ⟨0x0c0010, 0, 1, 24, 5, .ro, 0⟩ -- reset: Battery domain
/-- TMP_EVT_INFO.SOURCE (R274). -/
def R.TMP_EVT_INFO_SOURCE : Field := ⟨0x0c0010, 0, 1, 16, 4, .ro, 0⟩ -- reset: Battery domain
/-- TMP_IRQ_EN (0xc0014), R274. Fields from the most significant bit down. -/
def R.TMP_IRQ_EN_EN : Field := ⟨0x0c0014, 0, 1, 0, 32, .rw, 0⟩
/-- TMP_CNT_RESP (0xc0018), R274. Fields from the most significant bit down. -/
def R.TMP_CNT_RESP_COUNT : Field := ⟨0x0c0018, 0, 1, 0, 16, .ro, 0⟩ -- reset: Battery domain
/-- TMP_MESH_CFG (0xc0020), R274. Fields from the most significant bit down. -/
def R.TMP_MESH_CFG_EN : Field := ⟨0x0c0020, 0, 1, 0, 8, .st, 255⟩
/-- TMP_MESH_STS (0xc0024), R274. Fields from the most significant bit down. -/
def R.TMP_MESH_STS_PAIR : Field := ⟨0x0c0024, 0, 1, 0, 16, .ro, 0⟩
/-- TMP_TS_CFG (0xc0028), R274. Fields from the most significant bit down. -/
def R.TMP_TS_CFG_INPUT : Field := ⟨0x0c0028, 0, 1, 0, 32, .st, 0⟩
/-- TMP_TS_STS (0xc002c), R274. Fields from the most significant bit down. -/
def R.TMP_TS_STS_INPUT : Field := ⟨0x0c002c, 0, 1, 0, 8, .ro, 255⟩
/-- TMP_RAIL_STS (0xc0030), R274. Fields from the most significant bit down. -/
def R.TMP_RAIL_STS_OV : Field := ⟨0x0c0030, 0, 1, 16, 9, .ro, 0⟩
/-- TMP_RAIL_STS.UV (R274). -/
def R.TMP_RAIL_STS_UV : Field := ⟨0x0c0030, 0, 1, 0, 9, .ro, 0⟩
/-- TMP_VBAT (0xc0034), R274. Fields from the most significant bit down. -/
def R.TMP_VBAT_REV : Field := ⟨0x0c0034, 0, 1, 31, 1, .ro, 0⟩
/-- TMP_VBAT.MV (R274). -/
def R.TMP_VBAT_MV : Field := ⟨0x0c0034, 0, 1, 0, 12, .ro, 0⟩
/-- TMP_TEMP (0xc0040, array of 5), R274. Fields from the most significant bit down. -/
def R.TMP_TEMP_TEMP : Field := ⟨0x0c0040, 4, 5, 0, 16, .ro, 0⟩
/-- TMP_LIGHT_STS (0xc0060), R274. Fields from the most significant bit down. -/
def R.TMP_LIGHT_STS_TRIP : Field := ⟨0x0c0060, 0, 1, 0, 16, .ro, 0⟩
/-- Registers of block TMP, part 0. -/
def regTabTMP0 : List Reg := [
  ⟨0x0c0000, 0, 1, false, [R.TMP_CTL_TEST_ARM]⟩,
  ⟨0x0c0004, 0, 1, false, [R.TMP_STS_ARMED, R.TMP_STS_CLAMP, R.TMP_STS_HALT, R.TMP_STS_BAT_OK, R.TMP_STS_OUT_FAULT, R.TMP_STS_ACTIVE]⟩,
  ⟨0x0c0008, 0, 1, false, [R.TMP_EVT_STS_EVT]⟩,
  ⟨0x0c000c, 0, 1, false, [R.TMP_BAT_EVT_EVT]⟩,
  ⟨0x0c0010, 0, 1, false, [R.TMP_EVT_INFO_BATT, R.TMP_EVT_INFO_FIRST, R.TMP_EVT_INFO_SOURCE]⟩,
  ⟨0x0c0014, 0, 1, false, [R.TMP_IRQ_EN_EN]⟩,
  ⟨0x0c0018, 0, 1, false, [R.TMP_CNT_RESP_COUNT]⟩,
  ⟨0x0c0020, 0, 1, false, [R.TMP_MESH_CFG_EN]⟩,
  ⟨0x0c0024, 0, 1, false, [R.TMP_MESH_STS_PAIR]⟩,
  ⟨0x0c0028, 0, 1, false, [R.TMP_TS_CFG_INPUT]⟩,
  ⟨0x0c002c, 0, 1, false, [R.TMP_TS_STS_INPUT]⟩,
  ⟨0x0c0030, 0, 1, false, [R.TMP_RAIL_STS_OV, R.TMP_RAIL_STS_UV]⟩]
/-- Registers of block TMP, part 1. -/
def regTabTMP1 : List Reg := [
  ⟨0x0c0034, 0, 1, false, [R.TMP_VBAT_REV, R.TMP_VBAT_MV]⟩,
  ⟨0x0c0040, 4, 5, false, [R.TMP_TEMP_TEMP]⟩,
  ⟨0x0c0060, 0, 1, false, [R.TMP_LIGHT_STS_TRIP]⟩]
/-- All registers of block TMP. -/
def regTabTMP : List Reg := regTabTMP0 ++ regTabTMP1

/-! ## GRD -/

/-- GRD_ERR_STS (0xd0000), R298. Fields from the most significant bit down. -/
def R.GRD_ERR_STS_DESC_ERR : Field := ⟨0x0d0000, 0, 1, 9, 1, .w1c, 0⟩
/-- GRD_ERR_STS.OVERLAP (R298). -/
def R.GRD_ERR_STS_OVERLAP : Field := ⟨0x0d0000, 0, 1, 8, 1, .w1c, 0⟩
/-- GRD_ERR_STS.VIOL (R298). -/
def R.GRD_ERR_STS_VIOL : Field := ⟨0x0d0000, 0, 1, 0, 8, .w1c, 0⟩
/-- GRD_IRQ_EN (0xd0004), R298. Fields from the most significant bit down. -/
def R.GRD_IRQ_EN_EN : Field := ⟨0x0d0004, 0, 1, 0, 10, .rw, 0⟩
/-- GRD_DBG_CFG (0xd0008), R298. Fields from the most significant bit down. -/
def R.GRD_DBG_CFG_COLOUR : Field := ⟨0x0d0008, 0, 1, 0, 16, .st, 0⟩
/-- GRD_VIOL_ADDR (0xd0100, array of 8, 64-bit), R298. Fields from the most significant bit down. -/
def R.GRD_VIOL_ADDR_ADDR : Field := ⟨0x0d0100, 16, 8, 0, 40, .ro, 0⟩
/-- GRD_VIOL_INFO (0xd0108, array of 8), R298. Fields from the most significant bit down. -/
def R.GRD_VIOL_INFO_VALID : Field := ⟨0x0d0108, 16, 8, 31, 1, .w1c, 0⟩
/-- GRD_VIOL_INFO.CAUSE (R298). -/
def R.GRD_VIOL_INFO_CAUSE : Field := ⟨0x0d0108, 16, 8, 27, 4, .ro, 0⟩
/-- GRD_VIOL_INFO.OP (R298). -/
def R.GRD_VIOL_INFO_OP : Field := ⟨0x0d0108, 16, 8, 25, 2, .ro, 0⟩
/-- GRD_VIOL_INFO.COLOUR (R298). -/
def R.GRD_VIOL_INFO_COLOUR : Field := ⟨0x0d0108, 16, 8, 21, 4, .ro, 0⟩
/-- GRD_VIOL_INFO.MASTER (R298). -/
def R.GRD_VIOL_INFO_MASTER : Field := ⟨0x0d0108, 16, 8, 0, 11, .ro, 0⟩
/-- GRD_VIOL_OVF (0xd010c, array of 8), R298. Fields from the most significant bit down. -/
def R.GRD_VIOL_OVF_COUNT : Field := ⟨0x0d010c, 16, 8, 0, 16, .ro, 0⟩
/-- GRD_RGN (0xd1000, array of 512, 64-bit), R298. Fields from the most significant bit down. -/
def R.GRD_RGN_VALID : Field := ⟨0x0d1000, 8, 512, 63, 1, .st, 0⟩
/-- GRD_RGN.TAG (R298). -/
def R.GRD_RGN_TAG : Field := ⟨0x0d1000, 8, 512, 56, 4, .st, 0⟩
/-- GRD_RGN.ANYCOL (R298). -/
def R.GRD_RGN_ANYCOL : Field := ⟨0x0d1000, 8, 512, 55, 1, .st, 0⟩
/-- GRD_RGN.SETCOL (R298). -/
def R.GRD_RGN_SETCOL : Field := ⟨0x0d1000, 8, 512, 54, 1, .st, 0⟩
/-- GRD_RGN.X (R298). -/
def R.GRD_RGN_X : Field := ⟨0x0d1000, 8, 512, 53, 1, .st, 0⟩
/-- GRD_RGN.W (R298). -/
def R.GRD_RGN_W : Field := ⟨0x0d1000, 8, 512, 52, 1, .st, 0⟩
/-- GRD_RGN.R (R298). -/
def R.GRD_RGN_R : Field := ⟨0x0d1000, 8, 512, 51, 1, .st, 0⟩
/-- GRD_RGN.SIZE (R298). -/
def R.GRD_RGN_SIZE : Field := ⟨0x0d1000, 8, 512, 45, 6, .st, 0⟩
/-- GRD_RGN.BASE (R298). -/
def R.GRD_RGN_BASE : Field := ⟨0x0d1000, 8, 512, 12, 28, .st, 0⟩
/-- Registers of block GRD, part 0. -/
def regTabGRD0 : List Reg := [
  ⟨0x0d0000, 0, 1, false, [R.GRD_ERR_STS_DESC_ERR, R.GRD_ERR_STS_OVERLAP, R.GRD_ERR_STS_VIOL]⟩,
  ⟨0x0d0004, 0, 1, false, [R.GRD_IRQ_EN_EN]⟩,
  ⟨0x0d0008, 0, 1, false, [R.GRD_DBG_CFG_COLOUR]⟩,
  ⟨0x0d0100, 16, 8, true, [R.GRD_VIOL_ADDR_ADDR]⟩,
  ⟨0x0d0108, 16, 8, false, [R.GRD_VIOL_INFO_VALID, R.GRD_VIOL_INFO_CAUSE, R.GRD_VIOL_INFO_OP, R.GRD_VIOL_INFO_COLOUR, R.GRD_VIOL_INFO_MASTER]⟩,
  ⟨0x0d010c, 16, 8, false, [R.GRD_VIOL_OVF_COUNT]⟩,
  ⟨0x0d1000, 8, 512, true, [R.GRD_RGN_VALID, R.GRD_RGN_TAG, R.GRD_RGN_ANYCOL, R.GRD_RGN_SETCOL, R.GRD_RGN_X, R.GRD_RGN_W, R.GRD_RGN_R, R.GRD_RGN_SIZE, R.GRD_RGN_BASE]⟩]
/-- All registers of block GRD. -/
def regTabGRD : List Reg := regTabGRD0

/-! ## MSC -/

/-- MSC_DRAM_STS (0xe0004), R299. Fields from the most significant bit down. -/
def R.MSC_DRAM_STS_SIZE1 : Field := ⟨0x0e0004, 0, 1, 24, 8, .ro, 0⟩
/-- MSC_DRAM_STS.SIZE0 (R299). -/
def R.MSC_DRAM_STS_SIZE0 : Field := ⟨0x0e0004, 0, 1, 16, 8, .ro, 0⟩
/-- MSC_DRAM_STS.RATE (R299). -/
def R.MSC_DRAM_STS_RATE : Field := ⟨0x0e0004, 0, 1, 8, 4, .ro, 0⟩
/-- MSC_DRAM_STS.INTLV (R299). -/
def R.MSC_DRAM_STS_INTLV : Field := ⟨0x0e0004, 0, 1, 2, 1, .ro, 0⟩
/-- MSC_DRAM_STS.CH1 (R299). -/
def R.MSC_DRAM_STS_CH1 : Field := ⟨0x0e0004, 0, 1, 1, 1, .ro, 0⟩
/-- MSC_DRAM_STS.CH0 (R299). -/
def R.MSC_DRAM_STS_CH0 : Field := ⟨0x0e0004, 0, 1, 0, 1, .ro, 0⟩
/-- MSC_CMD (0xe0008), R299. Fields from the most significant bit down. -/
def R.MSC_CMD_OP : Field := ⟨0x0e0008, 0, 1, 28, 4, .wo, 0⟩
/-- MSC_CMD.KEYID (R299). -/
def R.MSC_CMD_KEYID : Field := ⟨0x0e0008, 0, 1, 8, 8, .wo, 0⟩
/-- MSC_CMD.ENTRY (R299). -/
def R.MSC_CMD_ENTRY : Field := ⟨0x0e0008, 0, 1, 0, 4, .wo, 0⟩
/-- MSC_CMD_STS (0xe000c), R299. Fields from the most significant bit down. -/
def R.MSC_CMD_STS_BUSY : Field := ⟨0x0e000c, 0, 1, 31, 1, .ro, 0⟩
/-- MSC_CMD_STS.KEYID (R299). -/
def R.MSC_CMD_STS_KEYID : Field := ⟨0x0e000c, 0, 1, 8, 8, .ro, 0⟩
/-- MSC_CMD_STS.ERR (R299). -/
def R.MSC_CMD_STS_ERR : Field := ⟨0x0e000c, 0, 1, 0, 8, .ro, 0⟩
/-- MSC_WALK (0xe0010), R299. Fields from the most significant bit down. -/
def R.MSC_WALK_RATE : Field := ⟨0x0e0010, 0, 1, 0, 13, .rw, 1024⟩
/-- MSC_WALK_STS (0xe0018, 64-bit), R299. Fields from the most significant bit down. -/
def R.MSC_WALK_STS_ACTIVE : Field := ⟨0x0e0018, 0, 1, 63, 1, .ro, 0⟩
/-- MSC_WALK_STS.INIT (R299). -/
def R.MSC_WALK_STS_INIT : Field := ⟨0x0e0018, 0, 1, 62, 1, .ro, 0⟩
/-- MSC_WALK_STS.ENTRY (R299). -/
def R.MSC_WALK_STS_ENTRY : Field := ⟨0x0e0018, 0, 1, 56, 4, .ro, 0⟩
/-- MSC_WALK_STS.POS (R299). -/
def R.MSC_WALK_STS_POS : Field := ⟨0x0e0018, 0, 1, 6, 31, .ro, 0⟩
/-- MSC_ERR_STS (0xe0020), R299. Fields from the most significant bit down. -/
def R.MSC_ERR_STS_WALK_DONE : Field := ⟨0x0e0020, 0, 1, 5, 1, .w1c, 0⟩
/-- MSC_ERR_STS.RMW_POISON (R299). -/
def R.MSC_ERR_STS_RMW_POISON : Field := ⟨0x0e0020, 0, 1, 4, 1, .w1c, 0⟩
/-- MSC_ERR_STS.KEYID (R299). -/
def R.MSC_ERR_STS_KEYID : Field := ⟨0x0e0020, 0, 1, 3, 1, .w1c, 0⟩
/-- MSC_ERR_STS.TAG (R299). -/
def R.MSC_ERR_STS_TAG : Field := ⟨0x0e0020, 0, 1, 2, 1, .w1c, 0⟩
/-- MSC_ERR_STS.DETECT (R299). -/
def R.MSC_ERR_STS_DETECT : Field := ⟨0x0e0020, 0, 1, 1, 1, .w1c, 0⟩
/-- MSC_ERR_STS.FIX (R299). -/
def R.MSC_ERR_STS_FIX : Field := ⟨0x0e0020, 0, 1, 0, 1, .w1c, 0⟩
/-- MSC_ERR_INFO (0xe0024), R299. Fields from the most significant bit down. -/
def R.MSC_ERR_INFO_CAUSE : Field := ⟨0x0e0024, 0, 1, 29, 3, .ro, 0⟩
/-- MSC_ERR_INFO.GROUP (R299). -/
def R.MSC_ERR_INFO_GROUP : Field := ⟨0x0e0024, 0, 1, 24, 3, .ro, 0⟩
/-- MSC_ERR_INFO.KEYID (R299). -/
def R.MSC_ERR_INFO_KEYID : Field := ⟨0x0e0024, 0, 1, 16, 8, .ro, 0⟩
/-- MSC_ERR_INFO.MASTER (R299). -/
def R.MSC_ERR_INFO_MASTER : Field := ⟨0x0e0024, 0, 1, 0, 11, .ro, 0⟩
/-- MSC_ERR_ADDR (0xe0028, 64-bit), R299. Fields from the most significant bit down. -/
def R.MSC_ERR_ADDR_LINE : Field := ⟨0x0e0028, 0, 1, 6, 31, .ro, 0⟩
/-- MSC_IRQ_EN (0xe0030), R299. Fields from the most significant bit down. -/
def R.MSC_IRQ_EN_EN : Field := ⟨0x0e0030, 0, 1, 0, 6, .rw, 0⟩
/-- MSC_CNT_FIX (0xe0040), R299. Fields from the most significant bit down. -/
def R.MSC_CNT_FIX_COUNT : Field := ⟨0x0e0040, 0, 1, 0, 32, .ro, 0⟩
/-- MSC_CNT_POISON (0xe0044), R299. Fields from the most significant bit down. -/
def R.MSC_CNT_POISON_COUNT : Field := ⟨0x0e0044, 0, 1, 0, 32, .ro, 0⟩
/-- MSC_KEYID_STS (0xe0080, array of 4, 64-bit), R299. Fields from the most significant bit down. -/
def R.MSC_KEYID_STS_ACTIVE : Field := ⟨0x0e0080, 8, 4, 0, 64, .ro, 0⟩
/-- MSC_MAP (0xe0100, array of 16, 64-bit), R299. Fields from the most significant bit down. -/
def R.MSC_MAP_VALID : Field := ⟨0x0e0100, 8, 16, 63, 1, .st, 0⟩
/-- MSC_MAP.OLD (R299). -/
def R.MSC_MAP_OLD : Field := ⟨0x0e0100, 8, 16, 48, 8, .ro, 0⟩
/-- MSC_MAP.KEYID (R299). -/
def R.MSC_MAP_KEYID : Field := ⟨0x0e0100, 8, 16, 40, 8, .st, 0⟩
/-- MSC_MAP.BASE (R299). -/
def R.MSC_MAP_BASE : Field := ⟨0x0e0100, 8, 16, 28, 9, .st, 0⟩
/-- MSC_MAP.SIZE (R299). -/
def R.MSC_MAP_SIZE : Field := ⟨0x0e0100, 8, 16, 0, 10, .st, 0⟩
/-- MSC_RIGHTS (0xe0200, array of 32, 64-bit), R299. Fields from the most significant bit down. -/
def R.MSC_RIGHTS_KEYIDS : Field := ⟨0x0e0200, 8, 32, 0, 64, .st, 0⟩
/-- Registers of block MSC, part 0. -/
def regTabMSC0 : List Reg := [
  ⟨0x0e0004, 0, 1, false, [R.MSC_DRAM_STS_SIZE1, R.MSC_DRAM_STS_SIZE0, R.MSC_DRAM_STS_RATE, R.MSC_DRAM_STS_INTLV, R.MSC_DRAM_STS_CH1, R.MSC_DRAM_STS_CH0]⟩,
  ⟨0x0e0008, 0, 1, false, [R.MSC_CMD_OP, R.MSC_CMD_KEYID, R.MSC_CMD_ENTRY]⟩,
  ⟨0x0e000c, 0, 1, false, [R.MSC_CMD_STS_BUSY, R.MSC_CMD_STS_KEYID, R.MSC_CMD_STS_ERR]⟩,
  ⟨0x0e0010, 0, 1, false, [R.MSC_WALK_RATE]⟩,
  ⟨0x0e0018, 0, 1, true, [R.MSC_WALK_STS_ACTIVE, R.MSC_WALK_STS_INIT, R.MSC_WALK_STS_ENTRY, R.MSC_WALK_STS_POS]⟩,
  ⟨0x0e0020, 0, 1, false, [R.MSC_ERR_STS_WALK_DONE, R.MSC_ERR_STS_RMW_POISON, R.MSC_ERR_STS_KEYID, R.MSC_ERR_STS_TAG, R.MSC_ERR_STS_DETECT, R.MSC_ERR_STS_FIX]⟩,
  ⟨0x0e0024, 0, 1, false, [R.MSC_ERR_INFO_CAUSE, R.MSC_ERR_INFO_GROUP, R.MSC_ERR_INFO_KEYID, R.MSC_ERR_INFO_MASTER]⟩,
  ⟨0x0e0028, 0, 1, true, [R.MSC_ERR_ADDR_LINE]⟩,
  ⟨0x0e0030, 0, 1, false, [R.MSC_IRQ_EN_EN]⟩,
  ⟨0x0e0040, 0, 1, false, [R.MSC_CNT_FIX_COUNT]⟩,
  ⟨0x0e0044, 0, 1, false, [R.MSC_CNT_POISON_COUNT]⟩,
  ⟨0x0e0080, 8, 4, true, [R.MSC_KEYID_STS_ACTIVE]⟩]
/-- Registers of block MSC, part 1. -/
def regTabMSC1 : List Reg := [
  ⟨0x0e0100, 8, 16, true, [R.MSC_MAP_VALID, R.MSC_MAP_OLD, R.MSC_MAP_KEYID, R.MSC_MAP_BASE, R.MSC_MAP_SIZE]⟩,
  ⟨0x0e0200, 8, 32, true, [R.MSC_RIGHTS_KEYIDS]⟩]
/-- All registers of block MSC. -/
def regTabMSC : List Reg := regTabMSC0 ++ regTabMSC1

/-! ## FB -/

/-- FB_CTL (0xf0000), R315. Fields from the most significant bit down. -/
def R.FB_CTL_DIAG_BUF : Field := ⟨0x0f0000, 0, 1, 1, 1, .st, 1⟩
/-- FB_CTL.AUD_BUF (R315). -/
def R.FB_CTL_AUD_BUF : Field := ⟨0x0f0000, 0, 1, 0, 1, .st, 0⟩
/-- FB_STS (0xf0004), R315. Fields from the most significant bit down. -/
def R.FB_STS_RO : Field := ⟨0x0f0004, 0, 1, 6, 1, .ro, 0⟩
/-- FB_STS.HOLD (R315). -/
def R.FB_STS_HOLD : Field := ⟨0x0f0004, 0, 1, 5, 1, .ro, 0⟩
/-- FB_STS.KEEP (R315). -/
def R.FB_STS_KEEP : Field := ⟨0x0f0004, 0, 1, 4, 1, .ro, 0⟩
/-- FB_STS.FROZEN (R315). -/
def R.FB_STS_FROZEN : Field := ⟨0x0f0004, 0, 1, 3, 1, .ro, 0⟩
/-- FB_STS.EXPORT (R315). -/
def R.FB_STS_EXPORT : Field := ⟨0x0f0004, 0, 1, 2, 1, .ro, 0⟩
/-- FB_STS.KSEL (R315). -/
def R.FB_STS_KSEL : Field := ⟨0x0f0004, 0, 1, 0, 2, .ro, 0⟩
/-- FB_CMD (0xf0008), R315. Fields from the most significant bit down. -/
def R.FB_CMD_OP : Field := ⟨0x0f0008, 0, 1, 28, 4, .wo, 0⟩
/-- FB_CMD.KEEP (R315). -/
def R.FB_CMD_KEEP : Field := ⟨0x0f0008, 0, 1, 27, 1, .wo, 0⟩
/-- FB_CMD.CLASS (R315). -/
def R.FB_CMD_CLASS : Field := ⟨0x0f0008, 0, 1, 26, 1, .wo, 0⟩
/-- FB_CMD.SCOPE (R315). -/
def R.FB_CMD_SCOPE : Field := ⟨0x0f0008, 0, 1, 0, 11, .wo, 0⟩
/-- FB_CMD_ADDR (0xf0010, 64-bit), R315. Fields from the most significant bit down. -/
def R.FB_CMD_ADDR_ADDR : Field := ⟨0x0f0010, 0, 1, 6, 58, .rw, 0⟩
/-- FB_CMD_LEN (0xf0018), R315. Fields from the most significant bit down. -/
def R.FB_CMD_LEN_RECORDS : Field := ⟨0x0f0018, 0, 1, 0, 17, .rw, 0⟩
/-- FB_CMD_FROM (0xf0020, 64-bit), R315. Fields from the most significant bit down. -/
def R.FB_CMD_FROM_SEQ : Field := ⟨0x0f0020, 0, 1, 0, 64, .rw, 0⟩
/-- FB_CMD_STS (0xf0028), R315. Fields from the most significant bit down. -/
def R.FB_CMD_STS_BUSY : Field := ⟨0x0f0028, 0, 1, 31, 1, .ro, 0⟩
/-- FB_CMD_STS.ERR (R315). -/
def R.FB_CMD_STS_ERR : Field := ⟨0x0f0028, 0, 1, 0, 8, .ro, 0⟩
/-- FB_SEQ_NEXT (0xf0030, 64-bit), R315. Fields from the most significant bit down. -/
def R.FB_SEQ_NEXT_SEQ : Field := ⟨0x0f0030, 0, 1, 0, 64, .ro, 0⟩ -- reset: From MRAM
/-- FB_SEQ_OLDEST (0xf0038, 64-bit), R315. Fields from the most significant bit down. -/
def R.FB_SEQ_OLDEST_SEQ : Field := ⟨0x0f0038, 0, 1, 0, 64, .ro, 0⟩ -- reset: From MRAM
/-- FB_LOG_STS (0xf0040, 64-bit), R315. Fields from the most significant bit down. -/
def R.FB_LOG_STS_RSV_USED : Field := ⟨0x0f0040, 0, 1, 49, 8, .ro, 0⟩ -- reset: From MRAM
/-- FB_LOG_STS.HIGH_ROOM (R315). -/
def R.FB_LOG_STS_HIGH_ROOM : Field := ⟨0x0f0040, 0, 1, 32, 17, .ro, 0⟩ -- reset: From MRAM
/-- FB_LOG_STS.PENDING (R315). -/
def R.FB_LOG_STS_PENDING : Field := ⟨0x0f0040, 0, 1, 24, 8, .ro, 0⟩
/-- FB_LOG_STS.USED (R315). -/
def R.FB_LOG_STS_USED : Field := ⟨0x0f0040, 0, 1, 0, 17, .ro, 0⟩ -- reset: From MRAM
/-- FB_CNT_OVERWRITE (0xf0048), R315. Fields from the most significant bit down. -/
def R.FB_CNT_OVERWRITE_COUNT : Field := ⟨0x0f0048, 0, 1, 0, 32, .ro, 0⟩ -- reset: From MRAM
/-- FB_CNT_DROP (0xf004c), R315. Fields from the most significant bit down. -/
def R.FB_CNT_DROP_COUNT : Field := ⟨0x0f004c, 0, 1, 0, 32, .ro, 0⟩ -- reset: From MRAM
/-- FB_CNT_REFUSE (0xf0050), R315. Fields from the most significant bit down. -/
def R.FB_CNT_REFUSE_COUNT : Field := ⟨0x0f0050, 0, 1, 0, 32, .ro, 0⟩
/-- FB_ERR_STS (0xf0054), R315. Fields from the most significant bit down. -/
def R.FB_ERR_STS_RO : Field := ⟨0x0f0054, 0, 1, 5, 1, .w1c, 0⟩
/-- FB_ERR_STS.HOLD (R315). -/
def R.FB_ERR_STS_HOLD : Field := ⟨0x0f0054, 0, 1, 4, 1, .w1c, 0⟩
/-- FB_ERR_STS.FREEZE_BROKEN (R315). -/
def R.FB_ERR_STS_FREEZE_BROKEN : Field := ⟨0x0f0054, 0, 1, 3, 1, .w1c, 0⟩
/-- FB_ERR_STS.DROP (R315). -/
def R.FB_ERR_STS_DROP : Field := ⟨0x0f0054, 0, 1, 2, 1, .w1c, 0⟩
/-- FB_ERR_STS.CHECK_FAIL (R315). -/
def R.FB_ERR_STS_CHECK_FAIL : Field := ⟨0x0f0054, 0, 1, 1, 1, .w1c, 0⟩
/-- FB_ERR_STS.EXPORT_DONE (R315). -/
def R.FB_ERR_STS_EXPORT_DONE : Field := ⟨0x0f0054, 0, 1, 0, 1, .w1c, 0⟩
/-- FB_IRQ_EN (0xf0058), R315. Fields from the most significant bit down. -/
def R.FB_IRQ_EN_EN : Field := ⟨0x0f0058, 0, 1, 0, 6, .rw, 0⟩
/-- FB_DIAG_TRIG (0xf0100, array of 16), R315. Fields from the most significant bit down. -/
def R.FB_DIAG_TRIG_EN : Field := ⟨0x0f0100, 4, 16, 31, 1, .st, 0⟩
/-- FB_DIAG_TRIG.SET (R315). -/
def R.FB_DIAG_TRIG_SET : Field := ⟨0x0f0100, 4, 16, 16, 3, .st, 0⟩
/-- FB_DIAG_TRIG.CODE (R315). -/
def R.FB_DIAG_TRIG_CODE : Field := ⟨0x0f0100, 4, 16, 0, 16, .st, 0⟩
/-- FB_DIAG_SEL (0xf1000, array of 256), R315. Fields from the most significant bit down. -/
def R.FB_DIAG_SEL_EN : Field := ⟨0x0f1000, 4, 256, 31, 1, .st, 0⟩
/-- FB_DIAG_SEL.W64 (R315). -/
def R.FB_DIAG_SEL_W64 : Field := ⟨0x0f1000, 4, 256, 30, 1, .st, 0⟩
/-- FB_DIAG_SEL.OFFSET (R315). -/
def R.FB_DIAG_SEL_OFFSET : Field := ⟨0x0f1000, 4, 256, 0, 22, .st, 0⟩
/-- Registers of block FB, part 0. -/
def regTabFB0 : List Reg := [
  ⟨0x0f0000, 0, 1, false, [R.FB_CTL_DIAG_BUF, R.FB_CTL_AUD_BUF]⟩,
  ⟨0x0f0004, 0, 1, false, [R.FB_STS_RO, R.FB_STS_HOLD, R.FB_STS_KEEP, R.FB_STS_FROZEN, R.FB_STS_EXPORT, R.FB_STS_KSEL]⟩,
  ⟨0x0f0008, 0, 1, false, [R.FB_CMD_OP, R.FB_CMD_KEEP, R.FB_CMD_CLASS, R.FB_CMD_SCOPE]⟩,
  ⟨0x0f0010, 0, 1, true, [R.FB_CMD_ADDR_ADDR]⟩,
  ⟨0x0f0018, 0, 1, false, [R.FB_CMD_LEN_RECORDS]⟩,
  ⟨0x0f0020, 0, 1, true, [R.FB_CMD_FROM_SEQ]⟩,
  ⟨0x0f0028, 0, 1, false, [R.FB_CMD_STS_BUSY, R.FB_CMD_STS_ERR]⟩,
  ⟨0x0f0030, 0, 1, true, [R.FB_SEQ_NEXT_SEQ]⟩,
  ⟨0x0f0038, 0, 1, true, [R.FB_SEQ_OLDEST_SEQ]⟩,
  ⟨0x0f0040, 0, 1, true, [R.FB_LOG_STS_RSV_USED, R.FB_LOG_STS_HIGH_ROOM, R.FB_LOG_STS_PENDING, R.FB_LOG_STS_USED]⟩,
  ⟨0x0f0048, 0, 1, false, [R.FB_CNT_OVERWRITE_COUNT]⟩,
  ⟨0x0f004c, 0, 1, false, [R.FB_CNT_DROP_COUNT]⟩]
/-- Registers of block FB, part 1. -/
def regTabFB1 : List Reg := [
  ⟨0x0f0050, 0, 1, false, [R.FB_CNT_REFUSE_COUNT]⟩,
  ⟨0x0f0054, 0, 1, false, [R.FB_ERR_STS_RO, R.FB_ERR_STS_HOLD, R.FB_ERR_STS_FREEZE_BROKEN, R.FB_ERR_STS_DROP, R.FB_ERR_STS_CHECK_FAIL, R.FB_ERR_STS_EXPORT_DONE]⟩,
  ⟨0x0f0058, 0, 1, false, [R.FB_IRQ_EN_EN]⟩,
  ⟨0x0f0100, 4, 16, false, [R.FB_DIAG_TRIG_EN, R.FB_DIAG_TRIG_SET, R.FB_DIAG_TRIG_CODE]⟩,
  ⟨0x0f1000, 4, 256, false, [R.FB_DIAG_SEL_EN, R.FB_DIAG_SEL_W64, R.FB_DIAG_SEL_OFFSET]⟩]
/-- All registers of block FB. -/
def regTabFB : List Reg := regTabFB0 ++ regTabFB1

/-! ## UPD -/

/-- UPD_STS (0x100000), R330. Fields from the most significant bit down. -/
def R.UPD_STS_OLD_VALID : Field := ⟨0x100000, 0, 1, 8, 1, .ro, 0⟩ -- reset: Per R323
/-- UPD_STS.UNCONFIRMED (R330). -/
def R.UPD_STS_UNCONFIRMED : Field := ⟨0x100000, 0, 1, 7, 1, .ro, 0⟩ -- reset: Per R323
/-- UPD_STS.HOLD (R330). -/
def R.UPD_STS_HOLD : Field := ⟨0x100000, 0, 1, 6, 1, .ro, 0⟩
/-- UPD_STS.STATE (R330). -/
def R.UPD_STS_STATE : Field := ⟨0x100000, 0, 1, 0, 3, .ro, 0⟩ -- reset: Per R321
/-- UPD_CMD (0x100004), R330. Fields from the most significant bit down. -/
def R.UPD_CMD_OP : Field := ⟨0x100004, 0, 1, 28, 4, .wo, 0⟩
/-- UPD_CMD.SECTOR (R330). -/
def R.UPD_CMD_SECTOR : Field := ⟨0x100004, 0, 1, 0, 11, .wo, 0⟩
/-- UPD_CMD_ADDR (0x100008, 64-bit), R330. Fields from the most significant bit down. -/
def R.UPD_CMD_ADDR_ADDR : Field := ⟨0x100008, 0, 1, 12, 52, .rw, 0⟩
/-- UPD_CMD_STS (0x100010), R330. Fields from the most significant bit down. -/
def R.UPD_CMD_STS_BUSY : Field := ⟨0x100010, 0, 1, 31, 1, .ro, 0⟩
/-- UPD_CMD_STS.ERR (R330). -/
def R.UPD_CMD_STS_ERR : Field := ⟨0x100010, 0, 1, 0, 8, .ro, 0⟩
/-- UPD_PROGRESS (0x100014), R330. Fields from the most significant bit down. -/
def R.UPD_PROGRESS_SECTORS : Field := ⟨0x100014, 0, 1, 16, 11, .ro, 0⟩
/-- UPD_PROGRESS.NEXT (R330). -/
def R.UPD_PROGRESS_NEXT : Field := ⟨0x100014, 0, 1, 0, 11, .ro, 0⟩ -- reset: Per R327
/-- UPD_RUN_VER (0x100018), R330. Fields from the most significant bit down. -/
def R.UPD_RUN_VER_VERSION : Field := ⟨0x100018, 0, 1, 0, 32, .ro, 0⟩ -- reset: Per R321
/-- UPD_RUN_FMT (0x10001c), R330. Fields from the most significant bit down. -/
def R.UPD_RUN_FMT_DATA_FMT : Field := ⟨0x10001c, 0, 1, 0, 32, .ro, 0⟩ -- reset: Per R321
/-- UPD_FLOOR (0x100020, 64-bit), R330. Fields from the most significant bit down. -/
def R.UPD_FLOOR_FLOOR : Field := ⟨0x100020, 0, 1, 0, 48, .ro, 0⟩ -- reset: From MRAM
/-- UPD_ERR_STS (0x100028), R330. Fields from the most significant bit down. -/
def R.UPD_ERR_STS_HOLD : Field := ⟨0x100028, 0, 1, 5, 1, .w1c, 0⟩
/-- UPD_ERR_STS.WRITTEN (R330). -/
def R.UPD_ERR_STS_WRITTEN : Field := ⟨0x100028, 0, 1, 4, 1, .w1c, 0⟩
/-- UPD_ERR_STS.BOOT_FAIL (R330). -/
def R.UPD_ERR_STS_BOOT_FAIL : Field := ⟨0x100028, 0, 1, 3, 1, .w1c, 0⟩ -- reset: Per R321
/-- UPD_ERR_STS.FLASH (R330). -/
def R.UPD_ERR_STS_FLASH : Field := ⟨0x100028, 0, 1, 2, 1, .w1c, 0⟩
/-- UPD_ERR_STS.SECTOR_FAIL (R330). -/
def R.UPD_ERR_STS_SECTOR_FAIL : Field := ⟨0x100028, 0, 1, 1, 1, .w1c, 0⟩
/-- UPD_ERR_STS.START_FAIL (R330). -/
def R.UPD_ERR_STS_START_FAIL : Field := ⟨0x100028, 0, 1, 0, 1, .w1c, 0⟩
/-- UPD_IRQ_EN (0x10002c), R330. Fields from the most significant bit down. -/
def R.UPD_IRQ_EN_EN : Field := ⟨0x10002c, 0, 1, 0, 6, .rw, 0⟩
/-- UPD_FLASH_STS (0x100030), R330. Fields from the most significant bit down. -/
def R.UPD_FLASH_STS_PRESENT : Field := ⟨0x100030, 0, 1, 8, 1, .ro, 0⟩
/-- UPD_FLASH_STS.SIZE (R330). -/
def R.UPD_FLASH_STS_SIZE : Field := ⟨0x100030, 0, 1, 0, 3, .ro, 0⟩
/-- UPD_FW_DIGEST (0x100040, array of 6, 64-bit), R330. Fields from the most significant bit down. -/
def R.UPD_FW_DIGEST_DIGEST : Field := ⟨0x100040, 8, 6, 0, 64, .ro, 0⟩
/-- Registers of block UPD, part 0. -/
def regTabUPD0 : List Reg := [
  ⟨0x100000, 0, 1, false, [R.UPD_STS_OLD_VALID, R.UPD_STS_UNCONFIRMED, R.UPD_STS_HOLD, R.UPD_STS_STATE]⟩,
  ⟨0x100004, 0, 1, false, [R.UPD_CMD_OP, R.UPD_CMD_SECTOR]⟩,
  ⟨0x100008, 0, 1, true, [R.UPD_CMD_ADDR_ADDR]⟩,
  ⟨0x100010, 0, 1, false, [R.UPD_CMD_STS_BUSY, R.UPD_CMD_STS_ERR]⟩,
  ⟨0x100014, 0, 1, false, [R.UPD_PROGRESS_SECTORS, R.UPD_PROGRESS_NEXT]⟩,
  ⟨0x100018, 0, 1, false, [R.UPD_RUN_VER_VERSION]⟩,
  ⟨0x10001c, 0, 1, false, [R.UPD_RUN_FMT_DATA_FMT]⟩,
  ⟨0x100020, 0, 1, true, [R.UPD_FLOOR_FLOOR]⟩,
  ⟨0x100028, 0, 1, false, [R.UPD_ERR_STS_HOLD, R.UPD_ERR_STS_WRITTEN, R.UPD_ERR_STS_BOOT_FAIL, R.UPD_ERR_STS_FLASH, R.UPD_ERR_STS_SECTOR_FAIL, R.UPD_ERR_STS_START_FAIL]⟩,
  ⟨0x10002c, 0, 1, false, [R.UPD_IRQ_EN_EN]⟩,
  ⟨0x100030, 0, 1, false, [R.UPD_FLASH_STS_PRESENT, R.UPD_FLASH_STS_SIZE]⟩,
  ⟨0x100040, 8, 6, true, [R.UPD_FW_DIGEST_DIGEST]⟩]
/-- All registers of block UPD. -/
def regTabUPD : List Reg := regTabUPD0

/-! ## CLK -/

/-- CLK_STS (0x110000), R345. Fields from the most significant bit down. -/
def R.CLK_STS_HOLDOVER : Field := ⟨0x110000, 0, 1, 10, 1, .ro, 0⟩
/-- CLK_STS.LOCK (R345). -/
def R.CLK_STS_LOCK : Field := ⟨0x110000, 0, 1, 9, 1, .ro, 0⟩
/-- CLK_STS.TREF_OK (R345). -/
def R.CLK_STS_TREF_OK : Field := ⟨0x110000, 0, 1, 8, 1, .ro, 0⟩
/-- CLK_STS.DDR_LOCK (R345). -/
def R.CLK_STS_DDR_LOCK : Field := ⟨0x110000, 0, 1, 4, 1, .ro, 0⟩
/-- CLK_STS.SEQ_LOCK (R345). -/
def R.CLK_STS_SEQ_LOCK : Field := ⟨0x110000, 0, 1, 3, 1, .ro, 0⟩
/-- CLK_STS.CORE_LOCK (R345). -/
def R.CLK_STS_CORE_LOCK : Field := ⟨0x110000, 0, 1, 2, 1, .ro, 0⟩
/-- CLK_STS.BKO_OK (R345). -/
def R.CLK_STS_BKO_OK : Field := ⟨0x110000, 0, 1, 1, 1, .ro, 0⟩
/-- CLK_STS.XIN_OK (R345). -/
def R.CLK_STS_XIN_OK : Field := ⟨0x110000, 0, 1, 0, 1, .ro, 0⟩
/-- CLK_TRIM_CFG (0x110004), R345. Fields from the most significant bit down. -/
def R.CLK_TRIM_CFG_SRC : Field := ⟨0x110004, 0, 1, 0, 2, .st, 0⟩
/-- CLK_TRIM (0x110008), R345. Fields from the most significant bit down. -/
def R.CLK_TRIM_VALUE : Field := ⟨0x110008, 0, 1, 0, 20, .ro, 0⟩ -- reset: OTP field 0x10
/-- CLK_TRIM_ERR (0x11000c), R345. Fields from the most significant bit down. -/
def R.CLK_TRIM_ERR_VALID : Field := ⟨0x11000c, 0, 1, 31, 1, .ro, 0⟩
/-- CLK_TRIM_ERR.ERR (R345). -/
def R.CLK_TRIM_ERR_ERR : Field := ⟨0x11000c, 0, 1, 0, 24, .ro, 0⟩
/-- CLK_MUX (0x110010), R345. Fields from the most significant bit down. -/
def R.CLK_MUX_DDR : Field := ⟨0x110010, 0, 1, 2, 1, .rw, 0⟩
/-- CLK_MUX.SEQ (R345). -/
def R.CLK_MUX_SEQ : Field := ⟨0x110010, 0, 1, 1, 1, .rw, 0⟩
/-- CLK_MUX.CORE (R345). -/
def R.CLK_MUX_CORE : Field := ⟨0x110010, 0, 1, 0, 1, .rw, 0⟩
/-- CLK_MUX_STS (0x110014), R345. Fields from the most significant bit down. -/
def R.CLK_MUX_STS_BUSY : Field := ⟨0x110014, 0, 1, 0, 3, .ro, 0⟩
/-- CLK_GATE (0x110018), R345. Fields from the most significant bit down. -/
def R.CLK_GATE_ON : Field := ⟨0x110018, 0, 1, 0, 9, .st, 0⟩
/-- CLK_MON_STS (0x11001c), R345. Fields from the most significant bit down. -/
def R.CLK_MON_STS_OK : Field := ⟨0x11001c, 0, 1, 0, 10, .ro, 0⟩
/-- CLK_ERR_STS (0x110020), R345. Fields from the most significant bit down. -/
def R.CLK_ERR_STS_MUX_DROP : Field := ⟨0x110020, 0, 1, 4, 1, .w1c, 0⟩
/-- CLK_ERR_STS.BKO_FAIL (R345). -/
def R.CLK_ERR_STS_BKO_FAIL : Field := ⟨0x110020, 0, 1, 3, 1, .w1c, 0⟩
/-- CLK_ERR_STS.REF_LOST (R345). -/
def R.CLK_ERR_STS_REF_LOST : Field := ⟨0x110020, 0, 1, 2, 1, .w1c, 0⟩
/-- CLK_ERR_STS.LOCK_LOST (R345). -/
def R.CLK_ERR_STS_LOCK_LOST : Field := ⟨0x110020, 0, 1, 1, 1, .w1c, 0⟩
/-- CLK_ERR_STS.LOCK_GAINED (R345). -/
def R.CLK_ERR_STS_LOCK_GAINED : Field := ⟨0x110020, 0, 1, 0, 1, .w1c, 0⟩
/-- CLK_ERR_INFO (0x110024), R345. Fields from the most significant bit down. -/
def R.CLK_ERR_INFO_CAUSE : Field := ⟨0x110024, 0, 1, 29, 3, .ro, 0⟩
/-- CLK_ERR_INFO.MON (R345). -/
def R.CLK_ERR_INFO_MON : Field := ⟨0x110024, 0, 1, 8, 4, .ro, 0⟩
/-- CLK_ERR_INFO.KIND (R345). -/
def R.CLK_ERR_INFO_KIND : Field := ⟨0x110024, 0, 1, 0, 2, .ro, 0⟩
/-- CLK_IRQ_EN (0x110028), R345. Fields from the most significant bit down. -/
def R.CLK_IRQ_EN_EN : Field := ⟨0x110028, 0, 1, 0, 5, .rw, 0⟩
/-- CLK_MON_CNT (0x110100, array of 10), R345. Fields from the most significant bit down. -/
def R.CLK_MON_CNT_COUNT : Field := ⟨0x110100, 4, 10, 0, 16, .ro, 0⟩
/-- Registers of block CLK, part 0. -/
def regTabCLK0 : List Reg := [
  ⟨0x110000, 0, 1, false, [R.CLK_STS_HOLDOVER, R.CLK_STS_LOCK, R.CLK_STS_TREF_OK, R.CLK_STS_DDR_LOCK, R.CLK_STS_SEQ_LOCK, R.CLK_STS_CORE_LOCK, R.CLK_STS_BKO_OK, R.CLK_STS_XIN_OK]⟩,
  ⟨0x110004, 0, 1, false, [R.CLK_TRIM_CFG_SRC]⟩,
  ⟨0x110008, 0, 1, false, [R.CLK_TRIM_VALUE]⟩,
  ⟨0x11000c, 0, 1, false, [R.CLK_TRIM_ERR_VALID, R.CLK_TRIM_ERR_ERR]⟩,
  ⟨0x110010, 0, 1, false, [R.CLK_MUX_DDR, R.CLK_MUX_SEQ, R.CLK_MUX_CORE]⟩,
  ⟨0x110014, 0, 1, false, [R.CLK_MUX_STS_BUSY]⟩,
  ⟨0x110018, 0, 1, false, [R.CLK_GATE_ON]⟩,
  ⟨0x11001c, 0, 1, false, [R.CLK_MON_STS_OK]⟩,
  ⟨0x110020, 0, 1, false, [R.CLK_ERR_STS_MUX_DROP, R.CLK_ERR_STS_BKO_FAIL, R.CLK_ERR_STS_REF_LOST, R.CLK_ERR_STS_LOCK_LOST, R.CLK_ERR_STS_LOCK_GAINED]⟩,
  ⟨0x110024, 0, 1, false, [R.CLK_ERR_INFO_CAUSE, R.CLK_ERR_INFO_MON, R.CLK_ERR_INFO_KIND]⟩,
  ⟨0x110028, 0, 1, false, [R.CLK_IRQ_EN_EN]⟩,
  ⟨0x110100, 4, 10, false, [R.CLK_MON_CNT_COUNT]⟩]
/-- All registers of block CLK. -/
def regTabCLK : List Reg := regTabCLK0

/-! ## DOSE -/

/-- DOSE_CTL (0x120000), R346. Fields from the most significant bit down. -/
def R.DOSE_CTL_PMB_FAST : Field := ⟨0x120000, 0, 1, 0, 1, .st, 0⟩
/-- DOSE_BUDGET (0x120004), R346. Fields from the most significant bit down. -/
def R.DOSE_BUDGET_WATTS : Field := ⟨0x120004, 0, 1, 0, 8, .st, 75⟩
/-- DOSE_PLAN (0x120008), R346. Fields from the most significant bit down. -/
def R.DOSE_PLAN_WATTS : Field := ⟨0x120008, 0, 1, 0, 8, .rw, 0⟩
/-- DOSE_BASE_CFG (0x12000c), R346. Fields from the most significant bit down. -/
def R.DOSE_BASE_CFG_FIXED : Field := ⟨0x12000c, 0, 1, 31, 1, .st, 0⟩
/-- DOSE_BASE_CFG.MARGIN (R346). -/
def R.DOSE_BASE_CFG_MARGIN : Field := ⟨0x12000c, 0, 1, 16, 11, .st, 20⟩
/-- DOSE_BASE_CFG.VALUE (R346). -/
def R.DOSE_BASE_CFG_VALUE : Field := ⟨0x12000c, 0, 1, 0, 11, .st, 0⟩
/-- DOSE_THERM (0x120010), R346. Fields from the most significant bit down. -/
def R.DOSE_THERM_EN : Field := ⟨0x120010, 0, 1, 31, 1, .st, 0⟩
/-- DOSE_THERM.T_HI (R346). -/
def R.DOSE_THERM_T_HI : Field := ⟨0x120010, 0, 1, 8, 8, .st, 90⟩
/-- DOSE_THERM.WATTS (R346). -/
def R.DOSE_THERM_WATTS : Field := ⟨0x120010, 0, 1, 0, 8, .st, 40⟩
/-- DOSE_STS (0x120014), R346. Fields from the most significant bit down. -/
def R.DOSE_STS_BROWNOUT : Field := ⟨0x120014, 0, 1, 31, 1, .ro, 0⟩
/-- DOSE_STS.THERM (R346). -/
def R.DOSE_STS_THERM : Field := ⟨0x120014, 0, 1, 30, 1, .ro, 0⟩
/-- DOSE_STS.HIST (R346). -/
def R.DOSE_STS_HIST : Field := ⟨0x120014, 0, 1, 29, 1, .ro, 0⟩
/-- DOSE_STS.BUDGET (R346). -/
def R.DOSE_STS_BUDGET : Field := ⟨0x120014, 0, 1, 16, 11, .ro, 0⟩
/-- DOSE_STS.BASE (R346). -/
def R.DOSE_STS_BASE : Field := ⟨0x120014, 0, 1, 0, 11, .ro, 0⟩
/-- DOSE_ERR_STS (0x120018), R346. Fields from the most significant bit down. -/
def R.DOSE_ERR_STS_BASE_HIGH : Field := ⟨0x120018, 0, 1, 5, 1, .w1c, 0⟩
/-- DOSE_ERR_STS.THERM (R346). -/
def R.DOSE_ERR_STS_THERM : Field := ⟨0x120018, 0, 1, 4, 1, .w1c, 0⟩
/-- DOSE_ERR_STS.OVER (R346). -/
def R.DOSE_ERR_STS_OVER : Field := ⟨0x120018, 0, 1, 3, 1, .w1c, 0⟩
/-- DOSE_ERR_STS.PMB_ERR (R346). -/
def R.DOSE_ERR_STS_PMB_ERR : Field := ⟨0x120018, 0, 1, 2, 1, .w1c, 0⟩
/-- DOSE_ERR_STS.BROWN_CLR (R346). -/
def R.DOSE_ERR_STS_BROWN_CLR : Field := ⟨0x120018, 0, 1, 1, 1, .w1c, 0⟩
/-- DOSE_ERR_STS.BROWN_SET (R346). -/
def R.DOSE_ERR_STS_BROWN_SET : Field := ⟨0x120018, 0, 1, 0, 1, .w1c, 0⟩
/-- DOSE_ERR_INFO (0x12001c), R346. Fields from the most significant bit down. -/
def R.DOSE_ERR_INFO_CAUSE : Field := ⟨0x12001c, 0, 1, 29, 3, .ro, 0⟩
/-- DOSE_ERR_INFO.RAIL (R346). -/
def R.DOSE_ERR_INFO_RAIL : Field := ⟨0x12001c, 0, 1, 0, 4, .ro, 0⟩
/-- DOSE_IRQ_EN (0x120020), R346. Fields from the most significant bit down. -/
def R.DOSE_IRQ_EN_EN : Field := ⟨0x120020, 0, 1, 0, 6, .rw, 0⟩
/-- DOSE_CNT_ENERGY (0x120028, 64-bit), R346. Fields from the most significant bit down. -/
def R.DOSE_CNT_ENERGY_COUNT : Field := ⟨0x120028, 0, 1, 0, 64, .ro, 0⟩
/-- DOSE_RAIL_CFG (0x120100, array of 7), R346. Fields from the most significant bit down. -/
def R.DOSE_RAIL_CFG_EN : Field := ⟨0x120100, 4, 7, 31, 1, .st, 0⟩
/-- DOSE_RAIL_CFG.LIMIT (R346). -/
def R.DOSE_RAIL_CFG_LIMIT : Field := ⟨0x120100, 4, 7, 16, 10, .st, 0⟩
/-- DOSE_RAIL_CFG.PAGE (R346). -/
def R.DOSE_RAIL_CFG_PAGE : Field := ⟨0x120100, 4, 7, 8, 8, .st, 0⟩
/-- DOSE_RAIL_CFG.ADDR (R346). -/
def R.DOSE_RAIL_CFG_ADDR : Field := ⟨0x120100, 4, 7, 0, 7, .st, 0⟩
/-- DOSE_RAIL_TEL (0x120140, array of 7), R346. Fields from the most significant bit down. -/
def R.DOSE_RAIL_TEL_IOUT : Field := ⟨0x120140, 4, 7, 16, 12, .ro, 0⟩
/-- DOSE_RAIL_TEL.VOUT (R346). -/
def R.DOSE_RAIL_TEL_VOUT : Field := ⟨0x120140, 4, 7, 0, 12, .ro, 0⟩
/-- Registers of block DOSE, part 0. -/
def regTabDOSE0 : List Reg := [
  ⟨0x120000, 0, 1, false, [R.DOSE_CTL_PMB_FAST]⟩,
  ⟨0x120004, 0, 1, false, [R.DOSE_BUDGET_WATTS]⟩,
  ⟨0x120008, 0, 1, false, [R.DOSE_PLAN_WATTS]⟩,
  ⟨0x12000c, 0, 1, false, [R.DOSE_BASE_CFG_FIXED, R.DOSE_BASE_CFG_MARGIN, R.DOSE_BASE_CFG_VALUE]⟩,
  ⟨0x120010, 0, 1, false, [R.DOSE_THERM_EN, R.DOSE_THERM_T_HI, R.DOSE_THERM_WATTS]⟩,
  ⟨0x120014, 0, 1, false, [R.DOSE_STS_BROWNOUT, R.DOSE_STS_THERM, R.DOSE_STS_HIST, R.DOSE_STS_BUDGET, R.DOSE_STS_BASE]⟩,
  ⟨0x120018, 0, 1, false, [R.DOSE_ERR_STS_BASE_HIGH, R.DOSE_ERR_STS_THERM, R.DOSE_ERR_STS_OVER, R.DOSE_ERR_STS_PMB_ERR, R.DOSE_ERR_STS_BROWN_CLR, R.DOSE_ERR_STS_BROWN_SET]⟩,
  ⟨0x12001c, 0, 1, false, [R.DOSE_ERR_INFO_CAUSE, R.DOSE_ERR_INFO_RAIL]⟩,
  ⟨0x120020, 0, 1, false, [R.DOSE_IRQ_EN_EN]⟩,
  ⟨0x120028, 0, 1, true, [R.DOSE_CNT_ENERGY_COUNT]⟩,
  ⟨0x120100, 4, 7, false, [R.DOSE_RAIL_CFG_EN, R.DOSE_RAIL_CFG_LIMIT, R.DOSE_RAIL_CFG_PAGE, R.DOSE_RAIL_CFG_ADDR]⟩,
  ⟨0x120140, 4, 7, false, [R.DOSE_RAIL_TEL_IOUT, R.DOSE_RAIL_TEL_VOUT]⟩]
/-- All registers of block DOSE. -/
def regTabDOSE : List Reg := regTabDOSE0

/-! ## NET -/

/-- NET_CFG (0x130000), R368. Fields from the most significant bit down. -/
def R.NET_CFG_TUN_EN : Field := ⟨0x130000, 0, 1, 0, 1, .st, 0⟩
/-- NET_STS (0x130004), R368. Fields from the most significant bit down. -/
def R.NET_STS_MEMBER : Field := ⟨0x130004, 0, 1, 31, 1, .ro, 0⟩ -- reset: From MRAM
/-- NET_STS.BENCH (R368). -/
def R.NET_STS_BENCH : Field := ⟨0x130004, 0, 1, 30, 1, .ro, 0⟩ -- reset: From MRAM
/-- NET_STS.ALIGNED (R368). -/
def R.NET_STS_ALIGNED : Field := ⟨0x130004, 0, 1, 29, 1, .ro, 0⟩
/-- NET_STS.TUNNELLED (R368). -/
def R.NET_STS_TUNNELLED : Field := ⟨0x130004, 0, 1, 28, 1, .ro, 0⟩
/-- NET_STS.MARK_PORT (R368). -/
def R.NET_STS_MARK_PORT : Field := ⟨0x130004, 0, 1, 16, 2, .ro, 0⟩
/-- NET_STS.MARK_HOPS (R368). -/
def R.NET_STS_MARK_HOPS : Field := ⟨0x130004, 0, 1, 12, 4, .ro, 0⟩
/-- NET_STS.ID (R368). -/
def R.NET_STS_ID : Field := ⟨0x130004, 0, 1, 0, 12, .ro, 0⟩ -- reset: From MRAM
/-- NET_CMD (0x130008), R368. Fields from the most significant bit down. -/
def R.NET_CMD_OP : Field := ⟨0x130008, 0, 1, 28, 4, .wo, 0⟩
/-- NET_CMD.MEMBER (R368). -/
def R.NET_CMD_MEMBER : Field := ⟨0x130008, 0, 1, 16, 12, .wo, 0⟩
/-- NET_CMD.AUTO (R368). -/
def R.NET_CMD_AUTO : Field := ⟨0x130008, 0, 1, 15, 1, .wo, 0⟩
/-- NET_CMD.ARG (R368). -/
def R.NET_CMD_ARG : Field := ⟨0x130008, 0, 1, 0, 10, .wo, 0⟩
/-- NET_CMD_STS (0x13000c), R368. Fields from the most significant bit down. -/
def R.NET_CMD_STS_BUSY : Field := ⟨0x13000c, 0, 1, 31, 1, .ro, 0⟩
/-- NET_CMD_STS.ERR (R368). -/
def R.NET_CMD_STS_ERR : Field := ⟨0x13000c, 0, 1, 0, 8, .ro, 0⟩
/-- NET_CMD_ADDR (0x130010, 64-bit), R368. Fields from the most significant bit down. -/
def R.NET_CMD_ADDR_ADDR : Field := ⟨0x130010, 0, 1, 12, 52, .rw, 0⟩
/-- NET_ERR_STS (0x130018), R368. Fields from the most significant bit down. -/
def R.NET_ERR_STS_SLIP : Field := ⟨0x130018, 0, 1, 6, 1, .w1c, 0⟩
/-- NET_ERR_STS.CONFLICT (R368). -/
def R.NET_ERR_STS_CONFLICT : Field := ⟨0x130018, 0, 1, 5, 1, .w1c, 0⟩
/-- NET_ERR_STS.NOT_HOME (R368). -/
def R.NET_ERR_STS_NOT_HOME : Field := ⟨0x130018, 0, 1, 4, 1, .w1c, 0⟩
/-- NET_ERR_STS.LEASE (R368). -/
def R.NET_ERR_STS_LEASE : Field := ⟨0x130018, 0, 1, 3, 1, .w1c, 0⟩
/-- NET_ERR_STS.TUN_FULL (R368). -/
def R.NET_ERR_STS_TUN_FULL : Field := ⟨0x130018, 0, 1, 2, 1, .w1c, 0⟩
/-- NET_ERR_STS.MSG_DROP (R368). -/
def R.NET_ERR_STS_MSG_DROP : Field := ⟨0x130018, 0, 1, 1, 1, .w1c, 0⟩
/-- NET_ERR_STS.LINK_DOWN (R368). -/
def R.NET_ERR_STS_LINK_DOWN : Field := ⟨0x130018, 0, 1, 0, 1, .w1c, 0⟩
/-- NET_ERR_INFO (0x13001c), R368. Fields from the most significant bit down. -/
def R.NET_ERR_INFO_CAUSE : Field := ⟨0x13001c, 0, 1, 29, 3, .ro, 0⟩
/-- NET_ERR_INFO.PORT (R368). -/
def R.NET_ERR_INFO_PORT : Field := ⟨0x13001c, 0, 1, 24, 2, .ro, 0⟩
/-- NET_ERR_INFO.MEMBER (R368). -/
def R.NET_ERR_INFO_MEMBER : Field := ⟨0x13001c, 0, 1, 12, 12, .ro, 0⟩
/-- NET_ERR_INFO.SLICE (R368). -/
def R.NET_ERR_INFO_SLICE : Field := ⟨0x13001c, 0, 1, 0, 10, .ro, 0⟩
/-- NET_IRQ_EN (0x130020), R368. Fields from the most significant bit down. -/
def R.NET_IRQ_EN_EN : Field := ⟨0x130020, 0, 1, 0, 7, .rw, 0⟩
/-- NET_TUN_TX (0x130028, 64-bit), R368. Fields from the most significant bit down. -/
def R.NET_TUN_TX_BASE : Field := ⟨0x130028, 0, 1, 12, 52, .st, 0⟩
/-- NET_TUN_TX.SIZE (R368). -/
def R.NET_TUN_TX_SIZE : Field := ⟨0x130028, 0, 1, 0, 4, .st, 0⟩
/-- NET_TUN_RX (0x130030, 64-bit), R368. Fields from the most significant bit down. -/
def R.NET_TUN_RX_BASE : Field := ⟨0x130030, 0, 1, 12, 52, .st, 0⟩
/-- NET_TUN_RX.SIZE (R368). -/
def R.NET_TUN_RX_SIZE : Field := ⟨0x130030, 0, 1, 0, 4, .st, 0⟩
/-- NET_TUN_PTR (0x130038, 64-bit), R368. Fields from the most significant bit down. -/
def R.NET_TUN_PTR_TX_ACK : Field := ⟨0x130038, 0, 1, 48, 16, .rw, 0⟩
/-- NET_TUN_PTR.TX_HEAD (R368). -/
def R.NET_TUN_PTR_TX_HEAD : Field := ⟨0x130038, 0, 1, 32, 16, .ro, 0⟩
/-- NET_TUN_PTR.RX_TAIL (R368). -/
def R.NET_TUN_PTR_RX_TAIL : Field := ⟨0x130038, 0, 1, 16, 16, .rw, 0⟩
/-- NET_TUN_PTR.RX_HEAD (R368). -/
def R.NET_TUN_PTR_RX_HEAD : Field := ⟨0x130038, 0, 1, 0, 16, .ro, 0⟩
/-- NET_PORT_CTL (0x130100, array of 4), R368. Fields from the most significant bit down. -/
def R.NET_PORT_CTL_EN : Field := ⟨0x130100, 4, 4, 0, 1, .st, 0⟩
/-- NET_PORT_STS (0x130120, array of 4), R368. Fields from the most significant bit down. -/
def R.NET_PORT_STS_STATE : Field := ⟨0x130120, 4, 4, 29, 3, .ro, 0⟩
/-- NET_PORT_STS.SWAP (R368). -/
def R.NET_PORT_STS_SWAP : Field := ⟨0x130120, 4, 4, 28, 1, .ro, 0⟩
/-- NET_PORT_STS.RX_INV (R368). -/
def R.NET_PORT_STS_RX_INV : Field := ⟨0x130120, 4, 4, 27, 1, .ro, 0⟩
/-- NET_PORT_STS.TX_INV (R368). -/
def R.NET_PORT_STS_TX_INV : Field := ⟨0x130120, 4, 4, 26, 1, .ro, 0⟩
/-- NET_PORT_STS.CAUSE (R368). -/
def R.NET_PORT_STS_CAUSE : Field := ⟨0x130120, 4, 4, 24, 2, .ro, 0⟩
/-- NET_PORT_STS.KEYID (R368). -/
def R.NET_PORT_STS_KEYID : Field := ⟨0x130120, 4, 4, 20, 4, .ro, 0⟩
/-- NET_PORT_STS.PEER (R368). -/
def R.NET_PORT_STS_PEER : Field := ⟨0x130120, 4, 4, 0, 12, .ro, 0⟩
/-- NET_PORT_CNT (0x130140, array of 4, 64-bit), R368. Fields from the most significant bit down. -/
def R.NET_PORT_CNT_REPLAY : Field := ⟨0x130140, 8, 4, 32, 32, .ro, 0⟩
/-- NET_PORT_CNT.TAG_FAIL (R368). -/
def R.NET_PORT_CNT_TAG_FAIL : Field := ⟨0x130140, 8, 4, 0, 32, .ro, 0⟩
/-- NET_SLICE (0x131000, array of 1024), R368. Fields from the most significant bit down. -/
def R.NET_SLICE_REPL : Field := ⟨0x131000, 4, 1024, 31, 1, .st, 0⟩ -- reset: From MRAM
/-- NET_SLICE.LEASE_OK (R368). -/
def R.NET_SLICE_LEASE_OK : Field := ⟨0x131000, 4, 1024, 30, 1, .ro, 0⟩
/-- NET_SLICE.PEND (R368). -/
def R.NET_SLICE_PEND : Field := ⟨0x131000, 4, 1024, 12, 12, .ro, 0⟩
/-- NET_SLICE.HOME (R368). -/
def R.NET_SLICE_HOME : Field := ⟨0x131000, 4, 1024, 0, 12, .ro, 0⟩ -- reset: From MRAM
/-- NET_MEMBER (0x134000, array of 4096, 64-bit), R368. Fields from the most significant bit down. -/
def R.NET_MEMBER_STATE : Field := ⟨0x134000, 8, 4096, 62, 2, .ro, 0⟩ -- reset: From MRAM
/-- NET_MEMBER.PATH (R368). -/
def R.NET_MEMBER_PATH : Field := ⟨0x134000, 8, 4096, 60, 2, .ro, 0⟩
/-- NET_MEMBER.HOPS (R368). -/
def R.NET_MEMBER_HOPS : Field := ⟨0x134000, 8, 4096, 56, 4, .ro, 0⟩
/-- NET_MEMBER.PORT (R368). -/
def R.NET_MEMBER_PORT : Field := ⟨0x134000, 8, 4096, 54, 2, .ro, 0⟩
/-- NET_MEMBER.DEV (R368). -/
def R.NET_MEMBER_DEV : Field := ⟨0x134000, 8, 4096, 0, 48, .ro, 0⟩ -- reset: From MRAM
/-- Registers of block NET, part 0. -/
def regTabNET0 : List Reg := [
  ⟨0x130000, 0, 1, false, [R.NET_CFG_TUN_EN]⟩,
  ⟨0x130004, 0, 1, false, [R.NET_STS_MEMBER, R.NET_STS_BENCH, R.NET_STS_ALIGNED, R.NET_STS_TUNNELLED, R.NET_STS_MARK_PORT, R.NET_STS_MARK_HOPS, R.NET_STS_ID]⟩,
  ⟨0x130008, 0, 1, false, [R.NET_CMD_OP, R.NET_CMD_MEMBER, R.NET_CMD_AUTO, R.NET_CMD_ARG]⟩,
  ⟨0x13000c, 0, 1, false, [R.NET_CMD_STS_BUSY, R.NET_CMD_STS_ERR]⟩,
  ⟨0x130010, 0, 1, true, [R.NET_CMD_ADDR_ADDR]⟩,
  ⟨0x130018, 0, 1, false, [R.NET_ERR_STS_SLIP, R.NET_ERR_STS_CONFLICT, R.NET_ERR_STS_NOT_HOME, R.NET_ERR_STS_LEASE, R.NET_ERR_STS_TUN_FULL, R.NET_ERR_STS_MSG_DROP, R.NET_ERR_STS_LINK_DOWN]⟩,
  ⟨0x13001c, 0, 1, false, [R.NET_ERR_INFO_CAUSE, R.NET_ERR_INFO_PORT, R.NET_ERR_INFO_MEMBER, R.NET_ERR_INFO_SLICE]⟩,
  ⟨0x130020, 0, 1, false, [R.NET_IRQ_EN_EN]⟩,
  ⟨0x130028, 0, 1, true, [R.NET_TUN_TX_BASE, R.NET_TUN_TX_SIZE]⟩,
  ⟨0x130030, 0, 1, true, [R.NET_TUN_RX_BASE, R.NET_TUN_RX_SIZE]⟩,
  ⟨0x130038, 0, 1, true, [R.NET_TUN_PTR_TX_ACK, R.NET_TUN_PTR_TX_HEAD, R.NET_TUN_PTR_RX_TAIL, R.NET_TUN_PTR_RX_HEAD]⟩,
  ⟨0x130100, 4, 4, false, [R.NET_PORT_CTL_EN]⟩]
/-- Registers of block NET, part 1. -/
def regTabNET1 : List Reg := [
  ⟨0x130120, 4, 4, false, [R.NET_PORT_STS_STATE, R.NET_PORT_STS_SWAP, R.NET_PORT_STS_RX_INV, R.NET_PORT_STS_TX_INV, R.NET_PORT_STS_CAUSE, R.NET_PORT_STS_KEYID, R.NET_PORT_STS_PEER]⟩,
  ⟨0x130140, 8, 4, true, [R.NET_PORT_CNT_REPLAY, R.NET_PORT_CNT_TAG_FAIL]⟩,
  ⟨0x131000, 4, 1024, false, [R.NET_SLICE_REPL, R.NET_SLICE_LEASE_OK, R.NET_SLICE_PEND, R.NET_SLICE_HOME]⟩,
  ⟨0x134000, 8, 4096, true, [R.NET_MEMBER_STATE, R.NET_MEMBER_PATH, R.NET_MEMBER_HOPS, R.NET_MEMBER_PORT, R.NET_MEMBER_DEV]⟩]
/-- All registers of block NET. -/
def regTabNET : List Reg := regTabNET0 ++ regTabNET1

/-! ## MGT -/

/-- MGT_GPIO_DIR (0x140000), R399. Fields from the most significant bit down. -/
def R.MGT_GPIO_DIR_OUT_EN : Field := ⟨0x140000, 0, 1, 0, 8, .rw, 0⟩
/-- MGT_GPIO_OUT (0x140004), R399. Fields from the most significant bit down. -/
def R.MGT_GPIO_OUT_LEVEL : Field := ⟨0x140004, 0, 1, 0, 8, .rw, 0⟩
/-- MGT_GPIO_IN (0x140008), R399. Fields from the most significant bit down. -/
def R.MGT_GPIO_IN_LEVEL : Field := ⟨0x140008, 0, 1, 0, 8, .ro, 0⟩ -- reset: Pins
/-- MGT_PIN_STS (0x140010), R399. Fields from the most significant bit down. -/
def R.MGT_PIN_STS_DBG_TRST_N : Field := ⟨0x140010, 0, 1, 7, 1, .ro, 0⟩ -- reset: Pins
/-- MGT_PIN_STS.TREF (R399). -/
def R.MGT_PIN_STS_TREF : Field := ⟨0x140010, 0, 1, 6, 1, .ro, 0⟩ -- reset: Pins
/-- MGT_PIN_STS.TAMPER_OUT (R399). -/
def R.MGT_PIN_STS_TAMPER_OUT : Field := ⟨0x140010, 0, 1, 5, 1, .ro, 0⟩ -- reset: Pins
/-- MGT_PIN_STS.PERST_B_N (R399). -/
def R.MGT_PIN_STS_PERST_B_N : Field := ⟨0x140010, 0, 1, 4, 1, .ro, 0⟩ -- reset: Pins
/-- MGT_PIN_STS.PERST_A_N (R399). -/
def R.MGT_PIN_STS_PERST_A_N : Field := ⟨0x140010, 0, 1, 3, 1, .ro, 0⟩ -- reset: Pins
/-- MGT_PIN_STS.ALERT_N (R399). -/
def R.MGT_PIN_STS_ALERT_N : Field := ⟨0x140010, 0, 1, 2, 1, .ro, 0⟩ -- reset: Pins
/-- MGT_PIN_STS.ZEROIZE_N (R399). -/
def R.MGT_PIN_STS_ZEROIZE_N : Field := ⟨0x140010, 0, 1, 1, 1, .ro, 0⟩ -- reset: Pins
/-- MGT_PIN_STS.PWR_FAIL_N (R399). -/
def R.MGT_PIN_STS_PWR_FAIL_N : Field := ⟨0x140010, 0, 1, 0, 1, .ro, 0⟩ -- reset: Pins
/-- MGT_PMB_STS (0x140014), R399. Fields from the most significant bit down. -/
def R.MGT_PMB_STS_BUSY : Field := ⟨0x140014, 0, 1, 31, 1, .ro, 0⟩
/-- MGT_PMB_STS.ADDR (R399). -/
def R.MGT_PMB_STS_ADDR : Field := ⟨0x140014, 0, 1, 24, 7, .ro, 0⟩
/-- MGT_PMB_STS.CMD (R399). -/
def R.MGT_PMB_STS_CMD : Field := ⟨0x140014, 0, 1, 16, 8, .ro, 0⟩
/-- MGT_PMB_STS.PAGE (R399). -/
def R.MGT_PMB_STS_PAGE : Field := ⟨0x140014, 0, 1, 8, 8, .ro, 0⟩
/-- MGT_PMB_ERR (0x140018), R399. Fields from the most significant bit down. -/
def R.MGT_PMB_ERR_STUCK : Field := ⟨0x140018, 0, 1, 3, 1, .w1c, 0⟩
/-- MGT_PMB_ERR.MODE (R399). -/
def R.MGT_PMB_ERR_MODE : Field := ⟨0x140018, 0, 1, 2, 1, .w1c, 0⟩
/-- MGT_PMB_ERR.TIMEOUT (R399). -/
def R.MGT_PMB_ERR_TIMEOUT : Field := ⟨0x140018, 0, 1, 1, 1, .w1c, 0⟩
/-- MGT_PMB_ERR.NACK (R399). -/
def R.MGT_PMB_ERR_NACK : Field := ⟨0x140018, 0, 1, 0, 1, .w1c, 0⟩
/-- Registers of block MGT, part 0. -/
def regTabMGT0 : List Reg := [
  ⟨0x140000, 0, 1, false, [R.MGT_GPIO_DIR_OUT_EN]⟩,
  ⟨0x140004, 0, 1, false, [R.MGT_GPIO_OUT_LEVEL]⟩,
  ⟨0x140008, 0, 1, false, [R.MGT_GPIO_IN_LEVEL]⟩,
  ⟨0x140010, 0, 1, false, [R.MGT_PIN_STS_DBG_TRST_N, R.MGT_PIN_STS_TREF, R.MGT_PIN_STS_TAMPER_OUT, R.MGT_PIN_STS_PERST_B_N, R.MGT_PIN_STS_PERST_A_N, R.MGT_PIN_STS_ALERT_N, R.MGT_PIN_STS_ZEROIZE_N, R.MGT_PIN_STS_PWR_FAIL_N]⟩,
  ⟨0x140014, 0, 1, false, [R.MGT_PMB_STS_BUSY, R.MGT_PMB_STS_ADDR, R.MGT_PMB_STS_CMD, R.MGT_PMB_STS_PAGE]⟩,
  ⟨0x140018, 0, 1, false, [R.MGT_PMB_ERR_STUCK, R.MGT_PMB_ERR_MODE, R.MGT_PMB_ERR_TIMEOUT, R.MGT_PMB_ERR_NACK]⟩]
/-- All registers of block MGT. -/
def regTabMGT : List Reg := regTabMGT0

/-- The registers of the block that starts at 64 KB block number `n` (R15). -/
def regTabOf (n : Nat) : List Reg :=
  match n with
  | 0 => regTabGLB
  | 1 => regTabHIF
  | 2 => regTabTRV
  | 3 => regTabTU
  | 4 => regTabCL
  | 5 => regTabPK
  | 6 => regTabLU
  | 7 => regTabHL
  | 8 => regTabKS
  | 9 => regTabRNG
  | 10 => regTabLC
  | 11 => regTabQU
  | 12 => regTabTMP
  | 13 => regTabGRD
  | 14 => regTabMSC
  | 15 => regTabFB
  | 16 => regTabUPD
  | 17 => regTabCLK
  | 18 => regTabDOSE
  | 19 => regTabNET
  | 20 => regTabMGT
  | _ => []

/-- The register and element that occupy BAR0 offset `a`, if any (R14). -/
def regAt (a : Nat) : Option (Reg × Nat) :=
  (regTabOf (a / 0x10000)).findSome? (fun r =>
    if a = r.off then some (r, 0)
    else if r.stride ≠ 0 ∧ r.off ≤ a ∧ (a - r.off) % r.stride = 0 ∧ (a - r.off) / r.stride < r.count
    then some (r, (a - r.off) / r.stride) else none)

end Sys2Proof.Machine
end

