-- ==== Sys2Proof/Machine/Tab.lean ====
section
/-! DEFINITION. A sparse table: a list of (key, value) pairs in one canonical form, keys strictly
rising and no value equal to what an unlisted key reads as. Every array of the model that the spec
lays out over an address or index range is such a table, so equal arrays are equal data. -/

namespace Sys2Proof.Machine

/-- A sparse table from `Nat` keys. -/
abbrev Tab (α : Type) := List (Nat × α)

/-- What key `k` reads as; an unlisted key reads as `d`. -/
def Tab.get {α : Type} (d : α) : Tab α → Nat → α
  | [], _ => d
  | (j, v) :: t, k => if j = k then v else Tab.get d t k

/-- The table without key `k`. -/
def Tab.del {α : Type} : Tab α → Nat → Tab α
  | [], _ => []
  | (j, v) :: t, k => if j = k then Tab.del t k else (j, v) :: Tab.del t k

/-- The table with key `k` listed as `v`, in key order. -/
def Tab.ins {α : Type} : Tab α → Nat → α → Tab α
  | [], k, v => [(k, v)]
  | (j, w) :: t, k, v =>
    if k < j then (k, v) :: (j, w) :: t
    else if k = j then (k, v) :: t
    else (j, w) :: Tab.ins t k v

/-- The table in which key `k` reads as `v`: writing the default removes the entry. -/
def Tab.put {α : Type} [DecidableEq α] (d : α) (t : Tab α) (k : Nat) (v : α) : Tab α :=
  if v = d then t.del k else t.ins k v

/-- The value at key `k` changed by `f`. -/
def Tab.upd {α : Type} [DecidableEq α] (d : α) (t : Tab α) (k : Nat) (f : α → α) : Tab α :=
  Tab.put d t k (f (Tab.get d t k))

/-- Every listed value changed by `f`; entries that become the default leave. -/
def Tab.mapv {α : Type} [DecidableEq α] (d : α) (f : α → α) (t : Tab α) : Tab α :=
  (t.map (fun e => (e.1, f e.2))).filter (fun e => decide (e.2 ≠ d))

/-- Only the entries whose key satisfies `p`. -/
def Tab.keep {α : Type} (p : Nat → Bool) (t : Tab α) : Tab α := t.filter (fun e => p e.1)

/-- Every listed key satisfies `p`. -/
def Tab.keysAbove {α : Type} (k : Nat) (t : Tab α) : Bool := t.all (fun e => decide (k < e.1))

/-- The canonical form: keys strictly rising, and no entry equal to the default. -/
def Tab.wf {α : Type} [DecidableEq α] (d : α) : Tab α → Bool
  | [] => true
  | (k, v) :: t => decide (v ≠ d) && Tab.keysAbove k t && Tab.wf d t

end Sys2Proof.Machine
end

