-- ==== Sys2Proof/Machine/State.lean ====
section
/-! DEFINITION. The state of the KV9640: every register field, FIFO, buffer, counter, mode and pin the spec gives
the block, as plain data, and the queue of commands that wait. A register whose value the spec derives from other
state (TRV_INFLIGHT, HIF_SLICE_STATE, KS_SLICE_DOM and the like) is read from that state. -/

namespace Sys2Proof.Machine

/-! ## Host interface (R36 to R64) -/

/-- The slice states of HIF_SLICE_STATE.STATE (R64). -/
inductive SliceSt where
  | disabled | ready | resetting | quiescing | quiesced
deriving DecidableEq, Repr

/-- A slice operation accepted and waiting for its boundary (R58, R59). -/
inductive SliceOp where
  | reset | quiesce | resume | disable
deriving DecidableEq, Repr

/-- A submission ring (R43, R44, R401). -/
structure Ring where
  en : Bool := false
  fault : Bool := false
  base : Nat := 0
  /-- slots: 64 times 2 to the SIZE -/
  size : Nat := 64
  head : Nat := 0
  tail : Nat := 0
  /-- descriptors held and not yet observed: (descriptor number, 128 bytes) -/
  held : Tab Bytes := []
  /-- counts of accepted doorbells not yet observable, oldest first; whether the last came in the present frame -/
  bells : List Nat := []
  belled : Bool := false
  /-- the count up to which descriptors may be observed (R28) -/
  ready : Nat := 0
  /-- the number of a descriptor whose fetch failed (R401) -/
  failed : Option Nat := none
deriving DecidableEq, Repr

/-- A slice context block in its parsed form (R41). -/
structure SliceCtx where
  enable : Bool := false
  home : Nat := 0
  intrEn : Bool := false
  logEn : Bool := false
  pasid : Nat := 0
  ringEn : Nat := 0
  initGen : Nat := 0
  logBase : Nat := 0
  logSize : Nat := 0
  /-- per ring: base address, SIZE, INIT_HEAD -/
  rings : List (Nat × Nat × Nat) := []
deriving DecidableEq, Repr

/-- A slice as the HIF holds it (R41, R45, R58 to R61). -/
structure Slice where
  st : SliceSt := .disabled
  gen : Nat := 0
  /-- the port in use: 0 = A, 1 = B (R38) -/
  port : Nat := 0
  ctx : SliceCtx := {}
  rings : Tab Ring := []
  /-- the operation accepted and not yet in effect -/
  op : Option SliceOp := none
  /-- the boundary B at which the last RESET or DISABLE took effect, plus 2: entries free and READY (R58, R59) -/
  until2 : Option Nat := none
  staleDrops : Nat := 0
  badDesc : Nat := 0
  logCount : Nat := 0
  logAck : Nat := 0
  logOvf : Bool := false
  /-- an INTR status word was issued in this frame (R55) -/
  intr : Bool := false
  /-- the ephemeral key EK_s waits for its draw (R221) -/
  ekWait : Bool := false
  /-- continuation entries (R169): entry to (SEQ, TYPE, frame of issue) -/
  cont : Tab (Nat × Nat × Nat) := []
  contSeq : Nat := 0
deriving DecidableEq, Repr

/-- The kinds of posted write (R50, R52). -/
inductive PostKind where
  | result | logEntry | status | msix | admin
deriving DecidableEq, Repr

/-- A posted write to the host. -/
structure Post where
  port : Nat
  kind : PostKind
  slice : Nat
  gen : Nat
  cmd : Nat
  addr : Nat
  data : Bytes
  /-- carries Relaxed Ordering (R51) -/
  ro : Bool := false
deriving DecidableEq, Repr

/-- Host interface state beyond the registers. -/
structure Hif where
  slices : Tab Slice := []
  /-- writes queued and waiting for posted-write credit, oldest first (R53) -/
  txq : List Post := []
  /-- writes transmitted, oldest first: what the host has seen -/
  sent : List Post := []
  creditA : Bool := true
  creditB : Bool := true
  /-- consecutive frames without credit, port A and B (R53) -/
  dryA : Nat := 0
  dryB : Nat := 0
  /-- a port stall refuses new descriptors from the boundary after it began -/
  lostA : Bool := false
  lostB : Bool := false
  /-- the slice number of a LOAD whose block read is under way (R42, R64) -/
  loading : Option Nat := none
  /-- staged LOADs (R42): slice to context block -/
  staged : Tab SliceCtx := []
  /-- MSI-X vectors unmasked and pending: function times 1,024 plus vector (R55) -/
  unmasked : Tab Bool := []
  pba : Tab Bool := []
  /-- address and data of the MSI-X table entries: 4 times that number plus dword 0 to 2 (R39, R385) -/
  msixTab : Tab Nat := []
  /-- functions in D3hot: port times 2 plus function (R36) -/
  d3 : Tab Bool := []
  /-- every doorbell is dropped until reset (R62) -/
  dropDoorbells : Bool := false
  /-- a port whose slices move to the other one at the next boundary (R38) -/
  moving : Option Nat := none
deriving DecidableEq, Repr

/-! ## Traverse (R65 to R86) -/

/-- The execution-phase cost vector of a command (R68), with its width and its output bytes per step. -/
structure Cost where
  k : Nat := 0
  tu : Nat := 0
  cl : Nat := 0
  hl : Nat := 0
  pk : Nat := 0
  lu : Nat := 0
  w : Nat := 8
  rnd : Nat := 0
  dose : Nat := 0
  fb : Nat := 0
  /-- write-ledger bytes of the output of each step, then of the status word phase -/
  out : List Nat := []
deriving DecidableEq, Repr

/-- Where a command stands (R77, R78). -/
inductive CmdSt where
  /-- held: waits for its delay and its predecessors -/
  | held
  /-- released and not yet admitted (R78) -/
  | released
  /-- admitted -/
  | active
  /-- its status word is ready and waits for its order group (R81) -/
  | grouped
  /-- refused or finished: its entry is being removed -/
  | done
deriving DecidableEq, Repr

/-- A key as the KRC, the second tier or a command holds it (R191, R193). -/
structure KeyRec where
  handle : Nat := 0
  attr : Nat := 0
  pidx : Nat := 0
  alg : Nat := 0
  pgen : Nat := 0
  epoch : Nat := 0
  mlen : Nat := 0
  material : Bytes := []
  /-- body key of a long blob, and the body as sealed -/
  bk : Bytes := []
  body : Bytes := []
deriving DecidableEq, Repr

/-- Generations and revocations as they stood at an admission (R200). -/
structure RevView where
  gens : Tab Nat := []
  gen0 : Nat := 0
  revoked : List Nat := []
deriving DecidableEq, Repr

/-- An in-flight command: one entry of the in-flight table (R32, R77). -/
structure Cmd where
  id : Nat
  slice : Nat
  gen : Nat
  ring : Nat
  slot : Nat
  desc : Bytes
  st : CmdSt
  /-- observation frame -/
  obs : Nat
  dep : Nat := 0
  release : Nat := 0
  tries : Nat := 0
  /-- admission order -/
  seq : Nat := 0
  f : Nat := 0
  d : Nat := 0
  p : Nat := 0
  s : Nat := 0
  cost : Cost := {}
  promise : Nat := 0
  rndLeft : Nat := 0
  /-- TU_SLICE_POLICY of the slice at admission (R93) -/
  policy : Nat := 0
  /-- a Key Custodian session was open at admission (R208), its id, and the custodians signed in with their transport
  keys (R211, R247) -/
  custodian : Bool := false
  sessId : Nat := 0
  custodians : List (Nat × Option Bytes) := []
  rev : RevView := {}
  /-- usage value assigned to KEY0 and KEY1 (R205); 0 = none -/
  use0 : Nat := 0
  use1 : Nat := 0
  /-- GCM or CTR invocation value (R133, R134) -/
  inv : Nat := 0
  /-- no value was left to assign (R206) -/
  exhausted : Bool := false
  /-- frame in which step 0, the key phase, runs in the present attempt -/
  base : Nat := 0
  /-- next step: 0 = key phase, 1 to s = execution, s + 1 = write phase -/
  step : Nat := 0
  granted : Bool := false
  /-- steps up to this one ran in the present frame -/
  ran : Bool := false
  repeats : Nat := 0
  repeating : Bool := false
  /-- tokens issued for the step that runs (R342) -/
  tokens : Nat := 0
  /-- tokens taken in advance from the next placement (R342) -/
  ahead : Nat := 0
  /-- random bytes drawn by the attempt's steps so far -/
  drawn : Nat := 0
  code : Nat := 0
  /-- the frame of the write phase: F+d+S+1, later after a repeat (R69, R70) -/
  due : Nat := 0
  /-- re-pages that wait for room: which key, and the host blob read for it (R198) -/
  repage : List (Nat × Option Bytes) := []
  /-- keys whose second-tier copy the key phase reads: 0 for KEY0, 1 for KEY1 (R193) -/
  opened : List Nat := []
  /-- a second-tier page failed to open, and the host blob is read for it (R291) -/
  tierFail : Bool := false
  /-- bytes that the steps of the first attempt drew, the voided one last, which the same steps of the repeat draw again (R34) -/
  drew : List Nat := []
  /-- key-paging units that the running key phase holds: the keys it pages (R69, R193) -/
  units : Nat := 0
  /-- the lane whose mask generator voided the first attempt, which the repeat does not use (R126) -/
  avoid : Option Nat := none
  /-- FIX of the initial counter block, taken with the invocation value (R133, R134; assumption 83) -/
  fix : Bytes := []
  /-- counted in PK_CNT_SUBST (R155) -/
  counted : Bool := false
  /-- energy in nJ that the execution steps of the present attempt metered (R144, R176) -/
  used : Nat := 0
  /-- the lanes left for its blocks in this frame are too few (R221) -/
  starved : Bool := false
  /-- the TU, the cipher lanes and the hash lanes that serve the present step, lanes as a mask (R122) -/
  tu : Nat := 0
  lanes : Nat := 0
  hashes : Nat := 0
  /-- the sealed carry record and the frame of its seal (R88, R132) -/
  record : Bytes := []
  recordAt : Nat := 0
  /-- no further execution step runs (R54, R89) -/
  stop : Bool := false
  /-- a PK or lattice routine goes on with substitute operands (R155) -/
  subst : Bool := false
  stepsDone : Nat := 0
  /-- metered energy in nJ -/
  energy : Nat := 0
  /-- reads outstanding, and data read: target number to bytes (R54) -/
  want : List Nat := []
  inputs : Tab Bytes := []
  /-- reads that failed (R54) -/
  failed : List Nat := []
  key0 : Option KeyRec := none
  key1 : Option KeyRec := none
  /-- secret state or chaining state carried between steps (R88, R132) -/
  carry : Bytes := []
  carryN : Nat := 0
  /-- output writes ready for the write phase: (buffer, offset, bytes) -/
  outs : List (Nat × Nat × Bytes) := []
  /-- bytes written to output buffers -/
  aux : Nat := 0
  /-- 4 KB pages written (R60) -/
  pages : List Nat := []
  cont : Nat := 0
  /-- P2 and P3 of the audit record (R95, R208) -/
  auditP2 : Option Nat := none
  auditP3 : Nat := 0
  recorded : Bool := false
deriving DecidableEq, Repr

/-- A fatal status word that waits to be queued (R62): its command as the detection left it, the bytes of its result writes that were
sent, and their pages. -/
structure FatalWord where
  cmd : Cmd
  aux : Nat
  pages : List Nat
deriving DecidableEq, Repr

/-- Traverse state beyond the registers. -/
structure Trv where
  cmds : List Cmd := []
  nextId : Nat := 1
  nextSeq : Nat := 1
  /-- reservations: key (frame * 16 + resource) * 1,024 + slice to amount (R65, R75) -/
  cal : Tab Nat := []
  /-- admissible Dose units of the frames of the calendar, and the base each frame entered with (R65) -/
  doseAdm : Tab Nat := []
  doseBase : Tab Nat := []
  /-- the budget tokens each frame entered the calendar with, lowered by commits (R65, R339), plus one -/
  doseBud : Tab Nat := []
  /-- unused pool: frame * 16 + resource to amount (R30) -/
  pool : Tab Nat := []
  /-- recompute reserve spent in the present frame, by resource (R30) -/
  rspent : Tab Nat := []
  /-- random reserve bytes drawn for recomputation and forced reseeds in the present frame -/
  rndSpent : Nat := 0
  /-- status words of a fatal event that wait to be queued, and the code they carry (R62, R262) -/
  words : List FatalWord := []
  fatalCode : Nat := 0
  /-- the first frame that has not entered the calendar -/
  calEnd : Nat := 0
  /-- what TRV_CAL_DATA reports: the calendar as of the last boundary (R86) -/
  seenCal : Tab Nat := []
  seenRnd : Nat := 0
  seenEntries : Nat := 0
  seenLedgerA : Nat := 0
  seenLedgerB : Nat := 0
  seenDose : Tab Nat := []
  /-- reservations of the commands that the Net runs for the administrative function (R358): frame * 16 + resource to amount, and what
  TRV_CAL_DATA reports of them -/
  adm : Tab Nat := []
  seenAdm : Tab Nat := []
deriving DecidableEq, Repr

/-! ## Engines and key store -/

/-- A recipe or routine store: two copies, their failed words, and opcodes lost (R90, R153). -/
structure Store where
  copyA : Tab Word := []
  copyB : Tab Word := []
  badA : Tab Bool := []
  badB : Tab Bool := []
  lost : List Nat := []
deriving DecidableEq, Repr

/-- A PK or lattice slot that a command holds (R150, R157, R171): its command (0 = free), the CRT half of class 0x21, and
the saved accumulator. Slots 0 to 127 are PK slots, 128 to 159 lattice slots; their words stand in the on-chip memory. -/
structure TileSlot where
  cmd : Nat := 0
  half : Nat := 0
  saved : Nat := 0
  /-- the saved accumulator depends on words of the secret region -/
  savedSecret : Bool := false
deriving DecidableEq, Repr

/-- A row or lattice unit (R149, R152): the slot it works on, its accumulator of 4,224 bits, and the result bit of the
controller's last compare. -/
structure TileRow where
  slot : Option Nat := none
  acc : Nat := 0
  same : Bool := false
  /-- the accumulator depends on words of the secret region (R150) -/
  secret : Bool := false
deriving DecidableEq, Repr

/-- A piece of the schedule of a frame (R151): row, first eighth, eighths, command and half. -/
structure TilePiece where
  row : Nat
  first : Nat
  eighths : Nat
  cmd : Nat
  half : Nat
deriving DecidableEq, Repr

/-- The PK tiles and lattice units: rows 0 to 31 and units 32 to 47. -/
structure Tiles where
  slots : Tab TileSlot := []
  rows : Tab TileRow := []
  plan : List TilePiece := []
deriving DecidableEq, Repr

/-- The kinds of counter-tree leaf (R203). -/
inductive LeafKind where
  | epoch | cursor | seal | floor | usage | gcm | ctr
deriving DecidableEq, Repr

/-- One leaf: its kind and owner (slice, or handle of a key), and three copies with whether each check passes. -/
structure Leaf where
  kind : LeafKind
  slice : Nat
  owner : Nat
  a : Nat
  b : Nat
  c : Nat
  /-- how the stored check of each copy differs from its check under CTK; 0 = the copy passes (R203) -/
  da : Nat := 0
  db : Nat := 0
  dc : Nat := 0
  /-- those differences as the nodes above the leaf were last computed from them (R203, R207) -/
  sa : Nat := 0
  sb : Nat := 0
  sc : Nat := 0
deriving DecidableEq, Repr

/-- An invalidated key (R200): index, slots, frame of the bump, for a re-keyed domain the handles its KRC entries had, and
whether the index has become free. -/
structure Dying where
  index : Nat
  slots : Nat
  frame : Nat
  handles : List Nat
  freed : Bool := false
deriving DecidableEq, Repr

/-- A generation bump staged for event 2 of the next boundary (R199): index, slots, and the generation of the key. -/
structure Bump where
  index : Nat
  slots : Nat
  gen : Nat
deriving DecidableEq, Repr

/-- A slice key domain (R184 to R186): what MRAM holds and what the key store knows of it. -/
structure Domain where
  present : Bool := false
  root : Bytes := []
  floor : Nat := 0
  gen0 : Nat := 0
  /-- persistent indices freed since the last cold reset -/
  freed : List Nat := []
  /-- generations the key store knows: index to generation -/
  gens : Tab Nat := []
  /-- next persistent index, and the end of the window of the cursor leaf -/
  cursor : Nat := 1
  cursorEnd : Nat := 1
  ephNext : Nat := 0
  /-- EK_s drawn at a slice reset (R181); empty while the one of start-up stands -/
  ek : Bytes := []
  /-- keys with a bump staged for event 2 of the next boundary (R199) -/
  bumps : List Bump := []
  /-- invalidated keys whose entries have not all left the KRC (R200) -/
  dying : List Dying := []
deriving DecidableEq, Repr

/-- What the key store knows of a key's ancestry (R187), kept from creation or paging to the next cold reset. -/
structure Known where
  handle : Nat
  pidx : Nat
  pgen : Nat
  depth : Nat
  partner : Nat := 0
  /-- key-table slots it occupies (R192) -/
  slots : Nat := 1
deriving DecidableEq, Repr

/-- A window of counter values (R205). -/
structure Window where
  kind : LeafKind
  handle : Nat
  next : Nat
  last : Nat
deriving DecidableEq, Repr

/-- A component accumulator of KEY_COMPONENT (R211). -/
structure Accum where
  slice : Nat
  session : Nat
  seq : Nat
  acc : Bytes
  officers : List Nat
  /-- TOTAL, ALG, MODE, USAGE, EXPORT and LIMIT of the first component -/
  total : Nat
  params : List Nat
  frame : Nat
deriving DecidableEq, Repr

/-- A run of expander output (R219): `len` bytes from byte `off` on of the blocks that follow the state (`key`, `v`). -/
structure RndSeg where
  key : Bytes := []
  v : Nat := 0
  off : Nat := 0
  len : Nat := 0
deriving DecidableEq, Repr

/-- Key store state beyond the registers. -/
structure Ks where
  datum : Bytes := []
  domains : Tab Domain := []
  leaves : Tab Leaf := []
  known : List Known := []
  krc : List KeyRec := []
  tier2 : List KeyRec := []
  windows : List Window := []
  revoked : List (Nat × Nat) := []
  sealCount : Nat := 0
  sealEpoch : Nat := 0
  krcKey : Bytes := []
  tierKey : Bytes := []
  tuCarry : Bytes := []
  laneCarry : Bytes := []
  contKey : Bytes := []
  /-- the random bytes drawn at start-up for the EK_s, 32 for each slice in order (R181, R223) -/
  ekSegs : List RndSeg := []
  accums : List Accum := []
  idEc : Bytes := []
  idPq : Bytes := []
  idEcPub : Bytes := []
  idPqPub : Bytes := []
  idEcCert : Bytes := []
  idPqCert : Bytes := []
  /-- ADVANCE or RAISE_FLOOR of a slice waiting for its boundary (R184): OP of KS_DOMAIN_CMD, and slice -/
  cmd : Option (Nat × Nat) := none
  /-- counter-tree nodes written back at this frame last (R203) -/
  nodesAt : Nat := 0
  /-- tree nodes, as (level, index), whose MRAM copy is older than the one in SRAM (R203) -/
  nodesStale : List (Nat × Nat) := []
  /-- what the configuration and data store holds sealed (R181, R183, R202, R239, R347): 0 the revocation list, 1 the identity keys,
  2 NRK, 16 + s the domain root of slice s, 2,048 + n the officer set of scope n (R239) -/
  image : Tab Bytes := []
  ctRo : Bool := false
deriving DecidableEq, Repr

/-! ## Fieldbook (R300 to R315) -/

/-- A record, audit or diagnostic (R301, R302). -/
structure FbRec where
  code : Nat
  sev : Nat
  ksel : Nat
  diag : Bool := false
  scope : Nat
  sub : Nat
  frame : Nat
  p0 : Nat
  p1 : Nat
  p2 : Nat
  p3 : Nat
  seq : Nat
  check : Bytes
  set : Nat := 0
  vals : List Nat := []
  /-- the slot is one of the flush reserve (R304) -/
  rsv : Bool := false
deriving DecidableEq, Repr

/-- Fieldbook state beyond the registers. -/
structure Fb where
  seq : Nat := 0
  audit : List FbRec := []
  diag : List FbRec := []
  pending : List FbRec := []
  buffer : List FbRec := []
  /-- audit slots written in this frame by event records (R305) -/
  eventSlots : Nat := 0
  frozenAt : Option Nat := none
  keep : Bool := false
  /-- the freeze ends at the next boundary (R312) -/
  endFreeze : Bool := false
  /-- an accepted command waiting for its boundary: OP, keep, diag, scope -/
  cmd : Option (Nat × Bool × Bool × Nat) := none
  exporting : Bool := false
  exDiag : Bool := false
  exScope : Nat := 0
  exFrom : Nat := 0
  exNext : Nat := 0
  exLeft : Nat := 0
  exCount : Nat := 0
  exFails : Nat := 0
  exLast : Nat := 0
  exAddr : Nat := 0
  /-- records the export has written in the present frame (R311) -/
  exNow : Nat := 0
  /-- the kept export meets the precondition of CLEAR (R313) -/
  clearOk : Bool := false
  dropped : Nat := 0
  firstDrop : Nat := 0
  dropCount : Nat := 0
  overCount : Nat := 0
  refused : Nat := 0
  refusedSlices : List Nat := []
  ro : Bool := false
  flushing : Bool := false
  flushWritten : Nat := 0
  flushOver : Nat := 0
  flushDrop : Nat := 0
  /-- audit records made since the last WITNESS of a member (R365) -/
  toWitness : List FbRec := []
  /-- high room at the last boundary (R309) -/
  highRoom : Nat := 98176
  holdReq : Bool := false
deriving DecidableEq, Repr

/-! ## Random number generator (R215 to R227) -/

/-- An operation that waits for an administrative draw (R221). -/
inductive AdminOp where
  | datum | domainCreate (slice : Nat) | domainRekey (slice : Nat) | domainDestroy (slice : Nat)
  | ephemeral (slice : Nat) | session (scope : Nat) | debug (scopes : Nat) | deviceSecret | netCreate | netJoin | identity
deriving DecidableEq, Repr

/-- A noise cell (R215 to R217). -/
inductive CellSt where
  | off
  /-- oscillators stopped until the boundary that begins this frame, then a restart run -/
  | stopped (restart : Nat)
  /-- in its restart run, of which this many blocks have been tested -/
  | restart (blocks : Nat)
  /-- the restart run has passed; in use from the next boundary -/
  | passed
  | inUse
  | tapped
deriving DecidableEq, Repr

/-- An expander (R219): it writes into the stores while its refill goes on and the age limit does not stop it. -/
structure Expander where
  refill : Bool := false
  /-- stopped by the age limit -/
  aged : Bool := false
  age : Nat := 0
  /-- it has reseeded since every enabled, untapped cell returned to use -/
  fresh : Bool := false
  /-- the working state of its CTR_DRBG -/
  key : Bytes := []
  v : Nat := 0
  /-- its last output block, and whether it has repeated one (R219) -/
  last : Bytes := []
  rep : Bool := false
deriving DecidableEq, Repr

/-- The mask refresh generator of a lane: the 384 bits it was seeded with last, and the frames it has gone on since (R125). -/
structure MaskGen where
  seed : Bytes := []
  frames : Nat := 0
deriving DecidableEq, Repr

/-- Random number generator state beyond the registers. -/
structure Rng where
  cells : List CellSt := []
  /-- every enabled cell has run its restart run in this WARMUP (R223) -/
  warmRan : Bool := false
  /-- raw blocks that passed their tests in WARMUP (R223), and the last one conditioned (R218) -/
  blocks : Nat := 0
  last : Bytes := []
  queue : List Bytes := []
  exps : List Expander := []
  /-- the random reserve and the administrative pool: the expander output they hold, earliest byte first (R220) -/
  reserve : List RndSeg := []
  admin : List RndSeg := []
  waiting : List (Nat × AdminOp) := []
  /-- the first waiting draw has been called for the next boundary (R221) -/
  called : Bool := false
  /-- frames of the counted failures of the last 1,000 frames -/
  fails : List Nat := []
  warmFails : Nat := 0
  /-- the health hold begins at the boundary of this frame or a later one; the event came from an expander, and its unit (R224) -/
  holdReq : Option (Nat × Bool × Nat) := none
  /-- non-locking run: cell to (pair number, length) (R216) -/
  lockRun : Tab (Nat × Nat) := []
  /-- the equal bits at the end of a cell's last raw block: the bit, and how many (R216) -/
  runs : Tab (Nat × Nat) := []
  /-- raw blocks that passed their tests and wait for the frame tests of their cell (R216) -/
  closed : List (Nat × BitVec 1024) := []
  masks : Tab MaskGen := []
  tap : Option Nat := none
  tapReq : Option Nat := none
  tapLeft : Nat := 0
  /-- raw bits of the tapped cell in closed blocks since the tap began, and the bit at which it last restarted (R226) -/
  tapBits : Nat := 0
  tapFrom : Nat := 0
  /-- the oscillators of the tapped cell are stopped until the boundary that begins this frame (R226) -/
  tapStop : Option Nat := none
  /-- lanes whose forced mask reseed waits (R126, R221) -/
  forced : List Nat := []
deriving DecidableEq, Repr
/-! ## Lifecycle, quorum and OTP (R228 to R258) -/

/-- An OTP field held as two copies with a lock bit (R254); bit strings as numbers. -/
structure OtpField where
  a : Nat := 0
  b : Nat := 0
  lock : Bool := false
deriving DecidableEq, Repr

/-- An officer's sign-in in a session (R243): index, role, and the transport key when EPUB_I was present (R247). -/
structure SignIn where
  officer : Nat
  role : Nat
  tk : Option Bytes
deriving DecidableEq, Repr

/-- A quorum session (R242 to R244). -/
structure Session where
  /-- 0 = none, 1 = CHALLENGE, 2 = OPEN -/
  st : Nat := 0
  id : Nat := 0
  req : Nat := 0
  held : Nat := 0
  start : Nat := 0
  life : Nat := 0
  challenge : Bytes := []
  scalar : Bytes := []
  signIns : List SignIn := []
deriving DecidableEq, Repr

/-- An enrolled officer (R239). -/
structure Officer where
  index : Nat
  role : Nat
  pub : Bytes
  label : Bytes
deriving DecidableEq, Repr

/-- A quorum command accepted and not yet in effect (R241 to R245). -/
structure QuCmd where
  op : Nat
  scope : Nat
  roles : Nat := 0
  life : Nat := 0
  record : Bytes := []
  /-- frame in which the verifier began (R243) -/
  start : Nat := 0
deriving DecidableEq, Repr

/-- Lifecycle, quorum, debug and OTP state beyond the registers (R228 to R258). -/
structure Lc where
  /-- the three lifecycle copies in OTP (R229) -/
  copies : List Nat := [0, 0, 0]
  /-- an accepted transition and whether its boundary has passed (R233, R234) -/
  target : Option Nat := none
  begun : Bool := false
  /-- bits still to program, first next: (field, copy, bit), field 0 for the lifecycle copies, copy 2 for a lock
  bit; failed tries of the first (R234, R254) -/
  bits : List (Nat × Nat × Nat) := []
  tries : Nat := 0
  programming : Bool := false
  /-- a bit was programmed in the present frame -/
  bitRan : Bool := false
  /-- an accepted LC_ZEROIZE, and whether its boundary has passed (R236) -/
  zeroize : Bool := false
  zeroBegun : Bool := false
  /-- check 2 of R73 refuses every descriptor until the next cold reset (R234, R236) -/
  refuse : Bool := false
  /-- the debug challenge in force: frame of issue, scopes (R249) -/
  chal : Option (Nat × Nat) := none
  /-- a verified response: scopes to open at the next boundary, first 8 bytes of SHA-384 of AUTH_PUB (R250) -/
  toOpen : Option (Nat × Nat) := none
  /-- a locked-region access was recorded in this opening (R252) -/
  lockSeen : Bool := false
  /-- bits an LC_OTP_CMD has still to program, failed tries of the first (R254) -/
  otpBits : List (Nat × Nat × Nat) := []
  otpTries : Nat := 0
  /-- capability fuses as sampled at the last cold reset (R256) -/
  fuses : Nat := 0
  officers : Tab (List Officer) := []
  sessionNo : Nat := 0
  cmd : Option QuCmd := none
deriving DecidableEq, Repr

/-! ## Tamper monitor and battery domain (R259 to R274) -/

/-- Tamper monitor state beyond the registers. -/
structure Tmp where
  /-- the BBRAM canary was written and not lost since (R271) -/
  canary : Bool := false
  /-- bytes of BBRAM that are not what the key store wrote there, by byte: the value plus 1 (R271, R277) -/
  bbOver : Tab Nat := []
  /-- rails 0 to 6 are armed for under-voltage (R268) -/
  uvArmed : Bool := false
  /-- die sensors whose last sample lay beyond the limits of TEMP (R259) -/
  tempOut : List Nat := []
  /-- of each mesh pair the last 16 bit periods, newest first, and the mismatches in a row (R264) -/
  meshSeen : Tab (List MeshBit) := []
  meshRun : Tab Nat := []
  /-- a battery check runs (1), and a response has started in it (2) (R262) -/
  once : Nat := 0
  /-- consecutive abnormal and OPEN samples of each TS input in battery checks (R266) -/
  tsBad : Tab Nat := []
  tsOpen : Tab Nat := []
  /-- ZEROIZE_N is low (R267) -/
  zeroLow : Bool := false
  /-- a cause latched on battery has not been recorded yet (R307) -/
  battRecord : Bool := false
  /-- the frame in which stage 2 of the last powered response ends (R262) -/
  respEnd : Nat := 0
  /-- a response has driven TAMPER_OUT high and TMP_BAT_EVT has not read zero since (R273) -/
  outLatch : Bool := false
deriving DecidableEq, Repr

/-! ## Fabric, guards and private memory (R275 to R299) -/

/-- A line of private DRAM (R288): unmixed data, colour, key ID, the allocation count of the key it was written
under (R289), and how its TAG differs from the one these call for. A poison line has key ID 0. -/
structure DramLine where
  data : Bytes := []
  colour : Nat := 0
  keyId : Nat := 0
  alloc : Nat := 0
  tagOff : Nat := 0
deriving DecidableEq, Repr

/-- An entry of the write-combining buffer (R292), oldest use first in the list: line number, byte mask, bytes, frame
of the last write, and of the last writer its group, master, region colour, ANYCOL and SETCOL. -/
structure WcbEntry where
  line : Nat
  mask : Nat := 0
  data : Bytes := []
  frame : Nat := 0
  group : Nat := 0
  master : Nat := 0
  tag : Nat := 0
  anycol : Bool := false
  setcol : Bool := false
deriving DecidableEq, Repr

/-- How the last fabric piece ended: its cause code of R280, or 0xF for none, whether the data is marked as poison (R291),
and the bytes a read returned. -/
structure FabReply where
  cause : Nat := 0xF
  poison : Bool := false
  data : Bytes := []
deriving DecidableEq, Repr

/-- Fabric, guard and memory-controller state beyond the registers. -/
structure Fab where
  /-- on-chip SRAM with a fabric address, by address (R276): a list of (address, byte), unlisted bytes read 0 -/
  ram : List Host.Cell := []
  /-- colours of the SRAM granules, by granule number (R281) -/
  colours : Tab Nat := []
  reply : FabReply := {}
  /-- how the stored 16-bit check of a guard descriptor, 64 g + d, differs from the one its contents call for; and the descriptors found
  so since a commit rewrote a region of their group (R286) -/
  descOff : Tab Nat := []
  descBad : List Nat := []
  lines : Tab DramLine := []
  /-- lines of which this many coming reads fail DCODE (R290) -/
  badReads : Tab Nat := []
  /-- lines per frame of the walker in the present frame (R294, R299) -/
  walkRate : Nat := 1024
  wcb : List WcbEntry := []
  /-- allocation number of each active key ID; allocations in all, and how many of them the last reset found (R289) -/
  allocs : Tab Nat := []
  allocNo : Nat := 0
  allocFrom : Nat := 0
  /-- the accepted MSC_CMD: OP, entry, key ID (R293) -/
  cmd : Option (Nat × Nat × Nat) := none
deriving DecidableEq, Repr

/-! ## Firmware update (R316 to R330) -/

/-- A copy of the journal (R326): its SEQ, STATE, NEXT, IMAGE_ID and digest, and how its stored check differs from the one these call
for. -/
structure Journal where
  /-- 0 IDLE, 1 HEADER, 2 WRITING, 3 SEAL, 4 DONE -/
  state : Nat := 0
  next : Nat := 0
  imageId : Bytes := []
  digest : Bytes := []
  seq : Nat := 0
  off : Nat := 0
deriving DecidableEq, Repr

/-- The header of a firmware data area (R323); its contents stand in MRAM. -/
structure DataArea where
  valid : Bool := false
  confirmed : Bool := false
  fmt : Nat := 0
  version : Nat := 0
  imageId : Bytes := []
deriving DecidableEq, Repr

/-- Update state beyond the registers. -/
structure Upd where
  /-- flash sectors as programmed; the last one holds the recovery record -/
  flash : Tab Bytes := []
  /-- the two copies of the journal; `none` for one never written (R326) -/
  jA : Option Journal := none
  jB : Option Journal := none
  /-- the head sector of the image being written -/
  head : Bytes := []
  /-- the head sector of a START under check, as far as it could be read, and the frame its check began (R324) -/
  cand : Option Bytes := none
  start : Nat := 0
  /-- the recovery record is written -/
  recorded : Bool := false
  areaA : DataArea := {}
  areaB : DataArea := {}
  /-- the current area is B; an old area exists -/
  curB : Bool := false
  /-- an accepted command waiting for its boundary: OP, and the head read for START -/
  cmd : Option (Nat × Option Bytes) := none
  /-- the body sector being programmed, and its failed tries -/
  sector : Option Bytes := none
  tries : Nat := 0
  /-- head of the running image; empty when none runs -/
  run : Bytes := []
  /-- the frame in which the head sector passed; DRAIN follows (R324) -/
  passed : Option Nat := none
  /-- the firmware version floor leaf, outside the node tree (R320) -/
  floor : Leaf := { kind := .floor, slice := 0, owner := 0, a := 0, b := 0, c := 0 }
  /-- the lifecycle code at the last boot, for the erasures of R323 -/
  bootLc : Nat := 0
  /-- the MRAM patch area, and the patch that takes effect at the next cold reset (R321, R322) -/
  patch : Bytes := []
  patchNext : Bytes := []
deriving DecidableEq, Repr

/-! ## The Net (R347 to R368) -/

/-- What a Net message carries in its body (R354, R358, R361, R363 to R366). -/
inductive NetBody where
  | table (bench : Nat) (rows : List MemberRow)
  | time (frame : Nat)
  | domain (r : DomainRec)
  | domainAck (slice rseq : Nat)
  | lease (frame : Nat) (digest : Bytes)
  | sync (slices : List Nat)
  | witness (seq : Nat) (digest : Bytes)
  | joinDone
  | leave
deriving DecidableEq, Repr

/-- What the Net ports send, oldest first. -/
inductive NetTx where
  | ack (port seq : Nat)
  | nak (port seq : Nat)
  | resend (port seq : Nat)
  | mark (port frame hops : Nat)
  | keySwitch (port keyid seq : Nat)
  | hello (port member : Nat) (nonce netId : Bytes)
  | route (port member hops : Nat)
  /-- a message on a direct port, or to the TX ring entry of the tunnel -/
  | message (port : Option Nat) (src dst : Nat) (bcast : Bool) (counter : Nat) (body : NetBody)
deriving DecidableEq, Repr

/-- A Net port beyond its registers (R351 to R353). -/
structure NetPort where
  /-- sequence number of the next flit sent, highest acknowledged plus 1, next expected -/
  txSeq : Nat := 0
  acked : Nat := 0
  rxSeq : Nat := 0
  /-- times the present flit has failed, frames of the TAG failures -/
  flitFails : Nat := 0
  tagFails : List Nat := []
  /-- a NAK has gone out and the flit it names has not come again (R352) -/
  await : Bool := false
  /-- key allocations since link-up, (key ID, mix key, tag key) in force and being changed to -/
  allocs : Nat := 0
  key : Option (Nat × Bytes × Bytes) := none
  next : Option (Nat × Bytes × Bytes) := none
  /-- first sequence number sent, and received, under the next key -/
  txSwitch : Option Nat := none
  rxSwitch : Option Nat := none
  /-- flits sent, and received, under the key in force; flit times of the present frame gone by in each direction (R349) -/
  sent : Nat := 0
  rcvd : Nat := 0
  txSlot : Nat := 0
  rxSlot : Nat := 0
  /-- the replay buffer: number and payload of the flits sent last that are not IDLE and not acknowledged (R352) -/
  replay : List (Nat × Bytes) := []
  /-- the delay of the link measured at training, in flit times (R361) -/
  delay : Nat := 0
  nonce : Bytes := []
  peer : Option HelloFlit := none
  downAt : Nat := 0
  /-- hop counts to members that ROUTE flits reported -/
  routes : Tab Nat := []
  /-- hop count of the last mark in first transmission -/
  markHops : Option Nat := none
deriving DecidableEq, Repr

/-- A DOMAIN record a home member sent (R363): the frame it was sent last, and the members that have not acknowledged it. -/
structure SentRec where
  record : DomainRec
  frame : Nat
  pend : List Nat
deriving DecidableEq, Repr

/-- A replicated slice as a member knows it (R362 to R364). -/
structure Repl where
  rseq : Nat := 0
  /-- home: records not acknowledged by every member, oldest first, and the revocation entries announced -/
  sent : List SentRec := []
  sentRev : List (Nat × Nat) := []
  /-- other members: records that wait, with the frame they arrived and their source, and RSEQs whose ACK is due with
  the member it goes to -/
  waiting : List (DomainRec × Nat × Nat) := []
  toAck : List (Nat × Nat) := []
  /-- lease end frame; 0 before the first lease -/
  lease : Nat := 0
deriving DecidableEq, Repr

/-- A NET_CMD accepted and waiting for its boundary: OP, MEMBER, ARG, AUTO, and the two records read (R357). -/
structure NetCmd where
  op : Nat
  member : Nat := 0
  arg : Nat := 0
  auto : Bool := false
  records : Option (Bytes × Bytes) := none
deriving DecidableEq, Repr

/-- A command that a join operation runs for the administrative function (R358): its class, the random bytes it draws, the eighths of a
lattice unit that ML-KEM takes, and the boundary at which it has completed, 0 before Traverse has admitted it. -/
structure NetJob where
  cls : Nat
  rnd : Nat := 0
  lu : Nat := 0
  due : Nat := 0
deriving DecidableEq, Repr

/-- Net state beyond the registers. -/
structure Net where
  /-- slices whose lease has lapsed (R364) -/
  lapsed : List Nat := []
  nrk : Bytes := []
  netId : Bytes := []
  boot : Bytes := []
  counter : Nat := 0
  /-- the benchmark member as the table names it -/
  bench : Nat := 0
  ports : Tab NetPort := []
  /-- counters accepted: source, BOOT, highest, the numbers accepted that lie above it minus 64 (R355) -/
  seen : List (Nat × Bytes × Nat × List Nat) := []
  slices : Tab Repl := []
  /-- slices whose record goes out in the present frame (R363) -/
  changed : List Nat := []
  /-- an accepted NET_CMD waiting for its boundary -/
  cmd : Option NetCmd := none
  /-- tunnel entries read since the last boundary (R356) -/
  rxRead : Nat := 0
  /-- the outstanding join request: NONCE, frame, ephemeral scalar, decapsulation key (R358) -/
  request : Option (Bytes × Nat × Bytes × Bytes) := none
  /-- the commands of a join operation that Traverse has yet to admit or to see completed, and the random bytes of those done (R358) -/
  jobs : Option (List NetJob) := none
  drawn : Bytes := []
  /-- an accepted join waiting for its draw: ID, NET_ID, NRK, DEV of the benchmark -/
  joining : Option (Nat × Bytes × Bytes × Nat) := none
  /-- a member in ALIGNING; the frame step that waits: the new number of the next boundary (R361) -/
  aligning : Bool := false
  stepTo : Option Nat := none
  /-- consecutive frames without a first-transmission MARK (R360) -/
  markless : Nat := 0
  /-- chained digest of the audit records for the witness (R365), and the SEQ of the last of them -/
  digest : Bytes := []
  digestSeq : Nat := 0
  /-- TX ring entries hold what was sent through the tunnel; everything sent -/
  sent : List NetTx := []
  /-- the flits on the wires but IDLE ones, replayed ones among them: port, number, 32 bytes (R350) -/
  wire : List (Nat × Nat × Bytes) := []
deriving DecidableEq, Repr
/-! ## Dose and the clock unit (R331 to R346) -/

/-- Dose state beyond the registers (R340 to R343). -/
structure Dose where
  /-- metered command energy in nJ since the last cold reset, and in the present telemetry round -/
  energy : Nat := 0
  roundEnergy : Nat := 0
  /-- the last four round values, newest first -/
  rounds : List Nat := []
  /-- the boundary at which a round was last closed, plus 1 -/
  roundAt : Nat := 0
  /-- four complete rounds exist; the base they gave at the end of the last one, with the MARGIN of that moment (R340) -/
  hist : Bool := false
  telBase : Nat := 0
  /-- consecutive void rounds -/
  voids : Nat := 0
  roundVoid : Bool := false
  /-- the round raised a brown-out warning -/
  warned : Bool := false
  /-- rails disabled by their VOUT_MODE, and rails whose VOUT_MODE has been read (exponent plus 64) -/
  off : List Nat := []
  modes : Tab Nat := []
  /-- rails whose VOUT and IOUT the present round has read -/
  readV : List Nat := []
  readI : List Nat := []
  /-- consecutive frames with the hottest sensor at or above T_HI, and below T_HI − 5 °C -/
  hot : Nat := 0
  cool : Nat := 0
  /-- a warning that takes effect at the next boundary: rail and value -/
  brownReq : Option (Nat × Nat) := none
  brownAt : Nat := 0
  /-- the rail and value that raised the warning in effect (R344) -/
  brownBy : Nat × Nat := (0xF, 0)
  /-- a complete telemetry round has ended with no warning since it was set -/
  clean : Bool := false
  /-- ALERT_N is high -/
  alertHigh : Bool := true
deriving DecidableEq, Repr

/-- Clock unit state beyond the registers (R331 to R338). -/
structure Clk where
  /-- consecutive intervals with an error of at most 5 ppm -/
  good : Nat := 0
  /-- hottest die temperature at the loss of the reference, in sixteenths of a degree -/
  lostTemp : Int := 0
  /-- units of trim still to move, and whether they raise it -/
  toMove : Nat := 0
  moveUp : Bool := false
  /-- the next full interval has not begun since the reference returned -/
  skip : Bool := false
  /-- the monitors that fell outside their limit in their last window, one bit each (R335) -/
  lastOut : Nat := 0
  /-- the safe-state wait: monitors that failed, and the consecutive windows that all of them have passed (R337) -/
  safe : Option (List Nat) := none
  passRun : Nat := 0
  /-- the fatal path runs: a clock failure in service was detected (R336) -/
  fatal : Bool := false
deriving DecidableEq, Repr

/-! ## The machine -/

/-- A reset requested and not yet performed (R372, R374): warm?, cause, drain first?. -/
structure RstReq where
  warm : Bool
  cause : Nat
  drain : Bool
deriving DecidableEq, Repr

/-- Boundary events that a row of the table announces between two boundaries (R9). -/
inductive Mark where
  | transitionDrain | zeroizeDrain | debugOpen | frameStep | resetDrain | serviceReady
deriving DecidableEq, Repr

/-- Global state beyond the registers (R369 to R378). -/
structure Glb where
  /-- a BAD_ACCESS record was written since the last cold reset (R10) -/
  badSeen : Bool := false
  rst : Option RstReq := none
  /-- GLB_CFG_CMD accepted: operation, and whether it has begun (R375) -/
  cfg : Option (Nat × Bool) := none
  /-- no shadow has been written since the last CHECK began (R376) -/
  clean : Bool := false
  /-- the BOOT record of this start-up has been written (R314) -/
  booted : Bool := false
  /-- the reset in progress was warm / fatal, for BOOT (R314) -/
  bootKind : Nat := 1
  powered : Bool := false
  pwrFail : Bool := false
  boot : BootEnv := {}
  /-- events whose condition holds and which the next boundary performs, as rows of the table announced them (R9, assumption 81) -/
  marks : List Mark := []
deriving DecidableEq, Repr

/-- The whole machine. -/
structure State where
  /-- commands that wait, first in first out -/
  pending : List Instr
  /-- FRAME_NO (R8, R378) -/
  frameNo : Nat
  /-- the model's own counter of free values taken (assumption 3) -/
  free : Nat
  /-- register fields, each as its value exclusive-or its reset value, by `Field.key` -/
  regs : Tab Word
  /-- shadows of ST fields written and not committed (R375), by `Field.key`: the value plus 1 -/
  shadows : Tab Nat
  /-- the session that covers a staged shadow: `Field.key` to SESSION_ID plus 1 (R245) -/
  cover : Tab Nat
  glb : Glb
  hif : Hif
  trv : Trv
  tuStore : Store
  pkStore : Store
  luStore : Store
  tiles : Tiles
  ks : Ks
  fb : Fb
  rng : Rng
  otp : Tab OtpField
  sessions : Tab Session
  lc : Lc
  net : Net
  tmp : Tmp
  fab : Fab
  upd : Upd
  dose : Dose
  clk : Clk
deriving DecidableEq, Repr

/-- Why the machine stops. No command of the KV9640 stops it: every error the spec describes is an effect on the
state (a status bit, a completion code, a record), so there is no constructor. -/
inductive Fault where
deriving DecidableEq, Repr

/-- Why a command is refused. -/
inductive Refusal where
  /-- Raised by a dispatch arm whose command has no meaning yet. Safe: the model says nothing of the command. -/
  | notModelled (mnemonic : String)
deriving DecidableEq, Repr

/-- The machine right after power-on, before the power-good point (R369): every register field at its reset value,
every store empty, the battery domain, OTP and MRAM blank (assumption 4). -/
def State.reset : State where
  pending := []
  frameNo := 0
  free := 0
  regs := []
  shadows := []
  cover := []
  glb := {}
  hif := {}
  trv := {}
  tuStore := {}
  pkStore := {}
  luStore := {}
  tiles := {}
  ks := {}
  fb := {}
  rng := {}
  otp := []
  sessions := []
  lc := {}
  net := {}
  tmp := {}
  fab := {}
  upd := {}
  dose := {}
  clk := {}

end Sys2Proof.Machine
end

