-- ==== Sys2Proof/Machine/Ops.lean ====
section
/-! DEFINITION. The named operations over the state: reading and writing one register field, free values and
random bytes, the tables of slices and commands, posted writes, and MSI-X vectors. -/

namespace Sys2Proof.Machine

/-! ## Register fields (R7, R11) -/

/-- The value in effect of element `i` of a field. -/
def State.get (s : State) (f : Field) (i : Nat := 0) : Nat :=
  (Tab.get 0 s.regs (f.key i) ^^^ BitVec.ofNat 64 f.reset).toNat

/-- The state with element `i` of a field at `v`, cut to the field's width. -/
def State.set (s : State) (f : Field) (i v : Nat) : State :=
  { s with regs := Tab.put 0 s.regs (f.key i) (BitVec.ofNat 64 (v % 2 ^ f.width) ^^^ BitVec.ofNat 64 f.reset) }

/-- Whether a one-bit field reads 1. -/
def State.on (s : State) (f : Field) (i : Nat := 0) : Bool := s.get f i != 0

/-- A one-bit field written with a truth value. -/
def State.put1 (s : State) (f : Field) (b : Bool) (i : Nat := 0) : State := s.set f i (b2n b)

/-- A counter field raised by `n`; it wraps at its width. -/
def State.bump (s : State) (f : Field) (n : Nat := 1) (i : Nat := 0) : State := s.set f i (s.get f i + n)

/-- A counter field raised by one that stays at its greatest value. -/
def State.bumpSat (s : State) (f : Field) (i : Nat := 0) : State :=
  if s.get f i + 1 < 2 ^ f.width then s.set f i (s.get f i + 1) else s

/-! ## OTP fields (R254, R255) -/

/-- The code under which the model keeps the device secret, which R254 gives no code. -/
def otpDeviceSecret : Nat := 0x100

/-- A field is damaged: its copies differ, or bits are programmed under an unprogrammed lock bit (R255). The
capability fuses take no lock. -/
def OtpField.damaged (code : Nat) (f : OtpField) : Bool :=
  f.a != f.b || (code != 0x05 && !f.lock && (f.a != 0 || f.b != 0))

/-- The field codes of R254, in order. -/
def otpCodes : List Nat := [1, 2, 3, 4, 5, 6] ++ (List.range 16).map (· + 0x10)

/-- The value of OTP field `code`. -/
def State.otpAt (s : State) (code : Nat) : OtpField := Tab.get {} s.otp code

/-! ## Outputs that follow the state (R255, R257, R259, R273) -/

/-- Causes start responses: in PROVISION, SERVICE and RETURN, and in BLANK and FOUNDRY under TEST_ARM (R259). -/
def State.armed (s : State) : Bool :=
  let lc := s.get R.LC_STATE_CODE
  lc == 2 || lc == 3 || lc == 4 || (decide (lc ≤ 1) && s.on R.TMP_CTL_TEST_ARM)

/-- The level TAMPER_OUT is driven to (R273). -/
def State.tamperOut (s : State) : Bool :=
  s.glb.powered && (s.tmp.outLatch || s.on R.TMP_STS_CLAMP || s.get R.TMP_BAT_EVT_EVT % 512 != 0)

/-- The state code repeated in LC_TOKEN (R257). -/
def State.wireToken (s : State) : State := s.set R.LC_TOKEN_STATE 0 (s.get R.LC_STATE_CODE)

/-- TMP_STS.ARMED (R259). -/
def State.wireArmed (s : State) : State := s.put1 R.TMP_STS_ARMED s.armed

/-- TAMPER_OUT, read back at MGT_PIN_STS (R273). -/
def State.wireTamperOut (s : State) : State :=
  let t := { s with tmp := { s.tmp with outLatch := s.tmp.outLatch && s.get R.TMP_BAT_EVT_EVT != 0 } }
  t.put1 R.MGT_PIN_STS_TAMPER_OUT t.tamperOut

/-- LC_OTP_DAMAGED and its summary (R255). -/
def State.wireDamaged (s : State) : State :=
  let fields := maskOf (fun k => (s.otpAt (k + 1)).damaged (k + 1)) 6
  let tables := maskOf (fun k => (s.otpAt (k + 0x10)).damaged (k + 0x10)) 16
  ((s.set R.LC_OTP_DAMAGED_FIELDS 0 fields).set R.LC_OTP_DAMAGED_TABLES 0 tables).put1 R.LC_OTP_STS_ANY_DAMAGED
    (fields + tables != 0)

/-- The outputs brought up to the state. -/
def State.wires (s : State) : State := s.wireDamaged.wireToken.wireArmed.wireTamperOut

/-- How every meaning ends: the KV9640 goes on (`Fault` says why no command stops it). -/
def ok (s : State) : Host.Outcome State Fault Refusal := .next s.wires

/-! ## Lifecycle codes and stages (R228, R369) -/

/-- GLB_STS.STAGE (R369). -/
def State.stage (s : State) : Nat := s.get R.GLB_STS_STAGE

/-- Traverse observes (R72). -/
def State.inService (s : State) : Bool := s.on R.TRV_STS_READY

/-! ## Free values -/

/-- A fresh free number, and the state with it taken. -/
def State.fresh (s : State) : Nat × State := (Config.freeNat s.free, { s with free := s.free + 1 })

/-- `n` random bytes from free number `k` on (R220: each byte is handed out once). -/
def freeBytes : Nat → Nat → Bytes
  | 0, _ => []
  | n + 1, k => Config.freeByte k :: freeBytes n (k + 1)

/-- `n` free bytes, and the state with them taken. -/
def State.randomBytes (s : State) (n : Nat) : Bytes × State :=
  (freeBytes n s.free, { s with free := s.free + n })

/-! ## The random stores (R219, R220) -/

/-- The bytes of a run of expander output: AES-256 over the counter after the state's V (SP 800-90A). -/
def RndSeg.bytes (g : RndSeg) : Bytes :=
  let skip := g.off % 16
  let bs := (List.range (ceilDiv (skip + g.len) 16)).flatMap (fun i =>
    fitTo 16 (Config.aesEnc g.key (toBE 16 ((g.v + g.off / 16 + i + 1) % 2 ^ 128))))
  cut bs skip g.len

/-- Bytes in a store. -/
def segLen (l : List RndSeg) : Nat := l.foldl (fun n g => n + g.len) 0

/-- The earliest `n` bytes of a store, and the rest. -/
def segTake : Nat → List RndSeg → List RndSeg × List RndSeg
  | _, [] => ([], [])
  | n, g :: gs =>
    if n = 0 then ([], g :: gs)
    else if g.len ≤ n then let (a, b) := segTake (n - g.len) gs; (g :: a, b)
    else ([{ g with len := n }], { g with off := g.off + n, len := g.len - n } :: gs)

/-- The fill of the reserve and the level of the pool (R220). -/
def Rng.fill (r : Rng) : Nat := segLen r.reserve
def Rng.pool (r : Rng) : Nat := segLen r.admin

/-- `n` bytes of a store; those it does not hold, in a state no run reaches, are free. -/
def State.storeBytes (s : State) (n : Nat) (l : List RndSeg) : Bytes × Nat :=
  let a := (segTake n l).1
  let m := n - segLen a
  (a.flatMap RndSeg.bytes ++ freeBytes m s.free, s.free + m)

/-- `n` bytes drawn from the random reserve: they leave it and are counted (R34, R220, R227). -/
def State.drawReserve (s : State) (n : Nat) : Bytes × State :=
  let (bs, k) := s.storeBytes n s.rng.reserve
  (bs, ({ s with free := k, rng := { s.rng with reserve := (segTake n s.rng.reserve).2 } }).bump R.RNG_CNT_OUT_COUNT n)

/-- `n` bytes drawn from the administrative pool (R220, R221, R227). -/
def State.drawPool (s : State) (n : Nat) : Bytes × State :=
  let (bs, k) := s.storeBytes n s.rng.admin
  (bs, ({ s with free := k, rng := { s.rng with admin := (segTake n s.rng.admin).2 } }).bump R.RNG_CNT_OUT_COUNT n)

/-- The administrative draws that wait, in order of request, with their number (R221, R227). -/
def State.setWaiting (s : State) (l : List (Nat × AdminOp)) : State :=
  ({ s with rng := { s.rng with waiting := l } }).set R.RNG_POOL_STS_WAITING 0 l.length

/-! ## Slices and commands -/

/-- Slice `n`. -/
def State.slice (s : State) (n : Nat) : Slice := Tab.get {} s.hif.slices n

/-- Slice `n` changed by `f`. -/
def State.modSlice (s : State) (n : Nat) (f : Slice → Slice) : State :=
  { s with hif := { s.hif with slices := Tab.upd {} s.hif.slices n f } }

/-- Ring `r` of a slice. -/
def Slice.ring (sl : Slice) (r : Nat) : Ring := Tab.get {} sl.rings r

/-- Ring `r` of a slice changed by `f`. -/
def Slice.modRing (sl : Slice) (r : Nat) (f : Ring → Ring) : Slice :=
  { sl with rings := Tab.upd {} sl.rings r f }

/-- The in-flight entry with this id. -/
def State.cmd? (s : State) (id : Nat) : Option Cmd := s.trv.cmds.find? (fun c => c.id == id)

/-- The in-flight table changed by `f`. -/
def State.modCmds (s : State) (f : List Cmd → List Cmd) : State :=
  { s with trv := { s.trv with cmds := f s.trv.cmds } }

/-- The entry of `c` replaced by `c`. -/
def State.putCmd (s : State) (c : Cmd) : State :=
  s.modCmds (fun cs => cs.map (fun e => if e.id = c.id then c else e))

/-- The entry with this id removed. -/
def State.dropCmd (s : State) (id : Nat) : State :=
  s.modCmds (fun cs => cs.filter (fun e => e.id != id))

/-- Domain of slice `n`. -/
def State.domain (s : State) (n : Nat) : Domain := Tab.get {} s.ks.domains n

/-- Domain of slice `n` changed by `f`. -/
def State.modDomain (s : State) (n : Nat) (f : Domain → Domain) : State :=
  { s with ks := { s.ks with domains := Tab.upd {} s.ks.domains n f } }

/-- Whether slice `n` is enabled (R59: a disabled slice leaves that state only by LOAD). -/
def State.enabled (s : State) (n : Nat) : Bool := (s.slice n).st != .disabled

/-- The numbers of the slices that are not at their reset contents. -/
def State.sliceNos (s : State) : List Nat := s.hif.slices.map (·.1)

/-! ## Ports and posted writes (R37, R50 to R53) -/

/-- The link of a port is up (HIF_PORT_STS). -/
def State.linkUp (s : State) (port : Nat) : Bool :=
  if port = 0 then s.on R.HIF_PORT_STS_LINK_A else s.on R.HIF_PORT_STS_LINK_B

/-- The port of the administrative function's writes and of function 0's messages: the one the port mode leaves in service
(R37). In joined mode the spec names none: the model takes port A, and port B while only its link is up (assumption 66). -/
def State.adminPort (s : State) : Nat :=
  if s.get R.HIF_PORT_CTL_MODE = 1 ∨ (s.get R.HIF_PORT_CTL_MODE = 2 ∧ !s.linkUp 0 ∧ s.linkUp 1) then 1 else 0

/-- The port mode holds this port in reset (R37). -/
def State.portInReset (s : State) (port : Nat) : Bool :=
  (s.get R.HIF_PORT_CTL_MODE = 0 && port = 1) || (s.get R.HIF_PORT_CTL_MODE = 1 && port = 0)

/-- The port's DMA runs: its link is up (R38) and its functions are in D0 (R36). -/
def State.dmaOn (s : State) (port : Nat) : Bool :=
  s.linkUp port && !(Tab.get false s.hif.d3 (port * 2)) && !(Tab.get false s.hif.d3 (port * 2 + 1))

/-- A posted write can be transmitted on the port: its DMA runs and the host has given credit (R53). -/
def State.credit (s : State) (port : Nat) : Bool :=
  (if port = 0 then s.hif.creditA else s.hif.creditB) && s.dmaOn port

/-- A write queued for the host: it leaves at once when credit allows and no write of its port waits (R53). -/
def State.post (s : State) (p : Post) : State :=
  if s.credit p.port && s.hif.txq.all (fun q => q.port != p.port) then
    { s with hif := { s.hif with sent := s.hif.sent ++ [p] } }
  else { s with hif := { s.hif with txq := s.hif.txq ++ [p] } }

/-- Queued writes of a port leave in order when credit returns (R53). -/
def State.drainPort (s : State) (port : Nat) : State :=
  if s.credit port then
    { s with hif := { s.hif with
        sent := s.hif.sent ++ s.hif.txq.filter (fun q => q.port == port)
        txq := s.hif.txq.filter (fun q => q.port != port) } }
  else s

/-- A write to administrative-function memory (R39, R52). -/
def State.postAdmin (s : State) (addr : Nat) (data : Bytes) : State :=
  s.post { port := s.adminPort, kind := .admin, slice := 0, gen := 0, cmd := 0, addr := addr, data := data }

/-- Dword 0 to 2 of an entry of an MSI-X table: low address, high address, data (R39, R385). -/
def State.msixEntry (s : State) (fn vec i : Nat) : Nat := Tab.get 0 s.hif.msixTab (4 * (fn * 1024 + vec) + i)

/-- An MSI-X vector raised: an unmasked one sends its message, with the address and data of its table entry, a masked one sets its
PBA bit (R55). -/
def State.msix (s : State) (fn vec port : Nat) : State :=
  if Tab.get false s.hif.unmasked (fn * 1024 + vec) then
    s.post { port := port, kind := .msix, slice := if fn = 1 then vec else 0, gen := 0, cmd := fn * 1024 + vec,
             addr := s.msixEntry fn vec 1 * 2 ^ 32 + s.msixEntry fn vec 0 / 4 * 4, data := toLE 4 (s.msixEntry fn vec 2) }
  else { s with hif := { s.hif with pba := Tab.put false s.hif.pba (fn * 1024 + vec) true } }

/-- A vector of function 0 raised (R55). -/
def State.raise (s : State) (vec : Nat) : State := s.msix 0 vec s.adminPort

/-! ## On-chip memory (R276) -/

/-- The bytes of on-chip memory from an address on. -/
def State.ramBytes (s : State) (addr len : Nat) : Bytes := (List.range len).map (fun i => Tab.get 0 s.fab.ram (addr + i))

/-- Bytes written to on-chip memory. -/
def ramPut : List Host.Cell → Nat → Bytes → List Host.Cell
  | m, _, [] => m
  | m, a, b :: bs => ramPut (Tab.put 0 m a b) (a + 1) bs

/-! ## BBRAM (R271) -/

/-- The contents R271 lists, as the key store wrote them; an absent Datum and its CRC are zero (assumption 40). -/
def State.bbPlain (s : State) : Bytes :=
  (if s.ks.datum = [] then fill 36 0 else fitTo 32 s.ks.datum ++ toLE 4 (Config.datumCrc (fitTo 32 s.ks.datum))) ++ fill 28 0
    ++ (if s.tmp.canary then (List.range 64).map Config.canary else fill 64 0) ++ fill 3968 0

/-- Byte `i` of BBRAM; the clamp holds every cell at zero (R263). -/
def State.bbByte (s : State) (i : Nat) : Byte :=
  if s.on R.TMP_STS_CLAMP then 0
  else match Tab.get 0 s.tmp.bbOver i with
    | 0 => s.bbPlain.getD i 0
    | v + 1 => BitVec.ofNat 8 v

/-- `n` bytes of BBRAM from byte `off` on. -/
def State.bbBytes (s : State) (off n : Nat) : Bytes := (List.range n).map (fun i => s.bbByte (off + i))

/-- Bytes written to BBRAM from byte `off` on. -/
def State.bbPut (s : State) (off : Nat) (data : Bytes) : State :=
  if s.on R.TMP_STS_CLAMP then s
  else { s with tmp := { s.tmp with
    bbOver := data.zipIdx.foldl (fun t e => Tab.put 0 t (off + e.2) (e.1.toNat + 1)) s.tmp.bbOver } }

/-- Every byte of BBRAM cleared, and the canary written (R271). -/
def State.bbClear (s : State) : State :=
  { s with ks := { s.ks with datum := [] }, tmp := { s.tmp with canary := true, bbOver := [] } }

/-! ## Cyclic redundancy checks (R288, R350) -/

/-- One bit into a CRC register of `w` bits. -/
def crcStep (w poly r : Nat) (b : Bool) : Nat :=
  let shifted := 2 * r % 2 ^ w
  if r.testBit (w - 1) != b then shifted ^^^ poly else shifted

/-- The CRC of width `w` with this polynomial; its start value, bit order and final XOR are those of `Config.crcForm`. -/
def crcOf (w poly : Nat) (bs : Bytes) : Nat :=
  let (start, low, fin) := Config.crcForm w
  let r := (bs.flatMap (fun b => (List.range 8).map (fun i => b.toNat.testBit (if low then i else 7 - i)))).foldl
    (crcStep w poly) (start % 2 ^ w)
  (if low then maskOf (fun i => r.testBit (w - 1 - i)) w else r) ^^^ (fin % 2 ^ w)

/-! ## Word views of a stored register -/

/-- The stored word of element `i` of a register: each field at its place (R7, R13). -/
def State.regWord (s : State) (r : Reg) (i : Nat) : Nat :=
  r.fields.foldl (fun acc f => acc + (s.get f i) * 2 ^ f.lo) 0

/-- The stored word at a BAR0 offset, zero where no register lies (R14). -/
def State.storedAt (s : State) (off : Nat) : Nat :=
  match regAt off with
  | some (r, i) => s.regWord r i
  | none => 0

/-! ## Algorithms by the ALG byte of R190 -/

/-- One block under the block cipher of ALG: TDES double and triple length as EDE, AES, SM4 (R124). -/
def blockEnc (alg : Nat) (key blk : Bytes) : Bytes :=
  if alg = 0x01 ∨ alg = 0x02 then
    let k1 := key.take 8
    let k2 := (key.drop 8).take 8
    let k3 := if alg = 0x02 then (key.drop 16).take 8 else k1
    fitTo 8 (Config.desEnc k3 (Config.desDec k2 (Config.desEnc k1 blk)))
  else if alg = 0x18 then fitTo 16 (Config.sm4Enc key blk)
  else fitTo 16 (Config.aesEnc key blk)

/-- The inverse of `blockEnc`. -/
def blockDec (alg : Nat) (key blk : Bytes) : Bytes :=
  if alg = 0x01 ∨ alg = 0x02 then
    let k1 := key.take 8
    let k2 := (key.drop 8).take 8
    let k3 := if alg = 0x02 then (key.drop 16).take 8 else k1
    fitTo 8 (Config.desDec k1 (Config.desEnc k2 (Config.desDec k3 blk)))
  else if alg = 0x18 then fitTo 16 (Config.sm4Dec key blk)
  else fitTo 16 (Config.aesDec key blk)

/-- The block size of ALG in bytes. -/
def blockLen (alg : Nat) : Nat := if alg = 0x01 ∨ alg = 0x02 then 8 else 16

/-- ALG is TDES (R190). -/
def isTdes (alg : Nat) : Bool := alg = 0x01 || alg = 0x02
/-- ALG is AES-128, AES-192 or AES-256 (R190). -/
def isAes (alg : Nat) : Bool := alg = 0x10 || alg = 0x11 || alg = 0x12
/-- ALG is RSA (R190). -/
def isRsa (alg : Nat) : Bool := alg = 0x30 || alg = 0x31 || alg = 0x32
/-- ALG is an ML-KEM set. -/
def isMlkem (alg : Nat) : Bool := alg = 0x50 || alg = 0x51 || alg = 0x52
/-- ALG is an ML-DSA set. -/
def isMldsa (alg : Nat) : Bool := alg = 0x58 || alg = 0x59 || alg = 0x5A

/-- A block doubled in the field of its size (SP 800-38B). -/
def blockDouble (b : Bytes) : Bytes :=
  let n := b.length
  let v := ofBE b
  let w := 2 * v % 2 ^ (8 * n)
  toBE n (if v < 2 ^ (8 * n - 1) then w else w ^^^ (if n = 8 then 0x1B else 0x87))

/-- CMAC of the full block (SP 800-38B). -/
def cmacOf (alg : Nat) (key msg : Bytes) : Bytes :=
  let n := blockLen alg
  let k1 := blockDouble (blockEnc alg key (fill n 0))
  let full := msg.length ≠ 0 ∧ msg.length % n = 0
  let head := if full then msg.length - n else msg.length / n * n
  let last := msg.drop head
  let chain := (blocks msg.length n (msg.take head)).foldl (fun h b => blockEnc alg key (xorBytes h b)) (fill n 0)
  blockEnc alg key (xorBytes chain
    (if full then xorBytes last k1 else xorBytes (fitTo n (last ++ [0x80#8])) (blockDouble k1)))

/-- The KDF of R181: 32 bytes, the CMAC of counter 1, the label, a zero byte, the context and the length 256. A CMAC gives 16 bytes,
so two iterations of the counter make the 32 (SP 800-108). -/
def kdfOf (key label context : Bytes) : Bytes :=
  [1, 2].flatMap (fun i => cmacOf 0x12 key (toBE 4 i ++ label ++ [0#8] ++ context ++ toBE 2 256))

/-- The hash with its output fitted to `n` bytes. -/
def hashOf (alg n : Nat) (msg : Bytes) : Bytes := fitTo n (Config.hash alg n msg)

/-- A data block of counter mode: the standard incrementing function on the last 32 bits (R134). -/
def ctrBlock (alg : Nat) (key icb : Bytes) (i : Nat) : Bytes :=
  blockEnc alg key (icb.take 12 ++ toBE 4 ((ofBE (icb.drop 12) + i) % 2 ^ 32))

/-- Counter mode over data whose first block is number `i` after the initial counter block. -/
def ctrData (alg : Nat) (key icb : Bytes) (i : Nat) (data : Bytes) : Bytes :=
  ((blocks (data.length + 1) 16 data).zipIdx.map (fun e => xorBytes e.1 (ctrBlock alg key icb (i + e.2)))).flatten

/-- A product in the field of GHASH (SP 800-38D): `n` bits of `x` from the top, the multiple `v` of the other factor, the
sum `z`. -/
def gfMul : Nat → Nat → Nat → Nat → Nat
  | 0, _, _, z => z
  | n + 1, x, v, z =>
    gfMul n x (if v % 2 = 1 then v / 2 ^^^ 0xE1 * 2 ^ 120 else v / 2) (if x.testBit n then z ^^^ v else z)

/-- GHASH continued from an accumulator over data, its last block padded with zeros. -/
def ghashOn (h acc : Nat) (data : Bytes) : Nat :=
  (blocks (data.length + 1) 16 data).foldl (fun y b => gfMul 128 (y ^^^ ofBE (fitTo 16 b)) h 0) acc

/-- The hash subkey H (SP 800-38D). -/
def gcmH (alg : Nat) (key : Bytes) : Nat := ofBE (blockEnc alg key (fill 16 0))

/-- The tag from an accumulator over AAD and ciphertext: the length block, then the mask E(K, J0) for a 96-bit IV. -/
def gcmFinish (alg : Nat) (key iv : Bytes) (acc aadLen ctLen : Nat) : Bytes :=
  xorBytes (toBE 16 (ghashOn (gcmH alg key) acc (toBE 8 (8 * aadLen) ++ toBE 8 (8 * ctLen))))
    (blockEnc alg key (iv ++ toBE 4 1))

/-- The GCM tag of a ciphertext (SP 800-38D, 96-bit IV). -/
def gcmTag (alg : Nat) (key iv aad ct : Bytes) : Bytes :=
  let h := gcmH alg key
  gcmFinish alg key iv (ghashOn h (ghashOn h 0 aad) ct) aad.length ct.length

/-- GCM encryption: ciphertext and tag. -/
def gcmEnc (alg : Nat) (key iv aad pt : Bytes) : Bytes × Bytes :=
  let ct := ctrData alg key (iv ++ toBE 4 1) 1 pt
  (ct, gcmTag alg key iv aad ct)

/-- GCM decryption: plaintext and the computed tag. -/
def gcmDec (alg : Nat) (key iv aad ct : Bytes) : Bytes × Bytes :=
  (ctrData alg key (iv ++ toBE 4 1) 1 ct, gcmTag alg key iv aad ct)

/-- CBC encryption of whole blocks under ALG from a chaining block. -/
def cbcEnc (alg : Nat) (key : Bytes) : Bytes → List Bytes → Bytes
  | _, [] => []
  | iv, b :: bs => let c := blockEnc alg key (xorBytes b iv); c ++ cbcEnc alg key c bs

/-- CBC decryption of whole blocks under ALG from a chaining block. -/
def cbcDec (alg : Nat) (key : Bytes) : Bytes → List Bytes → Bytes
  | _, [] => []
  | iv, c :: cs => xorBytes (blockDec alg key c) iv ++ cbcDec alg key c cs

/-- The last CBC block of a message in whole blocks from the zero block: the CBC-MAC chain of ISO/IEC 9797-1. -/
def cbcMacChain (enc : Bytes → Bytes) (zero : Bytes) (bs : List Bytes) : Bytes :=
  bs.foldl (fun h b => enc (xorBytes h b)) zero

/-- Padding methods 1 and 2 of ISO/IEC 9797-1 to whole 8-byte blocks; an empty input with method 1 is one zero
block (R106). -/
def iso9797Pad (method : Nat) (msg : Bytes) : Bytes :=
  if method = 2 then fitTo ((msg.length / 8 + 1) * 8) (msg ++ [0x80#8])
  else fitTo (max 1 (ceilDiv msg.length 8) * 8) msg

/-- MAC algorithm 1 of ISO/IEC 9797-1 under TDES (R106). -/
def macAlg1 (alg : Nat) (key : Bytes) (pad : Nat) (msg : Bytes) : Bytes :=
  let m := iso9797Pad pad msg
  cbcMacChain (blockEnc alg key) (fill 8 0) (blocks m.length 8 m)

/-- MAC algorithm 3 of ISO/IEC 9797-1 under K1 and K2, the halves of a double-length key (R106). -/
def macAlg3 (key : Bytes) (pad : Nat) (msg : Bytes) : Bytes :=
  let m := iso9797Pad pad msg
  let k1 := key.take 8
  let k2 := (key.drop 8).take 8
  let h := cbcMacChain (fun b => fitTo 8 (Config.desEnc k1 b)) (fill 8 0) (blocks m.length 8 m)
  fitTo 8 (Config.desEnc k1 (Config.desDec k2 h))

/-- XTS-AES of one data unit of whole blocks (SP 800-38E): the tweak is the sequence number enciphered under the second half of the
key, and doubles from block to block. -/
def xtsUnit (dec : Bool) (key : Bytes) (seq : Nat) (data : Bytes) : Bytes :=
  let n := key.length / 2
  let dbl (v : Nat) : Nat := if v < 2 ^ 127 then 2 * v else (2 * v % 2 ^ 128) ^^^ 0x87
  let tweak := ofLE (blockEnc 0x10 (key.drop n) (toLE 16 seq))
  let f := if dec then blockDec 0x10 (key.take n) else blockEnc 0x10 (key.take n)
  ((blocks (data.length + 1) 16 data).foldl (fun (acc : Bytes × Nat) b =>
    let t := toLE 16 acc.2
    (acc.1 ++ xorBytes (f (xorBytes b t)) t, dbl acc.2)) ([], tweak)).1

/-- The rounds of KWP (SP 800-38F) over the integrity block and the semiblocks, from round `t`. -/
def kwpRounds (key : Bytes) : Nat → Nat → Bytes → List Bytes → Bytes × List Bytes
  | 0, _, a, rs => (a, rs)
  | _ + 1, _, a, [] => (a, [])
  | n + 1, t, a, r :: rs =>
    let b := blockEnc 0x12 key (a ++ r)
    kwpRounds key n (t + 1) (xorBytes (b.take 8) (toBE 8 t)) (rs ++ [b.drop 8])

/-- The rounds undone, `t` of them. -/
def kwpUndo (key : Bytes) : Nat → Bytes → List Bytes → Bytes × List Bytes
  | 0, a, rs => (a, rs)
  | t + 1, a, rs =>
    let b := blockDec 0x12 key (xorBytes a (toBE 8 (t + 1)) ++ rs.getLastD [])
    kwpUndo key t (b.take 8) (b.drop 8 :: rs.dropLast)

/-- KWP wrapping of a nonempty plaintext under an AES key (SP 800-38F). -/
def kwpWrap (key pt : Bytes) : Bytes :=
  let m := ceilDiv pt.length 8
  let a := [0xA6#8, 0x59#8, 0x59#8, 0xA6#8] ++ toBE 4 pt.length
  let p := fitTo (8 * m) pt
  if m = 1 then blockEnc 0x12 key (a ++ p)
  else
    let (a1, rs) := kwpRounds key (6 * m) 1 a (blocks m 8 p)
    a1 ++ rs.flatten

/-- KWP unwrapping: `none` when the integrity check fails. -/
def kwpUnwrap (key ct : Bytes) : Option Bytes :=
  let m := ct.length / 8 - 1
  let (a, p) :=
    if m = 1 then let b := blockDec 0x12 key ct; (b.take 8, b.drop 8)
    else let (a, rs) := kwpUndo key (6 * m) (ct.take 8) (blocks m 8 (ct.drop 8)); (a, rs.flatten)
  let n := ofBE (a.drop 4)
  if ct.length % 8 ≠ 0 ∨ m = 0 ∨ a.take 4 ≠ [0xA6#8, 0x59#8, 0x59#8, 0xA6#8] ∨ 8 * m < n ∨ n + 8 ≤ 8 * m
      ∨ !allZero (p.drop n) then none
  else some (p.take n)

end Sys2Proof.Machine
end

