-- ==== Sys2Proof/Machine/Flags.lean ====
section
/-! DEFINITION. Status bits: the setting of a W1C status bit with its interrupt (R12, R55), and the capture of the
first event in an error-information register. -/

namespace Sys2Proof.Machine

/-- A status bit `bitNo` of the register whose status field is `f` set by an event: a change of "status AND
enable" from 0 to 1 raises vector `vec` of function 0 (R55). `mask` is in the field's own bits. -/
def State.event (s : State) (f en : Field) (vec mask : Nat) : State :=
  let old := s.get f
  let t := s.set f 0 (old ||| mask)
  if (mask &&& (s.get en >>> f.lo)) &&& (2 ^ 64 - 1 - old) = 0 then t else t.raise vec

/-- A HIF_ERR_STS event; the first one while the register reads all zero is captured (R64). DESIGN CHOICE: an event
with no ring or no slice (a port stall, a log overflow, a malformed BAR2 write) gives 0 there (assumption 83). -/
def State.hifErr (s : State) (f : Field) (slice ring : Nat) : State :=
  let t := if s.storedAt 0x010020 = 0 then
      ((s.set R.HIF_ERR_INFO_CAUSE 0 f.lo).set R.HIF_ERR_INFO_RING 0 ring).set R.HIF_ERR_INFO_SLICE 0 slice
    else s
  t.event f R.HIF_IRQ_EN_EN 0 1

/-- A TRV_ERR_STS event (R86). -/
def State.trvErr (s : State) (f : Field) : State := s.event f R.TRV_IRQ_EN_EN 1 1

/-- The first KS_ERR_STS event captured (R214). -/
def State.ksErrSet (s : State) (f : Field) (slice leaf : Nat) : State :=
  let t := if s.storedAt 0x080020 = 0 then
      ((s.set R.KS_ERR_INFO_CAUSE 0 f.lo).set R.KS_ERR_INFO_SLICE 0 slice).set R.KS_ERR_INFO_LEAF 0 leaf
    else s
  t.event f R.KS_IRQ_EN_EN 2 1

/-- An RNG_ERR_STS event, several tests at once; CAUSE holds the lowest of their bit numbers (R217, R227). -/
def State.rngErr (s : State) (bitNos : List Nat) (exp : Bool) (unit : Nat) : State :=
  let fields := [R.RNG_ERR_STS_RCT, R.RNG_ERR_STS_APT, R.RNG_ERR_STS_LIVE, R.RNG_ERR_STS_LOCK,
    R.RNG_ERR_STS_REPEAT, R.RNG_ERR_STS_HOLD, R.RNG_ERR_STS_FATAL, R.RNG_ERR_STS_KAT]
  let low := bitNos.foldl min 7
  let t := if s.storedAt 0x090008 = 0 then
      ((s.set R.RNG_ERR_INFO_CAUSE 0 low).put1 R.RNG_ERR_INFO_EXP exp).set R.RNG_ERR_INFO_UNIT 0 unit
    else s
  fields.foldl (fun u f => if bitNos.contains f.lo then u.event f R.RNG_IRQ_EN_EN 3 1 else u) t

/-- An FB_ERR_STS event (R315). -/
def State.fbErr (s : State) (f : Field) : State := s.event f R.FB_IRQ_EN_EN 8 1

/-- An LC_EVT_STS event (R257). -/
def State.lcEvt (s : State) (f : Field) : State := s.event f R.LC_IRQ_EN_EN 4 1

/-- A GRD_ERR_STS event (R298). -/
def State.grdErr (s : State) (f : Field) (mask : Nat) : State := s.event f R.GRD_IRQ_EN_EN 6 mask

/-- A violation of group `g`: captured, or counted while a capture stands. -/
def State.violate (s : State) (g cause op addr master colour : Nat) : State :=
  if s.on R.GRD_VIOL_INFO_VALID g then s.bumpSat R.GRD_VIOL_OVF_COUNT g
  else
    let t := ((((((s.set R.GRD_VIOL_ADDR_ADDR g addr).set R.GRD_VIOL_INFO_CAUSE g cause).set R.GRD_VIOL_INFO_OP g op).set
      R.GRD_VIOL_INFO_COLOUR g colour).set R.GRD_VIOL_INFO_MASTER g master).set R.GRD_VIOL_OVF_COUNT g 0).set R.GRD_VIOL_INFO_VALID g 1
    t.grdErr R.GRD_ERR_STS_VIOL (2 ^ g)

/-- A UPD_ERR_STS event (R330). -/
def State.updErr (s : State) (f : Field) : State := s.event f R.UPD_IRQ_EN_EN 9 1

/-- A NET_ERR_STS event; the first one while the register reads all zero is captured (R368). -/
def State.netErr (s : State) (f : Field) (port member slice : Nat) : State :=
  let t := if s.storedAt 0x130018 = 0 then
      (((s.set R.NET_ERR_INFO_CAUSE 0 f.lo).set R.NET_ERR_INFO_PORT 0 port).set R.NET_ERR_INFO_MEMBER 0 member).set
        R.NET_ERR_INFO_SLICE 0 slice
    else s
  t.event f R.NET_IRQ_EN_EN 12 1

/-- A write of an IRQ_EN register: enabling a bit whose status bit is already 1 raises the vector (R55). -/
def State.writeIrqEn (s : State) (en : Field) (stsOff vec v : Nat) : State :=
  let old := s.get en
  let t := s.set en 0 v
  if (t.get en &&& s.storedAt stsOff) &&& (2 ^ 64 - 1 - old) = 0 then t else t.raise vec

end Sys2Proof.Machine
end

