-- ==== Sys2Proof/Machine/Operands.lean ====
section
/-! DEFINITION. Operand forms: the fields of a descriptor (R46), of a slice context block (R41), of a key handle
(R185), of a key's attribute word (R188) and of a blob header (R191), and the classes of R67. -/

namespace Sys2Proof.Machine

/-! ## Descriptors (R46) -/

/-- A descriptor as the HIF holds it: 128 bytes. -/
abbrev Desc := Bytes

def Desc.opcode (d : Desc) : Nat := fieldLE d 0 2
def Desc.cls (d : Desc) : Nat := fieldLE d 2 1
def Desc.flags (d : Desc) : Nat := fieldLE d 3 1
def Desc.intr (d : Desc) : Bool := bit d.flags 0
def Desc.resumable (d : Desc) : Bool := bit d.flags 1
def Desc.audit (d : Desc) : Bool := bit d.flags 2
def Desc.continue_ (d : Desc) : Bool := bit d.flags 3
def Desc.gen (d : Desc) : Nat := fieldLE d 4 1
def Desc.order (d : Desc) : Nat := fieldLE d 5 2
def Desc.group (d : Desc) : Nat := bits d.order 11 0
def Desc.depCount (d : Desc) : Nat := bits d.order 15 12
def Desc.succ (d : Desc) (i : Nat) : Nat := fieldLE d (8 + 2 * i) 2
def Desc.notBefore (d : Desc) : Nat := bits (fieldLE d 12 4) 19 0
def Desc.key0 (d : Desc) : Nat := fieldLE d 16 8
def Desc.key1 (d : Desc) : Nat := fieldLE d 24 8
def Desc.bufAddr (d : Desc) (b : Nat) : Nat := fieldLE d (32 + 16 * b) 8
def Desc.bufLen (d : Desc) (b : Nat) : Nat := fieldLE d (40 + 16 * b) 4
def Desc.bufFlags (d : Desc) (b : Nat) : Nat := fieldLE d (44 + 16 * b) 4
def Desc.statusAddr (d : Desc) : Nat := fieldLE d 96 8
/-- `n` bytes of PARAM at descriptor byte `off` (R46: bytes 104 to 127). -/
def Desc.param (d : Desc) (off n : Nat) : Bytes := cut d off n
/-- PARAM bytes at `off` as a little-endian number. -/
def Desc.paramN (d : Desc) (off n : Nat) : Nat := fieldLE d off n
/-- PARAM byte `off`. -/
def Desc.pb (d : Desc) (off : Nat) : Nat := fieldLE d off 1
/-- PARAM bytes `off` to `off + n - 1` are zero. -/
def Desc.pz (d : Desc) (off n : Nat) : Bool := zeroAt d off n
/-- The successors named: slot indices (R46, R79). -/
def Desc.succs (d : Desc) : List Nat :=
  ([0, 1].filter (fun i => bit (d.succ i) 15)).map (fun i => bits (d.succ i) 11 0)

/-- The resv fields of R46 outside PARAM are zero. -/
def Desc.resvOk (d : Desc) : Bool :=
  bits d.flags 7 4 == 0 && zeroAt d 7 1 && bits (d.succ 0) 14 12 == 0 && bits (d.succ 1) 14 12 == 0
    && bits (fieldLE d 12 4) 31 20 == 0 && (List.range 4).all (fun b => bits (d.bufFlags b) 31 1 == 0)

/-! ## Handles, attributes (R185, R188) -/

def hSlice (h : Nat) : Nat := bits h 63 54
def hIndex (h : Nat) : Nat := bits h 53 30
def hGen (h : Nat) : Nat := bits h 29 14
def hCheck (h : Nat) : Nat := bits h 13 0
/-- The index names an ephemeral key (R185). -/
def hEphem (h : Nat) : Bool := hIndex h ≥ 0x800000

def aLimit (a : Nat) : Nat := bits a 63 40
def aTalg (a : Nat) : Nat := bits a 39 32
def aMode (a : Nat) : Nat := bits a 31 24
/-- USAGE as a number, the first character the more significant (R188: it stands in [15:8], the second in [23:16]). -/
def aUsage (a : Nat) : Nat := bits a 15 8 * 256 + bits a 23 16
def aTr34 (a : Nat) : Bool := bit a 7
def aEphem (a : Nat) : Bool := bit a 6
def aPublic (a : Nat) : Bool := bit a 5
def aLinked (a : Nat) : Bool := bit a 4
def aGenIn (a : Nat) : Bool := bit a 3
def aExport (a : Nat) : Bool := bit a 2
def aRole (a : Nat) : Nat := bits a 1 0

/-- ATTR from its parts (R188). -/
def mkAttr (limit talg mode usage : Nat) (tr34 ephem pub linked genIn exp : Bool) (role : Nat) : Nat :=
  limit * 2 ^ 40 + talg * 2 ^ 32 + mode * 2 ^ 24 + usage % 256 * 2 ^ 16 + usage / 256 * 2 ^ 8 + b2n tr34 * 128 + b2n ephem * 64
    + b2n pub * 32 + b2n linked * 16 + b2n genIn * 8 + b2n exp * 4 + role

/-- Roles (R188). -/
def roleEnc : Nat := 0
def roleDec : Nat := 1
def roleWrap : Nat := 2
def roleDerive : Nat := 3

/-- A usage code from its two ASCII characters, the first in the high byte (R188). -/
def usage (a b : Char) : Nat := a.toNat * 256 + b.toNat

/-! ## Classes (R67) -/

/-- What a class fixes: span, promise, keys, bulk?, placement delay limit. -/
structure ClassInfo where
  promise : Nat
  span : Nat
  keys : Nat
  bulk : Bool
  dmax : Nat
deriving DecidableEq, Repr

/-- The classes of R67, whether or not GLB_CAP reports their units. -/
def classInfo (c : Nat) : Option ClassInfo :=
  match c with
  | 0x01 | 0x02 | 0x03 => some ⟨4, 1, 2, false, 1⟩
  | 0x04 => some ⟨4, 1, 1, false, 1⟩
  | 0x05 => some ⟨6, 2, 2, false, 1⟩
  | 0x06 => some ⟨6, 2, 1, false, 1⟩
  | 0x07 => some ⟨8, 3, 2, false, 1⟩
  | 0x08 => some ⟨8, 1, 2, false, 5⟩
  | 0x10 | 0x11 => some ⟨2, 0, 1, true, 0⟩
  | 0x20 => some ⟨60, 22, 1, false, 15⟩
  | 0x21 => some ⟨240, 75, 2, false, 89⟩
  | 0x22 => some ⟨8, 1, 1, false, 5⟩
  | 0x23 => some ⟨12, 5, 1, false, 1⟩
  | 0x24 => some ⟨24, 10, 1, false, 3⟩
  | 0x25 => some ⟨20, 8, 1, false, 3⟩
  | 0x26 => some ⟨36, 16, 1, false, 3⟩
  | 0x27 => some ⟨20, 8, 1, false, 3⟩
  | 0x28 => some ⟨36, 16, 1, false, 3⟩
  | 0x29 => some ⟨20, 8, 1, false, 3⟩
  | 0x2A => some ⟨240, 118, 1, false, 3⟩
  | 0x2B => some ⟨40, 15, 1, false, 9⟩
  | 0x30 => some ⟨6, 2, 1, false, 1⟩
  | 0x31 => some ⟨24, 10, 1, false, 3⟩
  | 0x32 => some ⟨32, 15, 1, false, 1⟩
  | 0x33 => some ⟨8, 3, 1, false, 1⟩
  | _ => none

/-- The class of each opcode (R91, R127, R140, R161, R172, R208); `none` = unknown opcode. -/
def opcodeClass (op : Nat) : Option Nat :=
  match op with
  | 0x0100 => some 0x01
  | 0x0110 | 0x0111 | 0x0112 | 0x0113 => some 0x02
  | 0x0120 | 0x0121 => some 0x03
  | 0x0130 | 0x0131 | 0x0138 => some 0x04
  | 0x0140 | 0x0141 => some 0x05
  | 0x0150 => some 0x06
  | 0x0160 | 0x0161 | 0x0162 => some 0x07
  | 0x0168 => some 0x21
  | 0x0170 => some 0x08
  | 0x0200 | 0x0201 | 0x0202 | 0x0203 | 0x0204 | 0x0208 | 0x0209 => some 0x10
  | 0x0280 | 0x0281 | 0x0288 | 0x0289 => some 0x11
  | 0x0300 | 0x0301 => some 0x20
  | 0x0302 | 0x0303 => some 0x21
  | 0x0308 => some 0x22
  | 0x0310 => some 0x23
  | 0x0311 => some 0x24
  | 0x0312 => some 0x25
  | 0x0313 => some 0x26
  | 0x0318 => some 0x27
  | 0x0319 => some 0x28
  | 0x0320 => some 0x29
  | 0x0330 => some 0x2A
  | 0x0340 | 0x0341 | 0x0342 => some 0x30
  | 0x0350 => some 0x31
  | 0x0351 => some 0x32
  | 0x0358 | 0x0359 => some 0x33
  | 0x0400 | 0x0401 | 0x0402 | 0x0403 | 0x0404 => some 0x08
  | 0x0408 | 0x0409 => some 0x07
  | 0x0410 => some 0x2B
  | _ => none

/-- S of a descriptor's class (R67). -/
def spanOf (d : Desc) : Nat :=
  match classInfo d.cls with
  | some ci => if ci.bulk then ceilDiv (d.bufLen 0) 262144 else ci.span
  | none => 0

/-- P of a descriptor's class (R67). -/
def promiseOf (d : Desc) : Nat :=
  match classInfo d.cls with
  | some ci => if ci.bulk then 2 + ceilDiv (d.bufLen 0) 262144 else ci.promise
  | none => 0

/-- The largest placement delay (R70). -/
def dmaxOf (d : Desc) : Nat := match classInfo d.cls with | some ci => ci.dmax | none => 0

/-- K of a descriptor: class 0x11 places one key for the HMAC opcodes only (R67). -/
def keysOf (d : Desc) : Nat :=
  if d.cls = 0x11 then (if d.opcode = 0x0288 ∨ d.opcode = 0x0289 then 1 else 0)
  else match classInfo d.cls with | some ci => ci.keys | none => 0

/-- The recompute unit of the class is the step (R67). -/
def isBulk (d : Desc) : Bool := d.cls = 0x10 || d.cls = 0x11

/-- A payment opcode of R91. -/
def isPayment (op : Nat) : Bool := op / 256 == 0x01
/-- A key store opcode of R208. -/
def isKeyOp (op : Nat) : Bool := op / 256 == 0x04

/-! ## Completion codes (R63) -/

def ccOk : Nat := 0x0000
def ccPartial : Nat := 0x0001
def ccNotAdmitted : Nat := 0x0101
def ccEntropyHold : Nat := 0x0102
def ccAuditFull : Nat := 0x0103
def ccUpdateHold : Nat := 0x0104
def ccInputRange : Nat := 0x0201
def ccPointInvalid : Nat := 0x0202
def ccSigInvalid : Nat := 0x0203
def ccLengthLimit : Nat := 0x0204
def ccFormatInvalid : Nat := 0x0205
def ccPinMismatch : Nat := 0x0206
def ccDmaFault : Nat := 0x0207
def ccKeyRevoked : Nat := 0x0301
def ccKeyAttrDenied : Nat := 0x0302
def ccCounterExhausted : Nat := 0x0303
def ccSlotIntegrity : Nat := 0x0304
def ccIntegrityFault : Nat := 0x0401
def ccSignRetryLimit : Nat := 0x0402
def ccPolicyDenied : Nat := 0x0501
def ccQuorumRequired : Nat := 0x0502
def ccFatalTamper : Nat := 0x0601
def ccFatalRng : Nat := 0x0602
def ccFatalClock : Nat := 0x0603

end Sys2Proof.Machine
end

