-- ==== Sys2Proof/Machine/Views.lean ====
section
/-! DEFINITION. What a BAR0 read returns (R10 to R14): the stored fields of a register, the registers whose value
other state gives, and zero for a write-only field, an unoccupied offset and a block whose clock gate is off. -/

namespace Sys2Proof.Machine

/-- PCI Express Device ID of a function, and the class code of both (R36). -/
def pcieDeviceId (fn : Nat) : Nat := if fn = 0 then 0x9640 else 0x9641
def pcieClassCode : Nat := 0x108000

/-- MSI-X vectors of a function (R36). -/
def pcieVectors (fn : Nat) : Nat := if fn = 0 then 16 else 1024

/-- The CLK_GATE bit of a 64 KB block, if it has one (R338). -/
def gateBit (block : Nat) : Option Nat :=
  match block with
  | 0x03 => some 0 | 0x04 => some 1 | 0x07 => some 2 | 0x05 => some 3 | 0x06 => some 4
  | 0x0E => some 5 | 0x13 => some 6 | 0x10 => some 7 | 0x14 => some 8
  | _ => none

/-- The block's clock gate is off (R14, R338). -/
def State.gated (s : State) (off : Nat) : Bool :=
  match gateBit (off / 0x10000) with
  | some b => !(bit (s.get R.CLK_GATE_ON) b)
  | none => false

/-- A BAR0 write to the block at `off` is taken: from stage 0x2 on, not in END or INVALID (R238), not while halted after
a tamper response (R263), and with the block's clock gate on (R14). -/
def State.writable (s : State) (off : Nat) : Bool :=
  decide (2 ≤ s.stage) && s.stage != 0xB && !s.on R.TMP_STS_HALT && !s.gated off

/-- The administrative function's access to a block whose clock gate is off (R14): the guard of the HIF group captures it
with cause GATED and master number 1,024. -/
def State.adminGated (s : State) (off : Nat) (isWrite : Bool) : State :=
  if s.glb.powered ∧ s.gated off then s.violate 2 1 (b2n isWrite) (0x10000000 + off) 1024 0 else s

/-- What a register write does when the block takes it; it is dropped otherwise, and captured where the clock gate of the
block is off. -/
def State.ifWritable (s : State) (off : Nat) (t : State) : State := if s.writable off then t else s.adminGated off true

/-- In-flight entries of a slice (R45, R86). -/
def State.inflightOf (s : State) (n : Nat) : Nat := (s.trv.cmds.filter (fun c => c.slice == n)).length

/-- A command is held: it has not been admitted (R78). -/
def Cmd.isHeld (c : Cmd) : Bool := c.st == .held || c.st == .released

/-- Held entries of a slice. -/
def State.heldOf (s : State) (n : Nat) : Nat :=
  (s.trv.cmds.filter (fun c => c.slice == n && c.isHeld)).length

/-- SLICE_STATE of a slice (R64). -/
def sliceStCode : SliceSt → Nat
  | .disabled => 0 | .ready => 1 | .resetting => 2 | .quiescing => 3 | .quiesced => 4

/-- HIF_SLICE_STATE[n] (R64). -/
def State.sliceStateWord (s : State) (n : Nat) : Nat :=
  let sl := s.slice n
  b2n sl.logOvf * 2 ^ 17 + b2n (sl.ctx.logEn && sl.st != .disabled) * 2 ^ 16 + sl.port * 2 ^ 12 + sliceStCode sl.st * 2 ^ 8 + sl.gen

/-- Capability fuse bit `n` disables its unit or feature; it was sampled at the last cold reset (R256). -/
def State.classPresent (s : State) (c : Nat) : Bool :=
  (classInfo c).isSome && (c != 0x21 || s.on R.GLB_CAP1_CLASS21)
    && ((c != 0x27 && c != 0x28) || s.on R.GLB_CAP1_EDDSA)

/-- TRV_CLASS_INFO[c] (R86). -/
def State.classWord (s : State) (c : Nat) : Nat :=
  match classInfo c with
  | none => 0
  | some ci =>
    if s.classPresent c then
      2 ^ 31 + b2n ci.bulk * 2 ^ 30 + b2n (c == 0x2A) * 2 ^ 29 + b2n ci.bulk * 2 ^ 28 + ci.keys * 2 ^ 24
        + ci.span * 2 ^ 16 + ci.dmax * 2 ^ 8 + ci.promise
    else 0

/-! The resources, numbered as TRV_CAL_SEL.RES numbers them (R86). -/
def resKp : Nat := 0
def resTu : Nat := 1
def resCl : Nat := 2
def resHl : Nat := 3
def resPk : Nat := 4
def resLu : Nat := 5
def resRnd : Nat := 6
def resDose : Nat := 7
def resFb : Nat := 8
def resLedger : Nat := 9
def resEntry : Nat := 11

/-- Capacity of a frame in each resource of the units present (R3, R29, R65): key paging, TU steps, cipher-lane
blocks, hash-lane blocks, PK eighths, lattice eighths, random bytes, Fieldbook slots. -/
def State.capacity (s : State) (res : Nat) : Nat :=
  match res with
  | 0 => 2048
  | 1 => s.get R.GLB_CAP0_TU * 80
  | 2 => s.get R.GLB_CAP0_CL * 10000
  | 3 => s.get R.GLB_CAP0_HL * 500
  | 4 => s.get R.GLB_CAP0_PK * 8
  | 5 => s.get R.GLB_CAP1_LU * 8
  | 6 => 262144
  | 8 => 64
  | _ => 0

/-- The recompute reserve: one sixteenth, rounded up, of every resource but Fieldbook slots (R29). -/
def State.reserveOf (s : State) (res : Nat) : Nat :=
  if res = resFb then 0 else ceilDiv (s.capacity res) 16

/-- The command of a join operation that Traverse has admitted for the administrative function (R358): whether one is in flight, and
the random bytes it has yet to draw. -/
def State.admOpen (s : State) : Nat :=
  match s.net.jobs with | some (j :: _) => if j.due = 0 then 0 else 1 | _ => 0
def State.admRnd (s : State) : Nat :=
  match s.net.jobs with | some (j :: _) => if j.due = 0 then 0 else j.rnd | _ => 0

/-- Entries of the in-flight table in use. -/
def State.entries (s : State) : Nat := s.trv.cmds.length + s.admOpen

/-- TRV_CAL_DATA for the selected account (R86). -/
def State.calData (s : State) : Nat :=
  let res := s.get R.TRV_CAL_SEL_RES
  let f := s.frameNo + s.get R.TRV_CAL_SEL_OFFSET
  let r := if res = resRnd then s.trv.seenRnd else if res = resEntry then s.trv.seenEntries
    else s.trv.seenCal.foldl (fun n e => if e.1 / 1024 = f * 16 + res then n + e.2 else n) (Tab.get 0 s.trv.seenAdm (f * 16 + res))
  let a := if res = resLedger then s.trv.seenLedgerA else if res = resLedger + 1 then s.trv.seenLedgerB
    else if res = resDose then Tab.get 0 s.trv.seenDose f else if res = resEntry then 16384
    else s.capacity res - s.reserveOf res
  if res ≤ 0xB then a * 2 ^ 32 + r else 0

/-- The epoch of a domain: the value of its epoch leaf. -/
def State.leafValue (s : State) (k : LeafKind) (owner : Nat) : Option Nat :=
  match s.ks.leaves.find? (fun e => e.2.kind == k && e.2.owner == owner) with
  | some (_, l) => some (max (if l.da = 0 then l.a else 0) (max (if l.db = 0 then l.b else 0) (if l.dc = 0 then l.c else 0)))
  | none => none

/-- EPOCH of slice `n`'s domain; 0 when absent. -/
def State.epochOf (s : State) (n : Nat) : Nat := (s.leafValue .epoch n).getD 0

/-- The version floor: the greatest value of the copies that pass (R320, R207); a lost one reads a free value. -/
def State.floor (s : State) : Nat :=
  let l := s.upd.floor
  if l.da ≠ 0 ∧ l.db ≠ 0 ∧ l.dc ≠ 0 then (Config.lostFloor l.a l.b l.c).toNat
  else max (if l.da = 0 then l.a else 0) (max (if l.db = 0 then l.b else 0) (if l.dc = 0 then l.c else 0))

/-- QU_SESS: frames left of a session, in units of 16, rounded up (R257). -/
def State.sessWord (s : State) (n : Nat) : Nat :=
  let se := Tab.get {} s.sessions n
  if se.st = 0 then 0
  else se.id * 2 ^ 32 + ceilDiv (se.start + se.life - s.frameNo) 16 * 2 ^ 16 + se.held * 2 ^ 12 + se.req * 2 ^ 8 + se.st

/-- KSEL for a record made now; `fatal` for records of a tamper response or fatal event. -/
def State.kselFor (s : State) (fatal : Bool) : Nat :=
  let lc := s.get R.LC_STATE_CODE
  if lc ≤ 1 then 2
  else if s.on R.KS_STS_DATUM && !(s.on R.KS_STS_DEBUG_SUSP) && !fatal then 0 else 1

/-- TMP_TS_STS (R266): a disabled input reads 0b11; an enabled one its normal state until a sample says otherwise. -/
def State.tsStsWord (s : State) : Nat :=
  (List.range 4).foldl (fun v i =>
    let b := s.get R.TMP_TS_CFG_INPUT / 256 ^ i % 256
    let x := s.get R.TMP_TS_STS_INPUT / 4 ^ i % 4
    v + 4 ^ i * (if !bit b 0 then 3 else if x = 3 then b2n (bit b 1) else x)) 0

/-- TMP_MESH_STS (R264): a disabled pair reads 0b00. -/
def State.meshStsWord (s : State) : Nat :=
  (List.range 8).foldl (fun v p =>
    v + (if bit (s.get R.TMP_MESH_CFG_EN) p then s.get R.TMP_MESH_STS_PAIR / 4 ^ p % 4 * 4 ^ p else 0)) 0

/-- The registers whose value is other state; `none` for a stored one. -/
def State.derived (s : State) (off : Nat) : Option Nat :=
  if off = 0x000028 then some s.frameNo
  else if off = 0x000000 then some (s.storedAt off + Config.stepping % 256 * 256)
  else if off = 0x030004 then some (s.storedAt off + s.get R.TU_CTL_LOCK)
  else if off = 0x050004 then some (s.storedAt off + s.get R.PK_CTL_LOCK * 2)
  else if off = 0x060004 then some (s.storedAt off + s.get R.LU_CTL_LOCK * 2)
  else if off = 0x140008 then
    let d := if s.clk.safe.isSome then 0 else s.get R.MGT_GPIO_DIR_OUT_EN
    some ((d &&& s.get R.MGT_GPIO_OUT_LEVEL) ||| (s.get R.MGT_GPIO_IN_LEVEL &&& (d ^^^ 255)))
  else if 0x011000 ≤ off ∧ off < 0x012000 then some (s.sliceStateWord ((off - 0x011000) / 4))
  else if off = 0x020008 then
    some ((s.trv.cmds.filter (·.isHeld)).length * 2 ^ 16 + s.entries)
  else if off = 0x020038 then some s.calData
  else if 0x020400 ≤ off ∧ off < 0x020800 then some (s.classWord ((off - 0x020400) / 4))
  else if 0x022000 ≤ off ∧ off < 0x023000 then
    let n := (off - 0x022000) / 4
    some (s.heldOf n * 2 ^ 16 + s.inflightOf n)
  else if 0x051000 ≤ off ∧ off < 0x052000 then
    let n := (off - 0x051000) / 4
    some (s.get R.PK_SLICE_CONT_EVICTED n * 2 ^ 16 + (s.slice n).cont.length)
  else if 0x085000 ≤ off ∧ off < 0x087000 then
    let n := (off - 0x085000) / 8
    let d := s.domain n
    some (if d.present then 2 ^ 63 + (s.epochOf n - d.floor) * 2 ^ 48 + s.epochOf n else 0)
  else if off = 0x08002C then
    some ((if s.on R.KS_STS_READY then s.ks.leaves.length + 1 else 0) * 2 ^ 16 + s.ks.revoked.length)
  else if off = 0x0B0000 then some (s.sessions.filter (fun e => e.2.st != 0)).length
  else if 0x0B1000 ≤ off ∧ off < 0x0B3008 then some (s.sessWord ((off - 0x0B1000) / 8))
  else if off = 0x0F0004 then some (s.storedAt off - s.get R.FB_STS_KSEL + s.kselFor false)
  else if off = 0x100020 then some s.floor
  else if off = 0x0C0024 then some s.meshStsWord
  else if off = 0x0C002C then some s.tsStsWord
  else if off = 0x0F0030 then some s.fb.seq
  else if off = 0x0F0038 then some (s.fb.audit.foldl (fun m r => min m r.seq) s.fb.seq)
  else if off = 0x0F0040 then
    some ((s.fb.audit.filter (·.rsv)).length * 2 ^ 49 + s.fb.highRoom * 2 ^ 32 + s.fb.pending.length * 2 ^ 24
      + (s.fb.audit.filter (fun r => !r.rsv)).length)
  else if off = 0x0F0048 then some s.fb.overCount
  else if off = 0x0F004C then some s.fb.dropCount
  else none

/-- The word a read at `off` returns: zero where no register lies (R14), else by the field map, where write-only fields read
zero (R11). -/
def State.view (s : State) (off : Nat) : Nat :=
  match regAt off with
  | none => 0
  | some (r, i) =>
    match s.derived off with
    | some v => v
    | none => r.fields.foldl (fun acc f => if f.acc = .wo then acc else acc + s.get f i * 2 ^ f.lo) 0

/-- The value a register capture of the Fieldbook reads: zero where the block is gated (R302), and where the register is not of the
width selected, as any access of the wrong width reads (R10). -/
def State.capture (s : State) (off : Nat) (wide : Bool) : Nat :=
  match regAt off with
  | some (r, _) => if s.gated off || r.wide != wide then 0 else s.view off
  | none => 0

end Sys2Proof.Machine
end

