-- ==== Sys2Proof/Machine/Fieldbook.lean ====
section
/-! DEFINITION. Records of the Fieldbook (R300 to R310): creation with SEQ and CHECK, write-through, buffered and
frozen storage, overwrite, drop, and the flush. -/

namespace Sys2Proof.Machine

/-! ## OTP secrets (R254, R255) -/

/-- The value of a secret-bank field; a damaged or unprogrammed one is absent (R255). -/
def State.otpSecret (s : State) (code : Nat) : Bytes :=
  let f := Tab.get {} s.otp code
  if f.damaged code || !f.lock then [] else toLE 32 f.a

/-- DEVICE_ID: all ones when damaged (R255). -/
def State.deviceId (s : State) : Bytes :=
  let f := Tab.get {} s.otp 0x01
  if f.damaged 0x01 then fill 16 0xFF else toLE 16 f.a

/-! ## Keys of the Fieldbook (R303) -/

/-- The check key KSEL names. -/
def State.checkKey (s : State) (ksel : Nat) : Bytes :=
  if ksel = 0 then kdfOf s.ks.datum (ascii "FBK") []
  else if ksel = 1 then kdfOf (s.otpSecret otpDeviceSecret) (ascii "FBD") []
  else Config.romTestKey

/-- The bytes of a record before CHECK (R301, R302). -/
def FbRec.body (r : FbRec) : Bytes :=
  let flags := r.sev + r.ksel * 4 + b2n r.diag * 16
  if r.diag then
    toLE 2 r.code ++ toLE 1 flags ++ toLE 1 r.vals.length ++ toLE 2 r.scope ++ toLE 2 r.sub ++ toLE 8 r.frame
      ++ toLE 8 r.seq ++ toLE 1 r.set ++ fill 7 0 ++ toLE 8 r.p0 ++ toLE 8 r.p1 ++ toLE 8 r.p2
      ++ fitTo 256 (r.vals.flatMap (toLE 8))
  else
    toLE 2 r.code ++ toLE 1 flags ++ fill 1 0 ++ toLE 2 r.scope ++ toLE 2 r.sub ++ toLE 8 r.frame
      ++ toLE 8 r.p0 ++ toLE 8 r.p1 ++ toLE 8 r.p2 ++ toLE 8 r.p3 ++ toLE 8 r.seq

/-- The whole record as it lies in MRAM and in an export. -/
def FbRec.bytes (r : FbRec) : Bytes := r.body ++ r.check

/-- CHECK of a record under a key: the leftmost 64 bits of an AES-256 CMAC (R303). -/
def FbRec.mac (r : FbRec) (key : Bytes) : Bytes := (cmacOf 0x12 key r.body).take 8

/-! ## Storage (R304, R308) -/

/-- Slots outside the flush reserve that are occupied. -/
def Fb.used (b : Fb) : Nat := (b.audit.filter (fun r => !r.rsv)).length

/-- The list without its first element that satisfies `p`. -/
def dropFirst {α : Type} (p : α → Bool) : List α → List α
  | [] => []
  | x :: xs => if p x then xs else x :: dropFirst p xs

/-- Only SEQ order decides which record is oldest; the areas are kept in SEQ order. -/
def insertSeq (r : FbRec) : List FbRec → List FbRec
  | [] => [r]
  | x :: xs => if r.seq < x.seq then r :: x :: xs else x :: insertSeq r xs

/-- A record dropped (R308, R310): counted, with the SEQ of the first of a run. -/
def State.fbDrop (s : State) (r : FbRec) : State :=
  ({ s with fb := { s.fb with
      dropCount := (s.fb.dropCount + 1) % 2 ^ 32
      dropped := s.fb.dropped + 1
      toWitness := s.fb.toWitness.filter (fun x => x.seq != r.seq)
      firstDrop := if s.fb.dropped = 0 then r.seq else s.fb.firstDrop
      flushDrop := if s.fb.flushing then s.fb.flushDrop + 1 else s.fb.flushDrop } }).fbErr R.FB_ERR_STS_DROP

/-- A record written to its area: a free slot, else the oldest record of strictly lower severity is overwritten,
else in a flush a reserve slot, else the record is dropped (R304, R307, R308). -/
def State.fbWrite (s : State) (r : FbRec) : State :=
  let s := if s.fb.flushing then { s with fb := { s.fb with flushWritten := s.fb.flushWritten + 1 } } else s
  let overwr (t : State) : State := { t with fb := { t.fb with
    overCount := (t.fb.overCount + 1) % 2 ^ 32
    flushOver := if t.fb.flushing then t.fb.flushOver + 1 else t.fb.flushOver } }
  let unwritten (t : State) : State :=
    if t.fb.flushing then { t with fb := { t.fb with flushWritten := t.fb.flushWritten - 1 } } else t
  if s.fb.ro then (unwritten s).fbDrop r
  else if r.diag then
    if s.fb.diag.length < 6553 then { s with fb := { s.fb with diag := insertSeq r s.fb.diag } }
    else if s.fb.diag.any (fun x => x.sev < r.sev) then
      overwr { s with fb := { s.fb with diag := insertSeq r (dropFirst (fun x => decide (x.sev < r.sev)) s.fb.diag) } }
    else (unwritten s).fbDrop r
  else if s.fb.used < 98176 then { s with fb := { s.fb with audit := insertSeq r s.fb.audit } }
  else
    match s.fb.audit.find? (fun x => decide (x.sev < r.sev)) with
    | some x =>
      overwr { s with fb := { s.fb with
        audit := insertSeq { r with rsv := x.rsv } (s.fb.audit.filter (fun y => y.seq != x.seq)) } }
    | none =>
      if s.fb.flushing && (s.fb.audit.filter (·.rsv)).length < 128 then
        { s with fb := { s.fb with audit := insertSeq { r with rsv := true } s.fb.audit } }
      else (unwritten s).fbDrop r

/-- Records written one after another. -/
def State.fbWriteAll (s : State) (rs : List FbRec) : State := rs.foldl (fun t r => t.fbWrite r) s

/-- Bytes in the diagnostic buffer (R305). -/
def Fb.bufferBytes (b : Fb) : Nat := b.buffer.foldl (fun n r => n + (if r.diag then 320 else 64)) 0

/-- The next SEQ, and the record made with it and its CHECK (R300, R303); a member keeps an audit record for its next WITNESS (R365). -/
def State.fbMake (s : State) (diag : Bool) (fatal : Bool) (code sev scope p0 p1 p2 p3 set : Nat) (vals : List Nat) :
    FbRec × State :=
  let (sub, t) := s.fresh
  let ksel := t.kselFor fatal
  let r : FbRec :=
    { code := code, sev := sev, ksel := ksel, diag := diag, scope := scope, sub := sub % 1000, frame := t.frameNo,
      p0 := p0, p1 := p1, p2 := p2, p3 := p3, seq := t.fb.seq, check := [], set := set, vals := vals }
  let r : FbRec := { r with check := fitTo 8 (r.mac (t.checkKey ksel)) }
  (r, { t with fb := { t.fb with
    seq := t.fb.seq + 1, toWitness := if !diag && t.on R.NET_STS_MEMBER then t.fb.toWitness ++ [r] else t.fb.toWitness } })

/-- The diagnostic buffer written to MRAM (R305). -/
def State.fbWriteBuffer (s : State) : State :=
  ({ s with fb := { s.fb with buffer := [] } }).fbWriteAll s.fb.buffer

/-- A record placed in the diagnostic buffer; it is dropped when the 128 KB are full (assumption 11), and the
buffer is written when it passes 96 KB outside a freeze (R305). -/
def State.fbBuffer (s : State) (r : FbRec) : State :=
  if s.fb.bufferBytes + (if r.diag then 320 else 64) > 131072 then s.fbDrop r
  else
    let t := { s with fb := { s.fb with buffer := s.fb.buffer ++ [r] } }
    if t.fb.bufferBytes > 98304 && t.fb.frozenAt.isNone then t.fbWriteBuffer else t

/-- A diagnostic record stored (R305, R310). -/
def State.fbStoreDiag (s : State) (r : FbRec) : State :=
  if s.fb.ro then s.fbDrop r
  else if s.fb.flushing then s.fbWrite r
  else if s.on R.FB_CTL_DIAG_BUF || s.fb.frozenAt.isSome then s.fbBuffer r
  else s.fbWrite r

/-- The selected registers of a set, in order of i, each read with the width W64 gives (R302). -/
def State.selected (s : State) (set : Nat) : List Nat :=
  ((List.range 32).filter (fun i => s.on R.FB_DIAG_SEL_EN (set * 32 + i))).map
    (fun i => s.capture (s.get R.FB_DIAG_SEL_OFFSET (set * 32 + i)) (s.on R.FB_DIAG_SEL_W64 (set * 32 + i)))

/-- The enabled trigger entries of an event code (R302). -/
def State.triggers (s : State) (code : Nat) : List Nat :=
  (List.range 16).filter (fun k => s.on R.FB_DIAG_TRIG_EN k && s.get R.FB_DIAG_TRIG_CODE k == code)

/-- The diagnostic records that an audit record just made triggers, one for each enabled entry of its code (R302, assumption 12). -/
def State.diagnose (s : State) (fatal : Bool) (r : FbRec) : State :=
  (s.triggers r.code).foldl (fun v k =>
    let set := v.get R.FB_DIAG_TRIG_SET k
    let (dr, w) := v.fbMake true fatal r.code r.sev r.scope r.p0 r.p1 r.p2 r.p3 set (v.selected set)
    w.fbStoreDiag dr) s

/-- The EXPORT record of an export that ends now (R311, R314): with P2 bit 48 BROKEN, bit 49 LEN reached. -/
def State.exportRecord (s : State) (broken len : Bool) : FbRec × State :=
  s.fbMake false false 0x0002 1 s.fb.exScope s.fb.exFrom s.fb.exLast
    (s.fb.exCount + (s.fb.exFails % 65536) * 2 ^ 32 + b2n broken * 2 ^ 48 + b2n len * 2 ^ 49)
    (s.fb.exScope + b2n s.fb.exDiag * 2 ^ 11) 0 []

/-- An export that stops: FB_STS.EXPORT clears and EXPORT_DONE is set. -/
def State.exportStop (s : State) : State :=
  (({ s with fb := { s.fb with exporting := false, exNow := 0 } }).set R.FB_STS_EXPORT 0 0).fbErr R.FB_ERR_STS_EXPORT_DONE

/-- The freeze ends; the waiting records stay in the pending buffer for the caller to write. -/
def State.unfreeze (s : State) : State :=
  (({ s with fb := { s.fb with frozenAt := none, keep := false, endFreeze := false, clearOk := false } }).set
    R.FB_STS_FROZEN 0 0).set R.FB_STS_KEEP 0 0

/-- The pending buffer written to MRAM in SEQ order (R305, R312). -/
def State.fbWritePending (s : State) : State :=
  ({ s with fb := { s.fb with pending := [] } }).fbWriteAll s.fb.pending

/-- A record that would overflow the pending buffer breaks the freeze (R312): an export stops with BROKEN, the
pending buffer is written, the new record follows, FREEZE_BROKEN comes last. -/
def State.fbBreak (s : State) (r : FbRec) : State :=
  let began := s.fb.frozenAt.getD 0
  let waiting := s.fb.pending.length
  let (ex, s1) := if s.fb.exporting then
      let (e, t) := s.exportRecord true false
      ([e], (t.postAdmin (t.fb.exAddr + t.fb.exCount * (if t.fb.exDiag then 320 else 64)) e.bytes).exportStop)
    else ([], s)
  let s2 := ((s1.unfreeze.fbWritePending).fbWrite r).fbWriteAll ex
  let (fbk, s3) := s2.fbMake false false 0x0003 2 1024 began waiting 0 0 0 []
  let s4 := (s3.fbWrite fbk).fbErr R.FB_ERR_STS_FREEZE_BROKEN
  (ex ++ [fbk]).foldl (fun t x => t.diagnose false x) s4

/-- An audit record stored (R305, R310, R312): under a freeze it waits in the pending buffer, in either mode. `cmd` marks a command
record, which has a reserved slot (R29). -/
def State.fbStore (s : State) (cmd : Bool) (r : FbRec) : State :=
  if s.fb.ro then s.fbDrop r
  else if s.fb.flushing then s.fbWrite r
  else if s.fb.frozenAt.isSome then
    if s.fb.pending.length < 64 then { s with fb := { s.fb with pending := s.fb.pending ++ [r] } } else s.fbBreak r
  else if s.on R.FB_CTL_AUD_BUF then s.fbBuffer r
  else if cmd then s.fbWrite r
  else if s.fb.eventSlots < 64 ∧ s.fb.pending = [] then
    ({ s with fb := { s.fb with eventSlots := s.fb.eventSlots + 1 } }).fbWrite r
  else if s.fb.pending.length < 64 then { s with fb := { s.fb with pending := s.fb.pending ++ [r] } }
  else s.fbDrop r

/-- A record created (R300 to R306): the audit record, then the diagnostic records that it triggers. -/
def State.recordAs (s : State) (cmd fatal : Bool) (code sev scope p0 p1 p2 p3 : Nat) : State :=
  let (r, t) := s.fbMake false fatal code sev scope p0 p1 p2 p3 0 []
  (t.fbStore cmd r).diagnose fatal r

/-- An event record. -/
def State.record (s : State) (code sev scope : Nat) (p0 : Nat := 0) (p1 : Nat := 0) (p2 : Nat := 0) (p3 : Nat := 0) :
    State :=
  s.recordAs false false code sev scope p0 p1 p2 p3

/-- SCOPE of the device (R301). -/
def devScope : Nat := 1024

/-- A KS_ERR_STS event and its KS_ERR record (R214, R314). -/
def State.ksFault (s : State) (f : Field) (slice leaf : Nat) : State :=
  let t := s.ksErrSet f slice leaf
  t.record 0x0303 2 devScope (t.storedAt 0x080024)

/-- A write that a session does not cover is dropped and recorded (R314). -/
def State.writeDropped (s : State) (off : Nat) : State := s.record 0x0502 2 devScope off

/-! ## The flush (R307) -/

/-- Records of a tamper response or a fatal event are written as a flush writes (R307); the flush that follows ends
this. -/
def State.fatalRecords (s : State) : State := { s with fb := { s.fb with flushing := true } }

/-- A flush with its cause: any freeze and export end, the pending and diagnostic buffers are written in order, a
FLUSH_CLOSE record follows. -/
def State.flush (s : State) (cause : Nat) : State :=
  let froze := s.fb.frozenAt.isSome
  let s1 := if s.fb.exporting then s.exportStop else s
  let s2 := { s1.unfreeze with fb := { s1.unfreeze.fb with
    flushing := true, flushWritten := 0, flushOver := 0, flushDrop := 0 } }
  let s3 := s2.fbWritePending.fbWriteBuffer
  let (r, s4) := s3.fbMake false (cause != 1) 0x0005 1 devScope cause s3.fb.flushWritten s3.fb.flushOver
    (s3.fb.flushDrop + b2n froze * 2 ^ 63) 0 []
  let s5 := (s4.fbWrite r).diagnose (cause != 1) r
  { s5 with fb := { s5.fb with flushing := false } }

/-- High room (R309): free slots outside the reserve plus slots of severity 0 or 1; zero when read-only (R310). -/
def State.highRoomNow (s : State) : Nat :=
  if s.fb.ro then 0
  else (98176 - s.fb.used) + (s.fb.audit.filter (fun r => decide (r.sev ≤ 1))).length

/-- RECORDS_LOST, in the first frame, that of the drops itself included, in which a slot is free or may be overwritten (R308). -/
def State.fbLost (s : State) : State :=
  if s.fb.dropped > 0 && !s.fb.ro && s.fb.frozenAt.isNone
      && (s.fb.used < 98176 || s.fb.audit.any (fun r => decide (r.sev < 2))) then
    let n := s.fb.dropped
    let first := s.fb.firstDrop
    ({ s with fb := { s.fb with dropped := 0 } }).record 0x0004 2 devScope n first
  else s

end Sys2Proof.Machine
end

