-- ==== Sys2Proof/Machine/HostIf.lean ====
section
/-! DEFINITION. Write-back of the host interface (R48 to R55, R60, R61): status words, dirty-page log entries,
the order of a command's writes, order groups (R81) and the decrement of successors (R79). -/

namespace Sys2Proof.Machine

/-- The 4 KB pages that `n` bytes at address `a` touch. -/
def pagesOf (a n : Nat) : List Nat :=
  if n = 0 then [] else (List.range ((a + n - 1) / 4096 - a / 4096 + 1)).map (fun i => a / 4096 + i)

/-- The pages without repeats, in rising order of first appearance. -/
def dedup (l : List Nat) : List Nat := l.foldl (fun acc x => if acc.contains x then acc else acc ++ [x]) []

/-- The 256 KB regions of a list of pages (R60). -/
def regionsOf (pages : List Nat) : List Nat := dedup (pages.map (· / 64))

/-- BITMAP of a region (R60). -/
def bitmapOf (pages : List Nat) (region : Nat) : Nat :=
  maskOf (fun i => pages.contains (region * 64 + i)) 64

/-- One dirty-page log entry (R60, R61). -/
def State.logOne (s : State) (n : Nat) (gen cmd : Nat) (region bitmap : Nat) : State :=
  let sl := s.slice n
  if !sl.ctx.logEn || sl.logOvf then s
  else if (sl.logCount + 2 ^ 32 - sl.logAck) % 2 ^ 32 = 2 ^ sl.ctx.logSize then
    (s.modSlice n (fun x => { x with logOvf := true })).hifErr R.HIF_ERR_STS_LOG_OVF n 0
  else
    let size := 2 ^ sl.ctx.logSize
    let phase := if sl.logCount / size % 2 = 0 then 1 else 0
    let t := s.post { port := sl.port, kind := .logEntry, slice := n, gen := gen, cmd := cmd,
                      addr := sl.ctx.logBase + 16 * (sl.logCount % size),
                      data := toLE 8 (region * 2 ^ 18 + phase) ++ toLE 8 bitmap }
    t.modSlice n (fun x => { x with logCount := (x.logCount + 1) % 2 ^ 32 })

/-- The log entries that cover a command's pages, one for each region (R50, R60). -/
def State.logPages (s : State) (n gen cmd : Nat) (pages : List Nat) : State :=
  (regionsOf pages).foldl (fun t r => t.logOne n gen cmd r (bitmapOf pages r)) s

/-- The 32 bytes of a status word (R48). -/
def statusBytes (state gen code energy frame steps total aux cont : Nat) : Bytes :=
  toLE 1 state ++ toLE 1 gen ++ toLE 2 code ++ toLE 4 energy ++ toLE 8 frame ++ toLE 2 steps ++ toLE 2 total
    ++ toLE 4 aux ++ toLE 8 cont

/-- A status word with its log entries queued for a descriptor of slice `n` (R50, R53); an INTR status word makes
the slice's message due (R55). -/
def State.queueStatus (s : State) (n : Nat) (d : Desc) (cmd : Nat) (pages : List Nat) (word : Bytes) : State :=
  let t := s.logPages n d.gen cmd (pages ++ pagesOf d.statusAddr 32)
  let u := t.post { port := (t.slice n).port, kind := .status, slice := n, gen := d.gen, cmd := cmd,
                    addr := d.statusAddr, data := word }
  if d.intr then u.modSlice n (fun x => { x with intr := true }) else u

/-- DEP_COUNT of the earliest observed held successor that waits decremented, or the decrement lost (R79). -/
def State.succOne (s : State) (n gen ring slot : Nat) : State :=
  match s.trv.cmds.find? (fun c => c.st == .held && c.slice == n && c.gen == gen && c.ring == ring && c.slot == slot
      && c.dep != 0) with
  | some c => s.putCmd { c with dep := c.dep - 1 }
  | none => (s.bump R.TRV_CNT_DEP_MISS_COUNT).trvErr R.TRV_ERR_STS_DEP_MISS

/-- Every successor a descriptor names (R79). -/
def State.successors (s : State) (n ring : Nat) (d : Desc) : State :=
  d.succs.foldl (fun t slot => t.succOne n d.gen ring slot) s

/-! ## Audit of commands (R35, R95, R208, R400) -/

/-- The severity of the audit record a command writes; `none` when it writes none. `policy` is TU_SLICE_POLICY. -/
def auditSev (d : Desc) (policy : Nat) : Option Nat :=
  let op := d.opcode
  if op = 0x0138 ∨ op = 0x0170 then some 2
  else if op = 0x0403 ∨ op = 0x0404 then some 2
  else if isKeyOp op then some 1
  else if op = 0x0160 ∨ op = 0x0161 ∨ op = 0x0162 ∨ op = 0x0168 then some 1
  else if d.audit then some 1
  else
    let c := d.cls
    if isPayment op ∧ (c = 0x01 ∨ c = 0x02 ∨ c = 0x05) ∧ bit policy 4 then some 1
    else if isPayment op ∧ (c = 0x03 ∨ c = 0x06) ∧ bit policy 5 then some 1
    else if isPayment op ∧ c = 0x04 ∧ bit policy 6 then some 1
    else none

/-- The audit record of a command that finished (R95, R208, R400). -/
def State.auditRecord (s : State) (c : Cmd) (fatal : Bool := false) : State :=
  match auditSev c.desc c.policy with
  | none => s
  | some sev =>
    let op := Desc.opcode c.desc
    let code := if isPayment op then 0x0101 else if isKeyOp op then 0x0102 else 0x0104
    let p0 := op + c.code * 2 ^ 16 + c.slot * 2 ^ 32 + c.ring * 2 ^ 44
    let p2 := if op = 0x0138 then c.use0 else if op = 0x0170 then Desc.paramN c.desc 104 8
      else c.auditP2.getD (if isKeyOp op then 0 else Desc.key1 c.desc)
    s.recordAs true fatal code sev c.slice p0 (Desc.key0 c.desc) p2 c.auditP3

/-- FB_CNT_REFUSE for a refused command that would have written an audit record (R314). -/
def State.countRefuse (s : State) (n : Nat) (d : Desc) : State :=
  match auditSev d (s.view (0x031000 + 4 * n)) with
  | none => s
  | some _ =>
    let t := s.bump R.FB_CNT_REFUSE_COUNT
    { t with fb := { t.fb with
        refused := t.fb.refused + 1
        refusedSlices := if t.fb.refusedSlices.contains n then t.fb.refusedSlices else t.fb.refusedSlices ++ [n] } }

/-! ## Completion -/

/-- The energy field: metered nanojoules in 0.1 µJ units, rounded up (R33). -/
def Cmd.energyUnits (c : Cmd) : Nat := ceilDiv c.energy 100

/-- The status word of an admitted command that finished (R48). -/
def State.statusOf (s : State) (c : Cmd) : Bytes :=
  statusBytes 1 (Desc.gen c.desc) c.code c.energyUnits s.frameNo c.stepsDone c.s c.aux
    (if c.code = ccPartial then c.cont else 0)

/-- The status word of a finished command queued, its entry freed, its successors decremented (R53, R77, R79). -/
def State.finish (s : State) (c : Cmd) : State :=
  let t := s.queueStatus c.slice c.desc c.id c.pages (s.statusOf c)
  (t.dropCmd c.id).successors c.slice c.ring c.desc

/-- An admitted command of the group waits for an earlier one (R81). -/
def State.groupBlocked (s : State) (c : Cmd) : Bool :=
  Desc.group c.desc != 0 && s.trv.cmds.any (fun e => !e.isHeld && e.slice == c.slice && e.gen == c.gen
    && Desc.group e.desc == Desc.group c.desc && e.seq < c.seq)

/-- Held status words whose turn has come, queued in admission order right after the one they waited for (R81). -/
def State.releaseGroup : Nat → State → Nat → Nat → State
  | 0, s, _, _ => s
  | fuel + 1, s, n, g =>
    match s.trv.cmds.find? (fun c => c.st == .grouped && c.slice == n && Desc.group c.desc == g && !s.groupBlocked c) with
    | some c => State.releaseGroup fuel (s.finish c) n g
    | none => s

/-- Data at an address split at every 4 KB boundary (R23, R47); `n` bounds the number of pieces. -/
def pieces4K : Nat → Nat → Bytes → List (Nat × Bytes)
  | 0, _, _ => []
  | n + 1, a, d =>
    let k := 4096 - a % 4096
    if d = [] then [] else if d.length ≤ k then [(a, d)] else (a, d.take k) :: pieces4K n (a + k) (d.drop k)

/-- A result of a command posted to host memory, in pieces (R47, R50, R51). -/
def State.postResult (s : State) (c : Cmd) (addr : Nat) (data : Bytes) : State :=
  (pieces4K (data.length / 4096 + 2) addr data).foldl (fun t e =>
    t.post { port := (s.slice c.slice).port, kind := .result, slice := c.slice, gen := c.gen, cmd := c.id,
             addr := e.1, data := e.2, ro := s.on R.HIF_PORT_CTL_RESULT_RO }) s

/-- The function whose requester ID a write carries, and the PASID, which only slice DMA has (R39). -/
def State.requester (s : State) (p : Post) : Nat × Option Nat :=
  match p.kind with
  | .result | .status => (1, some (s.slice p.slice).ctx.pasid)
  | .msix => (p.cmd / 1024, none)
  | _ => (0, none)

/-- The write phase of a finished command in R50 order: results, audit record, then log entries and status word
unless its order group holds them (R81). After a code other than OK or PARTIAL the buffers of a command without RESUMABLE are
undefined (R56): nothing is written to them but the steps a bulk command has finished (assumption 66). -/
def State.writeOut (s : State) (c : Cmd) : State :=
  let s1 := c.outs.foldl (fun t o => t.postResult c (Desc.bufAddr c.desc o.1 + o.2.1) o.2.2) s
  let pages := dedup (c.pages ++ c.outs.flatMap (fun o => pagesOf (Desc.bufAddr c.desc o.1 + o.2.1) o.2.2.length))
  let aux := c.aux + c.outs.foldl (fun n o => n + o.2.2.length) 0
  let c1 := { c with outs := [], pages := pages, aux := aux }
  let s2 := if c1.recorded then s1 else s1.auditRecord c1
  let c2 := { c1 with recorded := true }
  let s3 := if c.code = ccDmaFault then s2.hifErr R.HIF_ERR_STS_DMA_FAULT c.slice c.ring else s2
  if s3.groupBlocked c2 then s3.putCmd { c2 with st := .grouped }
  else
    let g := Desc.group c.desc
    let s4 := s3.finish c2
    if g = 0 then s4 else State.releaseGroup s4.trv.cmds.length s4 c.slice g

/-- A refusal: a REFUSED status word, counted, and its successors decremented (R48, R79, R314). -/
def State.refuse (s : State) (n ring : Nat) (d : Desc) (code aux : Nat) : State :=
  let t := s.countRefuse n d
  (t.queueStatus n d 0 [] (statusBytes 2 d.gen code 0 t.frameNo 0 0 aux 0)).successors n ring d

/-- A refusal by Traverse of a command that holds an entry (R78, R80). -/
def State.refuseCmd (s : State) (c : Cmd) (code aux : Nat) : State :=
  ((s.dropCmd c.id).bump R.TRV_CNT_REFUSE_COUNT).refuse c.slice c.ring c.desc code aux

/-- MSI-X messages of the slices whose INTR status words were issued in the frame that ends (R55). -/
def State.sliceMessages (s : State) : State :=
  s.sliceNos.foldl (fun t n =>
    let sl := t.slice n
    if sl.intr then
      let u := t.modSlice n (fun x => { x with intr := false })
      if sl.ctx.intrEn then u.msix 1 n sl.port else u
    else t) s

/-! ## Status pages (R45, R385) -/

/-- RING_STATE of ring `r` of a slice (R45). -/
def Slice.ringWord (sl : Slice) (r : Nat) : Nat :=
  let g := sl.ring r
  (if sl.st == .disabled || !g.en then 0 else if g.fault then 2 else 1) * 2 ^ 32 + g.tail % 2 ^ 16 * 2 ^ 16 + g.head % 2 ^ 16

/-- The status page of slice `n` up to its last field; the rest reads zero (R45). -/
def State.statusPage (s : State) (n : Nat) : Bytes :=
  let sl := s.slice n
  toLE 8 s.frameNo ++ toLE 4 (s.sliceStateWord n) ++ toLE 4 (s.inflightOf n % 2 ^ 15) ++ toLE 4 sl.staleDrops
    ++ toLE 4 sl.badDesc ++ toLE 4 sl.logCount ++ fill 228 0 ++ (List.range 16).flatMap (fun r => toLE 8 (sl.ringWord r))

/-- The pending bits of function 1, or of function 0 (R55, R385). -/
def State.pbaWord (s : State) (fn i : Nat) : Nat :=
  maskOf (fun k => Tab.get false s.hif.pba (fn * 1024 + 64 * i + k)) 64

/-- Dword `i` of an MSI-X table: the address, the data, and the mask bit of a vector. -/
def State.msixDword (s : State) (fn i : Nat) : Nat :=
  let vec := i / 4
  if i % 4 = 3 then b2n (!Tab.get false s.hif.unmasked (fn * 1024 + vec)) else s.msixEntry fn vec (i % 4)

/-- A read of an MSI-X table. -/
def State.msixRead (s : State) (fn off width : Nat) : Nat :=
  s.msixDword fn (off / 4) + (if width = 8 then s.msixDword fn (off / 4 + 1) * 2 ^ 32 else 0)

/-- What a read of BAR4 returns: the status pages and the Pending Bit Arrays; the MSI-X tables hold what the host wrote
there (PCIe, assumption 55). -/
def State.bar4Read (s : State) (fn off width : Nat) : Nat :=
  if (width ≠ 4 ∧ width ≠ 8) ∨ off % width ≠ 0 then 0
  else if fn = 1 then
    if 0x400000 ≤ off ∧ off < 0x404000 then s.msixRead 1 (off - 0x400000) width
    else if off < 0x400000 then ofLE (cut (s.statusPage (off / 0x1000)) (off % 0x1000) width)
    else if 0x410000 ≤ off ∧ off < 0x410080 then s.pbaWord 1 ((off - 0x410000) / 8) / 2 ^ (8 * (off % 8)) % 2 ^ (8 * width)
    else 0
  else if off < 0x100 then s.msixRead 0 off width
  else if 0x8000 ≤ off ∧ off < 0x8008 then s.pbaWord 0 0 / 2 ^ (8 * (off % 8)) % 2 ^ (8 * width)
  else 0

end Sys2Proof.Machine
end

