-- ==== Sys2Proof/Machine/Calendar.lean ====
section
/-! DEFINITION. The reservation calendar (R29, R65, R66), placement of a cost vector (R69, R70), the fit test with
shares and caps (R74, R75), and the unused pool with the recompute reserve (R30). -/

namespace Sys2Proof.Machine

/-- Dose units: capacity, reserve and admissible part from budget tokens and base tokens (R29). -/
def doseCapacity (budget base : Nat) : Nat := 10 * (budget - base)
def doseReserve (budget base : Nat) : Nat := ceilDiv (doseCapacity budget base) 16
def doseAdmissible (budget base : Nat) : Nat := doseCapacity budget base - doseReserve budget base

/-- The planning ceiling in force, in tokens (R341). -/
def State.ceiling (s : State) : Option Nat :=
  let plan := s.get R.DOSE_PLAN_WATTS
  let a := if plan = 0 then none else some (10 * max plan 40)
  let b := if s.on R.DOSE_STS_THERM then some (10 * s.get R.DOSE_THERM_WATTS) else none
  match a, b with
  | none, x => x
  | x, none => x
  | some x, some y => some (min x y)

/-- The admissible Dose units of a frame for a new admission: its own capacity, within the planning ceiling. A frame
beyond the calendar takes the budget and base in force (R65, R341). -/
def State.doseAdm (s : State) (frame : Nat) : Nat :=
  let own := if frame < s.frameNo + 256 then Tab.get 0 s.trv.doseAdm frame
    else doseAdmissible (s.get R.DOSE_STS_BUDGET) (s.get R.DOSE_STS_BASE)
  let base := if frame < s.frameNo + 256 then Tab.get 0 s.trv.doseBase frame - 1 else s.get R.DOSE_STS_BASE
  match s.ceiling with
  | none => own
  | some c => min own (doseAdmissible c base)

/-- Link width and twice the rate in GT/s of a port (R64). -/
def widthOf (code : Nat) : Nat := match code with | 0 => 1 | 1 => 2 | 2 => 4 | 3 => 8 | 4 => 16 | _ => 0
def rate2Of (code : Nat) : Nat :=
  match code with | 1 => 5 | 2 => 10 | 3 => 16 | 4 => 32 | 5 => 64 | 6 => 128 | _ => 0

/-- The write-ledger capacity of a port per frame (R66). -/
def State.ledgerCapacity (s : State) (port : Nat) : Nat :=
  if s.portInReset port || !s.linkUp port then 0
  else
    let w := widthOf (s.get (if port = 0 then R.HIF_PORT_STS_WIDTH_A else R.HIF_PORT_STS_WIDTH_B))
    let r := rate2Of (s.get (if port = 0 then R.HIF_PORT_STS_RATE_A else R.HIF_PORT_STS_RATE_B))
    s.get R.TRV_WB_LIMIT_BYTES * (w * r) / (16 * 128)

/-- The admissible ledger: all but the 65,536 bytes held back for refusals (R66). -/
def State.ledgerAdm (s : State) (port : Nat) : Nat := s.ledgerCapacity port - 65536

/-- The admissible capacity of an account (R65). -/
def State.admissible (s : State) (frame res : Nat) : Nat :=
  if res = resDose then s.doseAdm frame
  else if res = resLedger then s.ledgerAdm 0
  else if res = resLedger + 1 then s.ledgerAdm 1
  else if res = resEntry then 16384
  else s.capacity res - s.reserveOf res

/-! ## Accounts -/

/-- The random bytes outstanding, of one slice or of all (R65). -/
def State.outstanding (s : State) : Nat := s.trv.cmds.foldl (fun n c => n + c.rndLeft) s.admRnd
def State.outstandingOf (s : State) (sl : Nat) : Nat :=
  s.trv.cmds.foldl (fun n c => if c.slice = sl then n + c.rndLeft else n) 0

/-- What slice `sl` holds in an account. -/
def State.heldIn (s : State) (frame res sl : Nat) : Nat :=
  if res = resRnd then s.outstandingOf sl
  else if res = resEntry then s.inflightOf sl
  else Tab.get 0 s.trv.cal ((frame * 16 + res) * 1024 + sl)

/-- What all slices and the administrative function hold in an account. -/
def State.reserved (s : State) (frame res : Nat) : Nat :=
  if res = resRnd then s.outstanding
  else if res = resEntry then s.entries
  else s.trv.cal.foldl (fun n e => if e.1 / 1024 = frame * 16 + res then n + e.2 else n) (Tab.get 0 s.trv.adm (frame * 16 + res))

/-- What the other enabled slices keep back of an account of admissible capacity `a` (R75). -/
def State.keptBack (s : State) (frame res sl a : Nat) : Nat :=
  s.hif.slices.foldl (fun n e =>
    if e.1 ≠ sl ∧ e.2.st ≠ .disabled then
      n + (s.get R.TRV_SLICE_SHARE_GUAR e.1 * a / 256 - s.heldIn frame res e.1)
    else n) 0

/-- Cap and guarantee hold in an account after `amt` more for slice `sl` (R75). -/
def State.sharesFit (s : State) (frame res sl amt : Nat) : Bool :=
  let a := if res = resRnd then 245760 else s.admissible frame res
  decide (s.heldIn frame res sl + amt ≤ s.get R.TRV_SLICE_SHARE_CAP sl * a / 256)
    && decide (s.reserved frame res + amt + s.keptBack frame res sl a ≤ a)

/-- One account stays within its bounds (R74). -/
def State.accountFits (s : State) (frame res sl amt : Nat) : Bool :=
  if amt = 0 then true
  else if res = resLedger ∨ res = resLedger + 1 then decide (s.reserved frame res + amt ≤ s.admissible frame res)
  else if res = resRnd then
    decide (s.outstanding + amt ≤ min 245760 (s.get R.RNG_RES_STS_FILL - 16384)) && s.sharesFit frame res sl amt
  else decide (s.reserved frame res + amt ≤ s.admissible frame res) && s.sharesFit frame res sl amt

/-! ## Placement (R69, R70) -/

/-- The share of frame `j` (from 1) when `total` whole units are spread over `n` frames (R69). -/
def share (total n j : Nat) : Nat := if n = 0 then 0 else total / n + (if j ≤ total % n then 1 else 0)

/-- PK or lattice eighths of execution frame `j`: the width in each frame, the last takes the remainder (R69, R173). -/
def eighths (total w j : Nat) : Nat := min w (total - w * (j - 1))

/-- The reservations of a cost vector whose key phase falls in frame `b`: (frame, resource, amount) (R69). `port`
is the home port. -/
def placement (c : Cost) (n b port : Nat) : List (Nat × Nat × Nat) :=
  [(b, resKp, c.k), (b, resCl, 4 * c.k), (b, resDose, c.k)]
  ++ (List.range n).flatMap (fun i =>
      let j := i + 1
      [(b + j, resTu, share c.tu n j), (b + j, resCl, share c.cl n j), (b + j, resHl, share c.hl n j),
       (b + j, resDose, share c.dose n j), (b + j, resPk, eighths c.pk c.w j), (b + j, resLu, eighths c.lu 8 j)])
  ++ [(b + n + 1, resFb, c.fb)]
  ++ c.out.zipIdx.map (fun e => (b + n + 1 + e.2 + 1 - c.out.length, resLedger + port, e.1))

/-- The placement at base frame `b` fits, random bytes included (R74). -/
def State.fitsAt (s : State) (c : Cost) (n b sl port : Nat) : Bool :=
  (placement c n b port).all (fun e => s.accountFits e.1 e.2.1 sl e.2.2) && s.accountFits 0 resRnd sl c.rnd

/-- The first delay from 0 to d max at which the placement fits from observation frame `f` (R70). -/
def State.firstFit (s : State) (c : Cost) (n dmax f sl port : Nat) : Option Nat :=
  (List.range (dmax + 1)).find? (fun d => s.fitsAt c n (f + d) sl port)

/-- The retry-after of check 9: the least n from 1 to 255 at which the descriptor would fit (R76). -/
def State.retryAfter (s : State) (c : Cost) (n dmax f sl port : Nat) : Nat :=
  (((List.range 255).map (· + 1)).find? (fun k => (s.firstFit c n dmax (f + k) sl port).isSome)).getD 0

/-- A reservation added to the calendar. -/
def State.book (s : State) (frame res sl amt : Nat) : State :=
  if amt = 0 then s
  else { s with trv := { s.trv with cal := Tab.upd 0 s.trv.cal ((frame * 16 + res) * 1024 + sl) (· + amt) } }

/-- The reservations of a placement added (R77). -/
def State.bookAll (s : State) (c : Cost) (n b sl port : Nat) : State :=
  (placement c n b port).foldl (fun t e => t.book e.1 e.2.1 sl e.2.2) s

/-- One account takes `amt` more for the administrative function, within the bounds of R74 and the guarantees of the slices (R75,
R358); it has no share of its own. -/
def State.admFits (s : State) (frame res amt : Nat) : Bool :=
  if amt = 0 then true
  else
    let a := if res = resRnd then 245760 else s.admissible frame res
    (res != resRnd || decide (s.outstanding + amt ≤ min 245760 (s.get R.RNG_RES_STS_FILL - 16384)))
      && decide (s.reserved frame res + amt + s.keptBack frame res 1024 a ≤ a)

/-- The first delay from 0 to d max at which a command for the administrative function fits (R70, R358). -/
def State.admFit (s : State) (c : Cost) (n dmax f : Nat) : Option Nat :=
  (List.range (dmax + 1)).find? (fun d =>
    (placement c n (f + d) 0).all (fun e => s.admFits e.1 e.2.1 e.2.2) && s.admFits 0 resRnd c.rnd && s.admFits 0 resEntry 1)

/-- The reservations of a command for the administrative function added (R77, R358). -/
def State.bookAdm (s : State) (c : Cost) (n b : Nat) : State :=
  (placement c n b 0).foldl (fun t e =>
    if e.2.2 = 0 then t
    else { t with trv := { t.trv with adm := Tab.upd 0 t.trv.adm (e.1 * 16 + e.2.1) (· + e.2.2) } }) s

/-! ## Unused pool and recompute reserve (R30) -/

/-- An amount released to the unused pool of its frame; what lies in the past lapses. -/
def State.toPool (s : State) (frame res amt : Nat) : State :=
  if amt = 0 ∨ frame < s.frameNo then s
  else { s with trv := { s.trv with pool := Tab.upd 0 s.trv.pool (frame * 16 + res) (· + amt) } }

/-- What the unused pool of the present frame holds. -/
def State.poolOf (s : State) (res : Nat) : Nat := Tab.get 0 s.trv.pool (s.frameNo * 16 + res)

/-- The Dose recompute reserve of the present frame, from the budget and the base it entered the calendar with (R29, R65). -/
def State.doseReserveNow (s : State) : Nat :=
  let own (t : Tab Nat) (f : Field) : Nat := match Tab.get 0 t s.frameNo with | 0 => s.get f | n + 1 => n
  doseReserve (own s.trv.doseBud R.DOSE_STS_BUDGET) (own s.trv.doseBase R.DOSE_STS_BASE)

/-- What is left of the present frame's recompute reserve; under brown-out the Dose part gives nothing (R343). -/
def State.reserveLeft (s : State) (res : Nat) : Nat :=
  if res = resDose then
    if s.on R.DOSE_STS_BROWNOUT then 0 else s.doseReserveNow - Tab.get 0 s.trv.rspent res
  else s.reserveOf res - Tab.get 0 s.trv.rspent res

/-- An amount taken from the unused pool first, then from the recompute reserve; `none` when they hold too little. -/
def State.takeExtra (s : State) (res amt : Nat) : Option State :=
  let p := min amt (s.poolOf res)
  if amt - p ≤ s.reserveLeft res then
    some { s with trv := { s.trv with
      pool := Tab.upd 0 s.trv.pool (s.frameNo * 16 + res) (· - p)
      rspent := Tab.upd 0 s.trv.rspent res (· + (amt - p)) } }
  else none

/-- Several amounts taken together, or none (R30). -/
def State.takeAll (s : State) : List (Nat × Nat) → Option State
  | [] => some s
  | (res, amt) :: rest =>
    match s.takeExtra res amt with
    | some t => t.takeAll rest
    | none => none

/-- A placement's reservations from the present frame on given to the unused pools of their frames (R30, R58). -/
def State.releaseFrom (s : State) (c : Cmd) (from_ : Nat) : State :=
  (placement c.cost c.s (c.f + c.d) 0).foldl (fun t e =>
    if e.1 ≥ from_ ∧ e.2.1 < resLedger then t.toPool e.1 e.2.1 e.2.2 else t) s

/-- The calendar moves on at the boundary that begins the present frame: old frames leave, frames up to 255 ahead
enter with nothing reserved and the Dose capacity and base in force; unused pool and reserve lapse (R30, R65). -/
def State.calendarAdvance (s : State) : State :=
  let f := s.frameNo
  let from_ := max f s.trv.calEnd
  let base := s.get R.DOSE_STS_BASE
  let adm := doseAdmissible (s.get R.DOSE_STS_BUDGET) base
  let new := (List.range (f + 256 - from_)).map (· + from_)
  { s with trv := { s.trv with
      cal := Tab.keep (fun k => decide (f ≤ k / 16384)) s.trv.cal
      adm := Tab.keep (fun k => decide (f ≤ k / 16)) s.trv.adm
      pool := Tab.keep (fun k => decide (f ≤ k / 16)) s.trv.pool
      rspent := []
      rndSpent := 0
      calEnd := f + 256
      doseAdm := Tab.keep (fun k => decide (f ≤ k)) s.trv.doseAdm ++ (if adm = 0 then [] else new.map (fun k => (k, adm)))
      doseBase := Tab.keep (fun k => decide (f ≤ k)) s.trv.doseBase ++ new.map (fun k => (k, base + 1))
      doseBud := Tab.keep (fun k => decide (f ≤ k)) s.trv.doseBud ++ new.map (fun k => (k, s.get R.DOSE_STS_BUDGET + 1)) } }

/-- A commit that lowers the budget, or raises the fixed base, lowers the Dose capacity of the frames already in the calendar: each
keeps its own budget and base where they are the lower (R65, R339). -/
def State.lowerDose (s : State) (budget base : Nat) (fixedUp : Bool) : State :=
  let bud (f : Nat) : Nat := match Tab.get 0 s.trv.doseBud f with | 0 => budget | n + 1 => min n budget
  { s with trv := { s.trv with
      doseAdm := (s.trv.doseBase.foldl (fun t e =>
        let b := if fixedUp then max (e.2 - 1) base else e.2 - 1
        Tab.put 0 t e.1 (min (Tab.get 0 s.trv.doseAdm e.1) (doseAdmissible (bud e.1) b))) [])
      doseBud := s.trv.doseBud.map (fun e => (e.1, min e.2 (budget + 1)))
      doseBase := if fixedUp then s.trv.doseBase.map (fun e => (e.1, max e.2 (base + 1))) else s.trv.doseBase } }

/-- TRV_CAL_DATA takes its values at a boundary after admissions and releases (R86). -/
def State.snapCalendar (s : State) : State :=
  { s with trv := { s.trv with
      seenCal := s.trv.cal
      seenAdm := s.trv.adm
      seenRnd := s.outstanding
      seenEntries := s.entries
      seenLedgerA := s.ledgerAdm 0
      seenLedgerB := s.ledgerAdm 1
      seenDose := (s.trv.doseAdm.map (fun e => (e.1, s.doseAdm e.1))).filter (fun e => e.2 != 0) } }

end Sys2Proof.Machine
end

