-- ==== Sys2Proof/Machine/KeyStore.lean ====
section
/-! DEFINITION. The key store (R181 to R207): the key hierarchy, handles and their revocation check, attributes and
usage profiles, blobs and their seals, the counter tree and its windows, the KRC and the second tier. -/

namespace Sys2Proof.Machine

/-! ## Hierarchy (R181) -/

/-- The storage root key SRK. -/
def State.srk (s : State) : Bytes := kdfOf s.ks.datum (ascii "SRK") []

/-- The counter tree key CTK. -/
def State.ctk (s : State) : Bytes := kdfOf s.ks.datum (ascii "CTK") []

/-- An item as the configuration and data store holds it: sealed with AES-256-GCM, behind its IV. The spec names the keys
(R181, R183) and neither mode nor IV (assumption 73). -/
def State.sealItem (s : State) (item : Nat) (key plain : Bytes) : State :=
  let iv := fitTo 12 (Config.storeIv item s.frameNo)
  let (ct, tag) := gcmEnc 0x12 key iv [] plain
  { s with ks := { s.ks with image := Tab.ins s.ks.image item (iv ++ ct ++ tag) } }

/-- A sealed item opened: empty when there is none or its tag fails. -/
def State.openItem (s : State) (item : Nat) (key : Bytes) : Bytes :=
  let b := Tab.get [] s.ks.image item
  let n := b.length - 28
  let (pt, tag) := gcmDec 0x12 key (b.take 12) [] (cut b 12 n)
  if b.length < 28 ∨ tag ≠ b.drop (12 + n) then [] else pt

/-- The key that seals the identity keys (R183). -/
def State.idSealKey (s : State) : Bytes := fitTo 32 (Config.identityKey (s.otpSecret otpDeviceSecret))

/-- The revocation list as stored: a handle and an epoch for each entry. -/
def revBytes (l : List (Nat × Nat)) : Bytes := l.flatMap (fun e => toLE 8 e.1 ++ toLE 6 e.2)

/-- The revocation list changed, in the key store and sealed under SRK in MRAM (R202). -/
def State.setRevoked (s : State) (l : List (Nat × Nat)) : State :=
  let t := { s with ks := { s.ks with revoked := l } }
  t.sealItem 0 t.srk (revBytes l)

/-- An officer record as it is stored (R239). -/
def Officer.bytes (o : Officer) : Bytes :=
  toLE 1 o.index ++ toLE 1 o.role ++ fill 2 0 ++ fitTo 97 o.pub ++ fill 11 0 ++ fitTo 16 o.label

/-- An officer record parsed: its layout holds and its roles and index are in range. -/
def parseOfficer (b : Bytes) : Option Officer :=
  let r := fitTo 128 b
  if zeroAt r 2 2 ∧ zeroAt r 101 11 ∧ fieldLE r 0 1 ≤ 31 ∧ fieldLE r 1 1 ≤ 3 then
    some { index := fieldLE r 0 1, role := fieldLE r 1 1, pub := cut r 4 97, label := r.drop 112 }
  else none

/-- The key under which the officer set of a scope lies in the store: from the device secret for the device, SRK for a slice (R239). -/
def State.officerSealKey (s : State) (scope : Nat) : Bytes :=
  if scope = 1024 then fitTo 32 (Config.officerKey (s.otpSecret otpDeviceSecret)) else s.srk

/-- The officer set of a scope, in use and sealed in the store (R239). -/
def State.putOfficers (s : State) (scope : Nat) (l : List Officer) : State :=
  let t := { s with lc := { s.lc with officers := Tab.put [] s.lc.officers scope l } }
  t.sealItem (2048 + scope) (t.officerSealKey scope) (l.flatMap Officer.bytes)

/-- The officer sets that open: those of slices only while Datum is the one they were sealed under (R239). -/
def State.loadOfficers (s : State) : Tab (List Officer) :=
  ((s.ks.image.map Prod.fst).filter (fun i => decide (2048 ≤ i ∧ i ≤ 3072))).foldl (fun t i =>
    Tab.put [] t (i - 2048) ((blocks 32 128 (s.openItem i (s.officerSealKey (i - 2048)))).filterMap parseOfficer)) []

/-- What the key store takes from the configuration and data store after main power came back (R181, R183, R202). -/
def State.loadItems (s : State) : State :=
  let k := s.srk
  let ids := s.openItem 1 s.idSealKey
  { s with
    ks := { s.ks with
      revoked := (blocks 16384 14 (s.openItem 0 k)).map (fun b => (fieldLE b 0 8, fieldLE b 8 6))
      domains := s.ks.domains.map (fun e => (e.1, if e.2.present then { e.2 with root := s.openItem (16 + e.1) k } else e.2))
      idEc := ids.take 48
      idPq := ids.drop 48 }
    lc := { s.lc with officers := s.loadOfficers }
    net := { s.net with nrk := s.openItem 2 k } }

/-- Domain key DK_s(e). -/
def State.domainKey (s : State) (n e : Nat) : Bytes :=
  kdfOf (s.domain n).root (ascii "DK") (toLE 2 n ++ toLE 6 e)

/-- Handle key HK_s. -/
def State.handleKey (s : State) (n : Nat) : Bytes := kdfOf (s.domain n).root (ascii "HK") (toLE 2 n)

/-- The Net member ID in force, 0 outside a Net (R133, R191, R347). -/
def State.memberId (s : State) : Nat := if s.on R.NET_STS_MEMBER then s.get R.NET_STS_ID else 0

/-- CHECK of a handle: the leftmost 14 bits of the CMAC under HK_s over the handle with CHECK zero (R185). -/
def State.handleCheck (s : State) (n h : Nat) : Nat :=
  ofBE ((cmacOf 0x12 (s.handleKey n) (toLE 8 (h - hCheck h))).take 2) / 4

/-- The handle of index `i` with generation `g` in slice `n` (R185). -/
def State.mkHandle (s : State) (n i g : Nat) : Nat :=
  let h := n * 2 ^ 54 + i * 2 ^ 30 + g * 2 ^ 14
  h + s.handleCheck n h

/-! ## Revocation check (R187) -/

/-- The generations and revocations in force for slice `n`. -/
def State.revView (s : State) (n : Nat) : RevView :=
  { gens := (s.domain n).gens, gen0 := (s.domain n).gen0,
    revoked := (s.ks.revoked.filter (fun e => hSlice e.1 == n)).map (·.1) }

/-- A key of this slice, index and generation is in the revocation list. -/
def RevView.isRevoked (v : RevView) (idx gen : Nat) : Bool :=
  v.revoked.any (fun h => hIndex h == idx && hGen h == gen)

/-- Steps 3 and 4 of R187 from a parent (index, generation) upward through the ancestors the key store knows. -/
def revUp (known : List Known) (n : Nat) (v : RevView) : Nat → Nat → Nat → Bool
  | 0, _, _ => false
  | fuel + 1, pidx, pgen =>
    if pidx = 0 then v.gen0 != pgen
    else
      v.isRevoked pidx pgen || (Tab.get 0 v.gens pidx != 0 && Tab.get 0 v.gens pidx != pgen) ||
        match known.find? (fun k => hSlice k.handle == n && hIndex k.handle == pidx && hGen k.handle == pgen) with
        | some k => revUp known n v fuel k.pidx k.pgen
        | none => false

/-- A KRC entry of slice `n` whose key, or an ancestor of it, has been invalidated by a bump (R199, R200). -/
def State.bumpedEntry (s : State) (n : Nat) (k : KeyRec) : Bool :=
  let v := s.revView n
  hSlice k.handle == n && ((Tab.get 0 v.gens (hIndex k.handle) != 0 && Tab.get 0 v.gens (hIndex k.handle) != hGen k.handle)
    || revUp s.ks.known n { v with revoked := [] } 5 k.pidx k.pgen)

/-- The revocation check of a nonzero handle named in a descriptor of slice `n` (R187). -/
def State.revCheck (s : State) (n h : Nat) : Option Nat :=
  let v := s.revView n
  if hSlice h ≠ n ∨ !(s.domain n).present ∨ s.handleCheck n h ≠ hCheck h then some ccFormatInvalid
  else if Tab.get 0 v.gens (hIndex h) ≠ 0 ∧ Tab.get 0 v.gens (hIndex h) ≠ hGen h then some ccKeyRevoked
  else if v.revoked.contains h then some ccKeyRevoked
  else
    match s.ks.known.find? (fun k => k.handle == h) with
    | some k => if revUp s.ks.known n v 5 k.pidx k.pgen then some ccKeyRevoked else none
    | none => none

/-! ## Usage profiles (R189, R190) -/

def uB0 : Nat := usage 'B' '0'
def uC0 : Nat := usage 'C' '0'
def uD0 : Nat := usage 'D' '0'
def uD1 : Nat := usage 'D' '1'
def uE0 : Nat := usage 'E' '0'
def uK0 : Nat := usage 'K' '0'
def uK1 : Nat := usage 'K' '1'
def uK3 : Nat := usage 'K' '3'
def uM1 : Nat := usage 'M' '1'
def uM3 : Nat := usage 'M' '3'
def uM6 : Nat := usage 'M' '6'
def uM7 : Nat := usage 'M' '7'
def uP0 : Nat := usage 'P' '0'
def uS0 : Nat := usage 'S' '0'
def uV1 : Nat := usage 'V' '1'
def uV2 : Nat := usage 'V' '2'

def mB : Nat := 'B'.toNat
def mC : Nat := 'C'.toNat
def mD : Nat := 'D'.toNat
def mE : Nat := 'E'.toNat
def mG : Nat := 'G'.toNat
def mS : Nat := 'S'.toNat
def mV : Nat := 'V'.toNat
def mX : Nat := 'X'.toNat

/-- The usage code allows this ALG (R189); M6 takes SM4 for the CMAC of R124 (assumption 78). -/
def usageAlgOk (u alg : Nat) : Bool :=
  if u = uB0 ∨ u = uE0 then alg = 0x01 || alg = 0x10 || alg = 0x12
  else if u = uC0 ∨ u = uV1 ∨ u = uV2 ∨ u = uM3 then alg = 0x01
  else if u = uD0 then isAes alg || alg = 0x18 || isTdes alg || alg = 0x13 || alg = 0x14
  else if u = uD1 then isRsa alg
  else if u = uK0 then isAes alg
  else if u = uK1 ∨ u = uP0 then isTdes alg || isAes alg
  else if u = uM6 then isTdes alg || isAes alg || alg = 0x18
  else if u = uK3 then alg = 0x40 || alg = 0x41 || alg = 0x4A || isMlkem alg
  else if u = uM1 then isTdes alg
  else if u = uM7 then alg = 0x20
  else if u = uS0 then isRsa alg || alg = 0x40 || alg = 0x41 || alg = 0x48 || alg = 0x49 || isMldsa alg
  else false

/-- The halves a creation with this usage, mode and algorithm writes: (role, mode, public) each; `none` for a
combination that R189 does not list. For K3 these are the two blobs that R168 and R172 write (assumption 72). -/
def profile (u m alg : Nat) : Option (List (Nat × Nat × Bool)) :=
  if !usageAlgOk u alg then none
  else if u = uB0 ∨ u = uE0 then (if m = mX then some [(roleDerive, mX, false)] else none)
  else if u = uC0 ∨ u = uV1 ∨ u = uV2 ∨ u = uM1 ∨ u = uM3 ∨ u = uM6 ∨ u = uM7 then
    if m = mC then some [(roleEnc, mG, false), (roleDec, mV, false)]
    else if m = mG then some [(roleEnc, mG, false)]
    else if m = mV then some [(roleDec, mV, false)] else none
  else if u = uD0 ∨ u = uP0 then
    if m = mB then some [(roleEnc, mE, false), (roleDec, mD, false)]
    else if m = mE then some [(roleEnc, mE, false)]
    else if m = mD then some [(roleDec, mD, false)] else none
  else if u = uK0 ∨ u = uK1 then
    if m = mB then some [(roleWrap, mE, false), (roleWrap, mD, false)]
    else if m = mE then some [(roleWrap, mE, false)]
    else if m = mD then some [(roleWrap, mD, false)] else none
  else if u = uD1 then (if m = mD then some [(roleDec, mD, false), (roleEnc, mE, true)] else none)
  else if u = uS0 then (if m = mS then some [(roleEnc, mS, false), (roleDec, mV, true)] else none)
  else if u = uK3 then
    if m = mX then
      some [((if isMlkem alg then roleDec else roleDerive), mX, false), (roleDerive, mX, true)]
    else none
  else none

/-- MLEN fits ALG (R190); `pub` for a public half. The encodings of FIPS 203 and FIPS 204 fix the last rows. -/
def mlenOk (alg mlen : Nat) (pub : Bool) : Bool :=
  match alg with
  | 0x01 => mlen = 16
  | 0x02 => mlen = 24
  | 0x10 => mlen = 16
  | 0x11 => mlen = 24
  | 0x12 => mlen = 32
  | 0x13 => mlen = 32
  | 0x14 => mlen = 64
  | 0x18 => mlen = 16
  | 0x20 => 16 ≤ mlen && mlen ≤ 64
  | 0x30 => if pub then mlen = 260 else mlen = 640
  | 0x31 => if pub then mlen = 388 else mlen = 960
  | 0x32 => if pub then mlen = 516 else mlen = 1280
  | 0x40 => if pub then mlen = 65 else mlen = 32
  | 0x41 => if pub then mlen = 97 else mlen = 48
  | 0x48 => mlen = 32
  | 0x49 => mlen = 57
  | 0x4A => mlen = 32
  | 0x50 => if pub then mlen = 800 else mlen = 1632
  | 0x51 => if pub then mlen = 1184 else mlen = 2400
  | 0x52 => if pub then mlen = 1568 else mlen = 3168
  | 0x58 => if pub then mlen = 1312 else mlen = 2560
  | 0x59 => if pub then mlen = 1952 else mlen = 4032
  | 0x5A => if pub then mlen = 2592 else mlen = 4896
  | 0x60 => mlen = 32
  | 0x61 => mlen = 24 || mlen = 32
  | _ => false

/-- The fixed material length of a symmetric ALG. -/
def symLen (alg : Nat) : Nat :=
  match alg with
  | 0x01 => 16 | 0x02 => 24 | 0x10 => 16 | 0x11 => 24 | 0x12 => 32 | 0x13 => 32 | 0x14 => 64 | 0x18 => 16 | _ => 0

/-- ATTR has this usage, mode and role. -/
def attrIs (a u m role : Nat) : Bool := aUsage a == u && aMode a == m && aRole a == role && !aTr34 a

/-- The opcodes that name a KEY1 (R91, R208). -/
def namesKey1 (op : Nat) : Bool :=
  [0x0100, 0x0110, 0x0111, 0x0112, 0x0113, 0x0140, 0x0141, 0x0161, 0x0168, 0x0408].contains op

/-- ATTR allows the opcode's use of the key as its KEY0 (`which` = 0) or KEY1, by the opcode tables of R91, R127, R140,
R161, R172 and R208: usage, mode and role. A key that the opcode does not name has no use to forbid (R92 refuses it). -/
def keyUse (d : Desc) (which a : Nat) : Bool :=
  let dirOk := if d.pb 104 = 0 then attrIs a uD0 mE roleEnc else if d.pb 104 = 1 then attrIs a uD0 mD roleDec
    else attrIs a uD0 mE roleEnc || attrIs a uD0 mD roleDec
  match d.opcode, which with
  | 0x0100, 0 | 0x0110, 0 | 0x0111, 0 | 0x0112, 0 | 0x0113, 0 => attrIs a uP0 mD roleDec
  | 0x0100, _ | 0x0140, 1 | 0x0141, 1 => attrIs a uP0 mE roleEnc
  | 0x0110, _ => attrIs a uV1 mV roleDec
  | 0x0111, _ => attrIs a uV2 mV roleDec
  | 0x0112, _ => attrIs a uV1 mG roleEnc
  | 0x0113, _ => attrIs a uV2 mG roleEnc
  | 0x0120, 0 => attrIs a uC0 mG roleEnc
  | 0x0121, 0 => attrIs a uC0 mV roleDec
  | 0x0130, 0 | 0x0208, 0 => attrIs a uM1 mG roleEnc || attrIs a uM3 mG roleEnc || attrIs a uM6 mG roleEnc
  | 0x0131, 0 | 0x0209, 0 => attrIs a uM1 mV roleDec || attrIs a uM3 mV roleDec || attrIs a uM6 mV roleDec
  | 0x0138, 0 | 0x0170, 0 => attrIs a uM6 mG roleEnc && aLimit a != 0
  | 0x0140, _ | 0x0141, _ => attrIs a uB0 mX roleDerive
  | 0x0150, 0 => attrIs a uE0 mX roleDerive
  | 0x0160, 0 => attrIs a uK1 mD roleWrap
  | 0x0161, 0 => attrIs a uK1 mE roleWrap
  | 0x0162, 0 => aTr34 a && aRole a == roleWrap
  | 0x0168, 0 => attrIs a uD1 mD roleDec
  | 0x0168, _ => attrIs a uS0 mV roleDec
  | 0x0200, 0 | 0x0201, 0 | 0x0202, 0 | 0x0203, 0 | 0x0204, 0 => dirOk
  | 0x0288, 0 => attrIs a uM7 mG roleEnc
  | 0x0289, 0 => attrIs a uM7 mV roleDec
  | 0x0300, 0 | 0x0302, 0 => attrIs a uS0 mS roleEnc
  | 0x0301, 0 | 0x0303, 0 => attrIs a uD1 mD roleDec
  | 0x0310, 0 | 0x0312, 0 | 0x0318, 0 | 0x0350, 0 | 0x0351, 0 => attrIs a uS0 mS roleEnc
  | 0x0308, 0 | 0x0311, 0 | 0x0313, 0 | 0x0319, 0 | 0x0358, 0 => attrIs a uS0 mV roleDec
  | 0x0320, 0 => attrIs a uK3 mX roleDerive && !aPublic a
  | 0x0342, 0 => attrIs a uK3 mX roleDec
  | 0x0401, 0 => aRole a == roleDerive
  | 0x0402, 0 => !aEphem a
  | 0x0408, 0 => attrIs a uK0 mE roleWrap
  | 0x0409, 0 => attrIs a uK0 mD roleWrap
  | _, _ => true

/-- The algorithm of the key suits the opcode, by the same tables. -/
def keyAlg (d : Desc) (which a alg : Nat) : Bool :=
  match d.opcode, which with
  | 0x0100, _ | 0x0140, 1 | 0x0141, 1 => usageAlgOk uP0 alg
  | 0x0110, 0 | 0x0111, 0 | 0x0112, 0 | 0x0113, 0 => usageAlgOk uP0 alg
  | 0x0110, _ | 0x0111, _ | 0x0112, _ | 0x0113, _ => alg == 0x01
  | 0x0120, 0 | 0x0121, 0 => alg == 0x01
  | 0x0130, 0 | 0x0208, 0 | 0x0131, 0 | 0x0209, 0 => usageAlgOk (aUsage a) alg
  | 0x0138, 0 | 0x0170, 0 => alg == 0x12
  | 0x0140, _ => alg == 0x01
  | 0x0141, _ => alg == 0x10 || alg == 0x12
  | 0x0150, 0 => alg == 0x01 || alg == 0x10 || alg == 0x12
  | 0x0160, 0 | 0x0161, _ => isTdes alg || isAes alg
  | 0x0162, 0 => alg == 0x61
  | 0x0168, _ => isRsa alg
  | 0x0200, 0 | 0x0201, 0 => isAes alg || isTdes alg || alg == 0x18
  | 0x0202, 0 | 0x0203, 0 => isAes alg || alg == 0x18
  | 0x0204, 0 => alg == 0x13 || alg == 0x14
  | 0x0288, 0 | 0x0289, 0 => alg == 0x20
  | 0x0300, 0 | 0x0301, 0 => alg == 0x30
  | 0x0302, 0 | 0x0303, 0 | 0x0308, 0 => isRsa alg
  | 0x0310, 0 | 0x0311, 0 => alg == 0x40
  | 0x0312, 0 | 0x0313, 0 => alg == 0x41
  | 0x0318, 0 | 0x0319, 0 => alg == 0x48 || alg == 0x49
  | 0x0320, 0 => alg == 0x40 || alg == 0x41 || alg == 0x4A
  | 0x0342, 0 => isMlkem alg
  | 0x0350, 0 => alg == 0x58 || alg == 0x59
  | 0x0351, 0 => alg == 0x5A
  | 0x0358, 0 => isMldsa alg
  | 0x0401, 0 => alg == 0x12 || alg == 0x60
  | 0x0408, 0 | 0x0409, 0 => alg == 0x12
  | _, _ => true

/-! ## Counter tree (R203 to R207) -/

/-- The leaf of the firmware version floor, which stands outside the node tree (R320): it takes the last of the 31,744 numbers
(assumption 73). -/
def floorLeaf : Nat := 31743

/-- The key of a leaf's checks: CTK (R203), and for the version floor KDF(device secret, "CTF", empty) (R320). -/
def State.leafKey (s : State) (n : Nat) : Bytes := if n = floorLeaf then kdfOf (s.otpSecret otpDeviceSecret) (ascii "CTF") [] else s.ctk

/-- The 16-bit check of a copy of leaf `n` at a value: the leftmost bits of a CMAC over number and value. What the check covers, and
its construction, the spec leaves open (assumption 73). -/
def State.leafCheck (s : State) (n v : Nat) : Nat := ofBE ((cmacOf 0x12 (s.leafKey n) (toLE 2 n ++ toLE 6 v)).take 2)

/-- A copy of leaf `n` as MRAM holds it: a 48-bit value and its check, which is off by `diff` (R203). -/
def State.leafWord (s : State) (n v diff : Nat) : Nat := v % 2 ^ 48 + 2 ^ 48 * ((s.leafCheck n v ^^^ diff) % 2 ^ 16)

/-- The owner word of a leaf: its kind and owner (R203). How they are coded is the model's choice (assumption 73). -/
def Leaf.ownerWord (l : Leaf) : Nat :=
  (match l.kind with | .epoch => 1 | .cursor => 2 | .seal => 3 | .floor => 4 | .usage => 5 | .gcm => 6 | .ctr => 7) * 2 ^ 56 + l.owner % 2 ^ 56

/-- The four words of a leaf with number `n`: its three copies and the owner word. -/
def State.leafWords (s : State) (n : Nat) (l : Leaf) : Bytes :=
  toLE 8 (s.leafWord n l.a l.da) ++ toLE 8 (s.leafWord n l.b l.db) ++ toLE 8 (s.leafWord n l.c l.dc) ++ toLE 8 l.ownerWord

/-- The four words of leaf `n`; a leaf not allocated reads zero. -/
def State.leafBytes (s : State) (n : Nat) : Bytes :=
  if n = floorLeaf then s.leafWords n s.upd.floor
  else
    match s.ks.leaves.find? (fun e => e.1 == n) with
    | some (_, l) => s.leafWords n l
    | none => fill 32 0

/-- Node `i` of a level of the tree of arity 16: a 64-bit CMAC under CTK of its children; level 0 is the leaves (R203). -/
def State.treeNode (s : State) : Nat → Nat → Bytes
  | 0, i => if i = floorLeaf then fill 32 0 else s.leafBytes i
  | l + 1, i => (cmacOf 0x12 s.ctk ((List.range 16).flatMap (fun j => s.treeNode l (16 * i + j)))).take 8

/-- The nodes above leaf `n`, as (level, index). -/
def nodesAbove (n : Nat) : List (Nat × Nat) := [(1, n / 16), (2, n / 256), (3, n / 4096), (4, 0)]

/-- A leaf written: the nodes above it change in SRAM, and their MRAM copies wait (R203). -/
def State.leafWritten (s : State) (n : Nat) : State :=
  { s with ks := { s.ks with
    nodesStale := s.ks.nodesStale ++ (nodesAbove n).filter (fun e => !s.ks.nodesStale.contains e) } }

/-- Counter-tree nodes written back to MRAM (R203). -/
def State.nodesWritten (s : State) : State :=
  { s with ks := { s.ks with nodesAt := s.frameNo, nodesStale := [] } }

/-- The value of a leaf: the greatest among the copies that pass; `none` when all three fail (R207). -/
def Leaf.value (l : Leaf) : Option Nat :=
  let ok := (if l.da = 0 then [l.a] else []) ++ (if l.db = 0 then [l.b] else []) ++ (if l.dc = 0 then [l.c] else [])
  if ok.isEmpty then none else some (ok.foldl max 0)

/-- All three copies at one value. -/
def Leaf.at_ (l : Leaf) (v : Nat) : Leaf := { l with a := v, b := v, c := v, da := 0, db := 0, dc := 0 }

/-- The copies agree. -/
def Leaf.clean (l : Leaf) : Bool := l.da == 0 && l.db == 0 && l.dc == 0 && l.a == l.b && l.b == l.c

/-- MRAM errors in the checks of the copies of leaf `n`: (leaf, copy, mask). -/
def Leaf.flip (n : Nat) (x : Leaf) (l : List (Nat × Nat × Nat)) : Leaf :=
  l.foldl (fun (x : Leaf) f =>
    let m := f.2.2 % 2 ^ 16
    if f.1 ≠ n then x
    else if f.2.1 = 0 then { x with da := x.da ^^^ m }
    else if f.2.1 = 1 then { x with db := x.db ^^^ m }
    else { x with dc := x.dc ^^^ m }) x

/-- MRAM errors in the checks of leaf copies. -/
def State.flipLeaves (s : State) (l : List (Nat × Nat × Nat)) : State :=
  if l = [] then s
  else { s with
    ks := { s.ks with leaves := s.ks.leaves.map (fun (e : Nat × Leaf) => (e.1, e.2.flip e.1 l)) }
    upd := { s.upd with floor := s.upd.floor.flip floorLeaf l } }

/-- The version floor resolved, as R207 sets out for every read and for start-up (R320). -/
def State.resolveFloor (s : State) : State :=
  match s.upd.floor.value with
  | none => s.ksFault R.KS_ERR_STS_LEAF_LOST 0 floorLeaf
  | some v =>
    if s.upd.floor.clean then s
    else ({ s with upd := { s.upd with floor := s.upd.floor.at_ v } }).ksFault R.KS_ERR_STS_LEAF_FIX 0 floorLeaf

/-- The number of the leaf of this kind and owner. -/
def State.leafOf (s : State) (k : LeafKind) (owner : Nat) : Option Nat :=
  (s.ks.leaves.find? (fun (e : Nat × Leaf) => e.2.kind == k && e.2.owner == owner)).map Prod.fst

/-- The words of a leaf differ from those its nodes were computed from. -/
def Leaf.off (l : Leaf) : Bool := l.da != l.sa || l.db != l.sb || l.dc != l.sc

/-- The nodes above leaf `n` recomputed from their children: where they differ they are rewritten, and NODE_FIX is set (R207).
`moved` when the value of the leaf itself has changed with its repair. -/
def State.fixNodes (s : State) (n : Nat) (moved : Bool) : State :=
  let mine (e : Nat × Leaf) : Bool := e.1 / 16 == n / 16
  if !moved && s.ks.leaves.all (fun e => !(mine e && e.2.off)) then s
  else
    let t := { s with ks := { s.ks with
      leaves := s.ks.leaves.map (fun (e : Nat × Leaf) =>
        if mine e then (e.1, { e.2 with sa := e.2.da, sb := e.2.db, sc := e.2.dc }) else e) } }
    (t.leafWritten n).ksFault R.KS_ERR_STS_NODE_FIX 0 n

/-- A leaf read and resolved: copies rewritten forward, LEAF_FIX or LEAF_LOST set and recorded, then the nodes above it recomputed
(R207, R214). -/
def State.readLeaf (s : State) (n : Nat) : Option Nat × State :=
  match s.ks.leaves.find? (fun e => e.1 == n) with
  | none => (none, s)
  | some (_, l) =>
    match l.value with
    | none => (none, (s.ksFault R.KS_ERR_STS_LEAF_LOST l.slice n).fixNodes n false)
    | some v =>
      if l.clean then (some v, s.fixNodes n false)
      else
        let t := { s with ks := { s.ks with
          leaves := s.ks.leaves.map (fun (e : Nat × Leaf) => if e.1 = n then (e.1, e.2.at_ v) else e) } }
        (some v, (t.ksFault R.KS_ERR_STS_LEAF_FIX l.slice n).fixNodes n (l.a != v || l.b != v || l.c != v))

/-- The leaf of this kind and owner read and resolved; the answer is false when it is lost (R207). -/
def State.needLeaf (s : State) (k : LeafKind) (owner : Nat) : Bool × State :=
  match s.leafOf k owner with
  | none => (true, s)
  | some n => let r := s.readLeaf n; (r.1.isSome, r.2)

/-- A leaf raised in all three copies, with the nodes above it (R205). -/
def State.raiseLeaf (s : State) (n v : Nat) : State :=
  ({ s with ks := { s.ks with
    leaves := s.ks.leaves.map (fun (e : Nat × Leaf) =>
      if e.1 = n then (e.1, { e.2.at_ v with sa := 0, sb := 0, sc := 0 }) else e) } }).leafWritten n

/-- The lowest unallocated leaf number; the version floor (R203, R320), kept with the update state, is one of the 31,744
leaves. -/
def State.freeLeaf (s : State) : Option Nat :=
  if s.ks.leaves.length + 1 < 31744 then
    (List.range (s.ks.leaves.length + 1)).find? (fun n => s.ks.leaves.all (fun e => e.1 != n))
  else none

/-- Key-counter leaves of a slice (R204). -/
def State.leavesHeld (s : State) (n : Nat) : Nat :=
  (s.ks.leaves.filter (fun e => e.2.slice == n
    && (e.2.kind == .usage || e.2.kind == .gcm || e.2.kind == .ctr))).length

/-- A leaf allocated with a first value; key counters count against KS_SLICE_LEAF.CAP (R204). A read-only tree takes none
(R206). -/
def State.allocLeaf (s : State) (k : LeafKind) (n owner v : Nat) : Option State :=
  let key := k == .usage || k == .gcm || k == .ctr
  if s.ks.ctRo || key && decide (s.leavesHeld n ≥ s.get R.KS_SLICE_LEAF_CAP n) then none
  else
    match s.freeLeaf with
    | none => none
    | some i =>
      some (({ s with ks := { s.ks with
        leaves := Tab.ins s.ks.leaves i { kind := k, slice := n, owner := owner, a := v, b := v, c := v } } }).leafWritten i)

/-- The leaves of this kind and owner released. -/
def State.dropLeaf (s : State) (k : LeafKind) (owner : Nat) : State :=
  let t := { s with ks := { s.ks with
    leaves := s.ks.leaves.filter (fun e => !(e.2.kind == k && e.2.owner == owner)) } }
  match s.leafOf k owner with
  | some n => t.leafWritten n
  | none => t

/-- A window's unused values are abandoned; of a key with a nonzero LIMIT, which has a usage leaf, that is recorded (R204, R205). A window with values assigned past its raise
has none unused, and stays until the key phases of their commands raise it, unless the key itself goes (`gone`). -/
def State.abandon (s : State) (w : Window) (gone : Bool := false) : State :=
  if !gone && decide (w.last + 1 < w.next) then s
  else
  let t := { s with ks := { s.ks with
    windows := s.ks.windows.filter (fun x => !(x.kind == w.kind && x.handle == w.handle)) } }
  if (w.kind == .usage || (s.leafOf .usage w.handle).isSome) && w.next ≤ w.last then t.record 0x0103 1 (hSlice w.handle) w.handle w.next w.last else t

/-- The windows of a key are abandoned. -/
def State.abandonKey (s : State) (h : Nat) (gone : Bool := false) : State :=
  (s.ks.windows.filter (fun w => w.handle == h)).foldl (fun t w => t.abandon w gone) s

/-- The next value of a counter assigned at admission (R205): the window's next, or the value after the leaf. -/
def State.assign (s : State) (k : LeafKind) (h : Nat) : Nat × State :=
  match s.ks.windows.find? (fun w => w.kind == k && w.handle == h) with
  | some w =>
    (w.next, { s with ks := { s.ks with
      windows := s.ks.windows.map (fun x => if x.kind == k && x.handle == h then { x with next := x.next + 1 } else x) } })
  | none =>
    let v := (s.leafValue k h).getD 0
    (v + 1, { s with ks := { s.ks with
      windows := s.ks.windows ++ [{ kind := k, handle := h, next := v + 2, last := v }] } })

/-- What becomes of a value when its window must be raised in the key-phase frame. -/
inductive Raise where
  | ok | exhausted | lost
deriving DecidableEq, Repr

/-- The window of a counter raised until it covers value `v`, by steps of `size` up to `limit` (R204 to R207). Where the window
has been abandoned since the value was assigned the leaf itself is raised to it; a key invalidated since then has no leaf
(R200). -/
def State.cover_ (s : State) (k : LeafKind) (h v size limit : Nat) : Raise × State :=
  match s.ks.windows.find? (fun w => w.kind == k && w.handle == h) with
  | none =>
    match s.leafOf k h with
    | none => (.ok, s)
    | some n =>
      match s.readLeaf n with
      | (none, t) => (.lost, t)
      | (some x, t) =>
        if v > limit then (.exhausted, t)
        else if v ≤ x then (.ok, t)
        else if t.ks.ctRo then (.exhausted, t)
        else (.ok, t.raiseLeaf n v)
  | some w =>
    if v > limit then (.exhausted, s)
    else if v ≤ w.last then (.ok, s)
    else if s.ks.ctRo then (.exhausted, s)
    else
      let s1? := match s.leafOf k h with
        | some n => some (n, s)
        | none => (s.allocLeaf k (hSlice h) h 0).bind (fun t => (t.leafOf k h).map (fun n => (n, t)))
      match s1? with
      | none => (.exhausted, s)
      | some (n, s1) =>
        match s1.readLeaf n with
        | (none, s2) => (.lost, s2)
        | (some _, s2) =>
          let last := min limit (w.last + size * ceilDiv (v - w.last) size)
          let s3 := s2.raiseLeaf n last
          (.ok, { s3 with ks := { s3.ks with
            windows := s3.ks.windows.map (fun x => if x.kind == k && x.handle == h then { x with last := last } else x) } })

/-! ## Seals (R191) -/

/-- The next GCM IV of a seal: member ID, seal epoch, seal count, 96 bits big-endian. A seal-epoch leaf that refuses to rise
gives COUNTER_EXHAUSTED, a lost one SLOT_INTEGRITY (R191, R206, R207). -/
def State.nextIv (s : State) : Except Nat (Bytes × State) :=
  let mk (t : State) : Bytes × State :=
    (toBE 12 (t.memberId * 2 ^ 84 + t.ks.sealEpoch * 2 ^ 48 + t.ks.sealCount),
     { t with ks := { t.ks with sealCount := t.ks.sealCount + 1 } })
  if s.ks.sealEpoch = 2 ^ 36 then .error ccCounterExhausted
  else if s.ks.sealEpoch > 2 ^ 36 then .error ccSlotIntegrity
  else if s.ks.sealCount < 2 ^ 48 then .ok (mk s)
  else
    match s.leafOf .seal 0 with
    | none => .error ccCounterExhausted
    | some n =>
      match s.readLeaf n with
      | (some v, t) =>
        if v + 1 < 2 ^ 36 ∧ !t.ks.ctRo then
          let u := t.raiseLeaf n (v + 1)
          .ok (mk { u with ks := { u.ks with sealEpoch := v + 1, sealCount := 0 } })
        else .error ccCounterExhausted
      | (none, _) => .error ccSlotIntegrity

/-- What a new key's blob carries besides its handle. -/
structure NewKey where
  attr : Nat
  pidx : Nat
  pgen : Nat
  alg : Nat
  material : Bytes
deriving DecidableEq, Repr

/-- The header of a blob (R191). -/
def blobHeader (h attr pidx alg pgen epoch mlen : Nat) : Bytes :=
  toLE 8 h ++ toLE 8 attr ++ toLE 3 pidx ++ toLE 1 alg ++ toLE 2 pgen ++ toLE 6 epoch ++ toLE 2 mlen ++ [1#8, 0#8]

/-- The length of a blob of this material length (R191). -/
def blobLen (mlen : Nat) : Nat := if mlen ≤ 32 then 96 else 112 + 16 * ceilDiv mlen 16

/-- EK_s: the one drawn at the last slice reset, else the one of start-up (R181). -/
def State.ekOf (s : State) (n : Nat) : Bytes :=
  if (s.domain n).ek = [] then ((segTake 32 (segTake (32 * n) s.ks.ekSegs).2).1).flatMap RndSeg.bytes else (s.domain n).ek

/-- The key that seals a blob of a handle at an epoch: DK_s(EPOCH), or EK_s for an ephemeral key (R191). -/
def State.sealKey (s : State) (h epoch : Nat) : Bytes :=
  if hEphem h then s.ekOf (hSlice h) else s.domainKey (hSlice h) epoch

/-- A blob sealed at an epoch: short, or long with a fresh body key (R191). -/
def State.sealBlob (s : State) (h epoch : Nat) (k : NewKey) : Except Nat (Bytes × State) :=
  match s.nextIv with
  | .error code => .error code
  | .ok (iv, s1) =>
    let mlen := k.material.length
    let header := blobHeader h k.attr k.pidx k.alg k.pgen epoch mlen
    if mlen ≤ 32 then
      let (ct, tag) := gcmEnc 0x12 (s1.sealKey h epoch) iv header (fitTo 32 k.material)
      .ok (header ++ iv ++ fill 4 0 ++ fitTo 32 ct ++ fitTo 16 tag, s1)
    else
      let (bk, s2) := s1.randomBytes 32
      let (ct, tag) := gcmEnc 0x12 (s2.sealKey h epoch) iv header bk
      let (bc, bt) := gcmEnc 0x12 bk (fill 12 0) (toLE 8 h) (fitTo (16 * ceilDiv mlen 16) k.material)
      .ok (header ++ iv ++ fill 4 0 ++ fitTo 32 ct ++ fitTo 16 tag ++ fitTo (16 * ceilDiv mlen 16) bc ++ fitTo 16 bt, s2)

/-! ## Blobs opened (R193, R194) -/

/-- The window of a domain holds an epoch (R184). -/
def State.inWindow (s : State) (n e : Nat) : Bool :=
  decide ((s.domain n).floor ≤ e ∧ e ≤ s.epochOf n)

/-- The header of a blob as a key record without material. -/
def parseHeader (b : Bytes) : KeyRec :=
  { handle := fieldLE b 0 8, attr := fieldLE b 8 8, pidx := fieldLE b 16 3, alg := fieldLE b 19 1,
    pgen := fieldLE b 20 2, epoch := fieldLE b 22 6, mlen := fieldLE b 28 2 }

/-- The paging checks of a host blob in the order of R194 up to the tags; `head` opens INNER only (R210). `v` is
the generation view of the command's admission (R200). -/
def State.openBlob (s : State) (h : Nat) (v : RevView) (head : Bool) (b : Bytes) : Except Nat KeyRec :=
  let k := parseHeader b
  let n := hSlice h
  if k.handle ≠ h ∨ fieldLE b 30 1 ≠ 1 ∨ !zeroAt b 31 1 ∨ !zeroAt b 44 4 ∨ !mlenOk k.alg k.mlen (aPublic k.attr) then
    .error ccFormatInvalid
  else if (if hEphem h then k.epoch != 0 else !s.inWindow n k.epoch) then .error ccKeyRevoked
  else if !hEphem h && (v.revoked.contains h || revUp s.ks.known n v 5 k.pidx k.pgen) then .error ccKeyRevoked
  else
    let iv := cut b 32 12
    let (inner, tag) := gcmDec 0x12 (s.sealKey h k.epoch) iv (b.take 32) (cut b 48 32)
    if fitTo 16 tag ≠ cut b 80 16 then .error ccFormatInvalid
    else if k.mlen ≤ 32 then .ok { k with material := (fitTo 32 inner).take k.mlen }
    else
      let bk := fitTo 32 inner
      let body := cut b 96 (16 * ceilDiv k.mlen 16 + 16)
      if head then .ok { k with bk := bk, body := body }
      else
        let (m, bt) := gcmDec 0x12 bk (fill 12 0) (toLE 8 h) (body.take (16 * ceilDiv k.mlen 16))
        if fitTo 16 bt ≠ body.drop (16 * ceilDiv k.mlen 16) then .error ccFormatInvalid
        else .ok { k with bk := bk, body := body, material := fitTo k.mlen m }

/-- The host slots of a blob of this handle: address and slots in the slice's tables (R192). -/
def State.blobAddr (s : State) (h : Nat) : Nat :=
  if hEphem h then s.get R.KS_SLICE_ETAB_BASE (hSlice h) * 4096 + 128 * (hIndex h - 0x800000)
  else s.get R.KS_SLICE_TAB_BASE (hSlice h) * 4096 + 128 * hIndex h

/-! ## KRC and second tier (R193, R195, R196) -/

/-- KRC entries a key occupies (R193). -/
def KeyRec.entries (k : KeyRec) : Nat := if k.mlen ≤ 32 then 1 else 1 + ceilDiv k.mlen 48

/-- Bytes a key takes in the second tier (R196). -/
def KeyRec.tierBytes (k : KeyRec) : Nat :=
  if k.mlen ≤ 32 then 128 else 128 + 128 * ceilDiv (16 * ceilDiv k.mlen 16 + 16) 128

/-- A key held by a command whose status word is not queued (R195). -/
def State.isHeldKey (s : State) (h : Nat) : Bool :=
  s.trv.cmds.any (fun c => (c.key0.map (·.handle)) == some h || (c.key1.map (·.handle)) == some h)

/-- The record of a key in the KRC. -/
def State.inKrc (s : State) (h : Nat) : Option KeyRec := s.ks.krc.find? (fun k => k.handle == h)
/-- The record of a key in the second tier. -/
def State.inTier (s : State) (h : Nat) : Option KeyRec := s.ks.tier2.find? (fun k => k.handle == h)

/-- The attributes the key store holds for a handle at this boundary, in the KRC or the second tier (R73, R195). -/
def State.heldAttr (s : State) (h : Nat) : Option KeyRec :=
  match s.inKrc h with
  | some k => some k
  | none => s.inTier h

/-- The oldest keys of the second tier leave until `cap` bytes hold the rest (R196). -/
def tierTrim (cap : Nat) : List KeyRec → List KeyRec
  | [] => []
  | k :: ks => if (k :: ks).foldl (fun n x => n + x.tierBytes) 0 ≤ cap then k :: ks else tierTrim cap ks

/-- One key leaves the KRC: sealed into the second tier when it is enabled and 4 pool blocks are to spare (R195);
its windows are abandoned (R205). -/
def State.evict (s : State) (k : KeyRec) (keep : Bool) : State :=
  let s1 := { s with ks := { s.ks with krc := s.ks.krc.filter (fun x => x.handle != k.handle) } }
  let cap := s.get R.KS_T2_CFG_SIZE * 2 ^ 28
  let s2 :=
    if keep && s.on R.KS_CTL_T2_EN && s1.poolOf resCl ≥ 4 && k.tierBytes ≤ cap then
      let t := { s1 with
        ks := { s1.ks with
          tier2 := tierTrim cap (s1.ks.tier2.filter (fun (x : KeyRec) => x.handle != k.handle) ++ [k]) }
        trv := { s1.trv with pool := Tab.upd 0 s1.trv.pool (s1.frameNo * 16 + resCl) (· - 4) } }
      (t.bump R.KS_CNT_EVICT_SEALED).bump R.CL_CNT_BLOCKS_COUNT 4
    else if keep then s1.bump R.KS_CNT_EVICT_DISCARD else s1
  s2.abandonKey k.handle

/-- Entries in use in the KRC. -/
def State.krcUsed (s : State) : Nat := s.ks.krc.foldl (fun n k => n + k.entries) 0

/-- The KRC entries of keys invalidated meanwhile that the last command holding them lets go (R200). -/
def State.releaseKeys (s : State) (n : Nat) (hs : List Nat) : State :=
  (s.ks.krc.filter (fun k => hs.contains k.handle && s.bumpedEntry n k && !s.isHeldKey k.handle)).foldl
    (fun t k => t.evict k false) s

/-- Unheld keys evicted in least-recently-used order (the list's order) until `need` entries fit beside the 4,096
kept free (R195). -/
def State.krcRoom : List KeyRec → State → Nat → State
  | [], s, _ => s
  | k :: ks, s, need =>
    if s.krcUsed + need ≤ 1048576 - 4096 then s
    else if s.isHeldKey k.handle then State.krcRoom ks s need
    else State.krcRoom ks (s.evict k true) need

/-- A key placed in the KRC as the most recently used (R193, R195). -/
def State.krcPlace (s : State) (k : KeyRec) : State :=
  let t := State.krcRoom s.ks.krc s k.entries
  { t with ks := { t.ks with krc := t.ks.krc.filter (fun x => x.handle != k.handle) ++ [k] } }

/-- The key store learns a key's ancestry and extent (R187, R192). -/
def State.learn (s : State) (h pidx pgen depth partner slots : Nat) : State :=
  { s with ks := { s.ks with
    known := s.ks.known.filter (fun k => k.handle != h)
      ++ [{ handle := h, pidx := pidx, pgen := pgen, depth := depth, partner := partner, slots := slots }] } }

/-- The depth of a key known to the key store; a key whose parent is the domain has depth 1 (R201). -/
def State.depthOf (s : State) (n pidx pgen : Nat) : Nat :=
  if pidx = 0 then 1
  else
    match s.ks.known.find? (fun k => hSlice k.handle == n && hIndex k.handle == pidx && hGen k.handle == pgen) with
    | some k => k.depth + 1
    | none => 2

/-! ## Index allocation (R186) -/

/-- Slots of the key table a blob needs (R192). -/
def slotsOf (mlen : Nat) : Nat := ceilDiv (blobLen mlen) 128

/-- A replicated slice whose home is another member (R362). -/
def State.notHome (s : State) (n : Nat) : Bool :=
  s.on R.NET_STS_MEMBER && s.on R.NET_SLICE_REPL n && s.get R.NET_SLICE_HOME n != s.get R.NET_STS_ID

/-- The generation a new key at an index takes: the one the key store knows, else 1. -/
def Domain.genOf (d : Domain) (i : Nat) : Nat := let g := Tab.get 0 d.gens i; if g = 0 then 1 else g

/-- An index and the ones after it, `r` in all, are free: freed since the last cold reset, or at or above the cursor and not retired
(R185, R186). -/
def freeRun (d : Domain) (i r : Nat) : Bool :=
  (List.range r).all (fun j => d.freed.contains (i + j) || (decide (d.cursor ≤ i + j) && decide (Tab.get 0 d.gens (i + j) < 0xFFFF)))

/-- The first run of `r` indices at or above the cursor that holds no retired index (R185). -/
def Domain.cursorRun (d : Domain) (r : Nat) : Nat :=
  let retired (i : Nat) : Bool := decide (0xFFFF ≤ Tab.get 0 d.gens i)
  let n := r * ((d.gens.filter (fun e => decide (0xFFFF ≤ e.2))).length + 1)
  (((List.range n).map (· + d.cursor)).find? (fun i => (List.range r).all (fun j => !retired (i + j)))).getD (d.cursor + n)

/-- A run of `r` persistent indices (R186): the lowest run of free ones; one that reaches the cursor moves it, and its leaf rises in
steps of 256. No room below 2^SIZE gives POLICY_DENIED, a leaf that cannot rise COUNTER_EXHAUSTED (R206), a lost one SLOT_INTEGRITY (R207). -/
def State.allocPersistent (s : State) (n r : Nat) : Except Nat (Nat × State) :=
  let d := s.domain n
  let size := s.get R.KS_SLICE_TAB_SIZE n
  let top := if size = 0 then 0 else 2 ^ size
  let i := ((d.freed.filter (fun i => freeRun d i r)).min?).getD (d.cursorRun r)
  let take (t : State) (e : Nat) : State := t.modDomain n (fun x => { x with
    freed := x.freed.filter (fun j => decide (j < i ∨ i + r ≤ j)), cursor := max x.cursor (i + r), cursorEnd := e })
  if i + r > top then .error ccPolicyDenied
  else if i + r ≤ d.cursorEnd then .ok (i, take s d.cursorEnd)
  else if s.ks.ctRo then .error ccCounterExhausted
  else
    match s.leafOf .cursor n with
    | none => .error ccSlotIntegrity
    | some l =>
      match s.readLeaf l with
      | (none, _) => .error ccSlotIntegrity
      | (some _, t) =>
        let e := d.cursorEnd + 256 * ceilDiv (i + r - d.cursorEnd) 256
        .ok (i, take (t.raiseLeaf l e) e)

/-- The slots of an ephemeral key of slice `n` by its handle: those the key store knows of it. -/
def State.ephSlots (s : State) (h : Nat) : Nat :=
  match s.ks.known.find? (fun k => k.handle == h) with
  | some k => k.slots
  | none => 1

/-- Two runs of indices share one. -/
def runsMeet (i n j m : Nat) : Bool := decide (i < j + m ∧ j < i + n)

/-- No admitted command of slice `n` holds a position of the run of `r` from position `p` (R186). -/
def State.ephFree (s : State) (n p r : Nat) : Bool :=
  let holds (h : Nat) : Bool := hEphem h && runsMeet (hIndex h) (s.ephSlots h) (0x800000 + p) r
  s.trv.cmds.all (fun c => !(c.slice == n && !c.isHeld && (holds (Desc.key0 c.desc) || holds (Desc.key1 c.desc))))

/-- The ephemeral keys in force that hold a position of a run: their indices. -/
def State.ephLive (s : State) (n i r : Nat) : List Nat :=
  dedup ((s.ks.known.filter (fun k => hSlice k.handle == n && hEphem k.handle
    && Tab.get 0 (s.domain n).gens (hIndex k.handle) == hGen k.handle && runsMeet (hIndex k.handle) k.slots i r)).map
      (fun k => hIndex k.handle))

/-- A run of `r` ephemeral indices in turn, wrapping, positions held by admitted commands and retired ones skipped; the keys that
held positions of the run are invalidated (R185, R186). -/
def State.allocEphemeral (s : State) (n r : Nat) : Except Nat (Nat × State) :=
  let e := s.get R.KS_SLICE_ETAB_ESIZE n
  if e = 0 then .error ccPolicyDenied
  else
    let size := 2 ^ e
    let d := s.domain n
    let start := if d.ephNext + r ≤ size then d.ephNext else 0
    let fits (p : Nat) : Bool := decide (p + r ≤ size) && s.ephFree n p r
      && (List.range r).all (fun j =>
        let i := 0x800000 + p + j
        decide (Tab.get 0 d.gens i + (if (s.ephLive n (0x800000 + p) r).contains i then 1 else 0) < 0xFFFF))
    match ((List.range size).map (fun i => (start + i) % size)).find? fits with
    | none => .error ccPolicyDenied
    | some p =>
      let idx := 0x800000 + p
      let live := s.ephLive n idx r
      let t := s.modDomain n (fun x => { x with
        ephNext := (p + r) % size
        gens := live.foldl (fun g i => Tab.put 0 g i (Tab.get 0 g i + 1)) x.gens })
      let mine (k : KeyRec) : Bool := hSlice k.handle == n && live.contains (hIndex k.handle)
      let u := (t.ks.krc.filter mine).foldl (fun v k => v.evict k false) t
      .ok (idx, { u with ks := { u.ks with tier2 := u.ks.tier2.filter (fun k => !mine k) } })

/-- How creating keys can fail. -/
inductive Create where
  | done (s : State) (first : Nat) (blobs : Bytes)
  /-- nothing is created; the state keeps what reading a lost leaf showed (R207) -/
  | fail (code : Nat) (s : State)

/-- One key of a creation at index `i`: its handle and blob, with a usage leaf for a nonzero LIMIT (R191, R204). -/
def State.createOne (s : State) (n epoch depth i : Nat) (k : NewKey) : Except Nat (Nat × Bytes × State) :=
  let g := (s.domain n).genOf i
  let h := s.mkHandle n i g
  match s.sealBlob h epoch k with
  | .error code => .error code
  | .ok (b, u) =>
    match (if aLimit k.attr = 0 then some u else u.allocLeaf .usage n h 0) with
    | none => .error ccCounterExhausted
    | some w =>
      .ok (h, b, (w.learn h k.pidx k.pgen depth 0 (slotsOf k.material.length)).modDomain n
        (fun x => { x with gens := Tab.put 0 x.gens i g }))

/-- Keys created from index `i` on: their handles and blobs. -/
def State.createRun (n epoch depth : Nat) : State → Nat → List NewKey → Except Nat (List Nat × Bytes × State)
  | s, _, [] => .ok ([], [], s)
  | s, i, k :: ks =>
    match s.createOne n epoch depth i k with
    | .error code => .error code
    | .ok (h, b, t) =>
      match State.createRun n epoch depth t (i + slotsOf k.material.length) ks with
      | .error code => .error code
      | .ok (hs, bs, u) => .ok (h :: hs, b ++ bs, u)

/-- The two halves of a pair know each other. -/
def State.linkPair (s : State) : List Nat → State
  | [a, b] => { s with ks := { s.ks with known := s.ks.known.map (fun k =>
      if k.handle = a then { k with partner := b } else if k.handle = b then { k with partner := a } else k) } }
  | _ => s

/-- Keys created in adjacent runs, first half first, with their blobs (R186, R189, R191, R201). A persistent one needs the
domain's epoch leaf (R207). -/
def State.createKeys (s : State) (n : Nat) (eph : Bool) (depth : Nat) (ks : List NewKey) : Create :=
  let total := ks.foldl (fun m k => m + slotsOf k.material.length) 0
  let (ok, s0) := if eph then (true, s) else s.needLeaf .epoch n
  -- a creation that fails for a lost leaf leaves the report of that leaf
  let lost (code : Nat) (k : LeafKind) (o : Nat) : Create :=
    .fail code (if code = ccSlotIntegrity then (s0.needLeaf k o).2 else s0)
  if !ok then .fail ccSlotIntegrity s0
  else match (if eph then s0.allocEphemeral n total else s0.allocPersistent n total) with
  | .error code => lost code .cursor n
  | .ok (i, s1) =>
    match State.createRun n (if eph then 0 else s1.epochOf n) depth s1 i ks with
    | .error code => lost code .seal 0
    | .ok (hs, bs, t) => .done (t.linkPair hs) (hs.headD 0) bs

/-- The keys of a profile with the same or given material (R189): ATTR of each half. -/
def halves (prof : List (Nat × Nat × Bool)) (u limit : Nat) (eph genIn exp : Bool) (pidx pgen alg : Nat)
    (priv pub : Bytes) : List NewKey :=
  prof.map (fun e =>
    { attr := mkAttr limit 0 e.2.1 u false eph e.2.2 (decide (prof.length = 2)) genIn exp e.1,
      pidx := pidx, pgen := pgen, alg := alg, material := if e.2.2 then pub else priv })

end Sys2Proof.Machine
end

