-- ==== Sys2Proof/Machine/Price.lean ====
section
/-! DEFINITION. Cost vectors (R68, R69): the class ceilings, the block counts of the MAC, cipher, hash and lattice
opcodes (R94, R107, R131, R142, R162, R173, R208), the shares and output of the steps of a bulk command (R132,
R142), and the write-ledger bytes of a placement. -/

namespace Sys2Proof.Machine

/-- The execution-phase ceiling of each class (R68), without keys, record slot and output; per step for bulk. -/
def ceilingOf (cls : Nat) : Cost :=
  match cls with
  | 0x01 => { tu := 10, cl := 4, rnd := 8, dose := 1 }
  | 0x02 => { tu := 12, cl := 8, dose := 1 }
  | 0x03 => { tu := 8, cl := 12, dose := 1 }
  | 0x04 => { tu := 16, cl := 1032, dose := 6 }
  | 0x05 => { tu := 24, cl := 56, rnd := 8, dose := 5 }
  | 0x06 => { tu := 20, cl := 40, dose := 4 }
  | 0x07 => { tu := 30, cl := 144, rnd := 32, dose := 8 }
  | 0x08 => { tu := 8, cl := 16, rnd := 32, dose := 4 }
  | 0x10 => { cl := 65536, dose := 168 }
  | 0x11 => { hl := 4096, dose := 40 }
  | 0x20 => { hl := 8, pk := 171, rnd := 64, dose := 1600 }
  | 0x21 => { hl := 16, pk := 1200, w := 16, rnd := 128, dose := 10500 }
  | 0x22 => { hl := 16, pk := 8, dose := 20 }
  | 0x23 => { hl := 2, pk := 40, rnd := 48, dose := 260 }
  | 0x24 => { hl := 2, pk := 80, dose := 500 }
  | 0x25 => { hl := 2, pk := 64, rnd := 72, dose := 420 }
  | 0x26 => { hl := 2, pk := 128, dose := 820 }
  | 0x27 => { hl := 16, pk := 64, rnd := 32, dose := 420 }
  | 0x28 => { hl := 16, pk := 128, dose := 820 }
  | 0x29 => { hl := 4, pk := 64, rnd := 32, dose := 420 }
  | 0x2A => { hl := 64, pk := 944, rnd := 16384, dose := 8900 }
  | 0x2B => { hl := 64, pk := 64, lu := 120, rnd := 104, dose := 1400 }
  | 0x30 => { lu := 16, rnd := 64, dose := 80 }
  | 0x31 => { hl := 4, lu := 80, rnd := 32, dose := 600 }
  | 0x32 => { hl := 4, lu := 120, rnd := 32, dose := 900 }
  | 0x33 => { hl := 4, lu := 24, rnd := 32, dose := 120 }
  | _ => {}

/-- Cipher blocks after padding, and the lane blocks of a MAC over `len` bytes (R107). -/
def macBlocks (malg pad : Nat) (tdes : Bool) (len : Nat) : Option Nat :=
  if malg = 0x01 ∨ malg = 0x03 then
    let n? := if pad = 1 then some (max 1 (ceilDiv len 8)) else if pad = 2 then some (len / 8 + 1) else none
    n?.map (fun n => if malg = 0x01 then 2 * n else 2 * n + 4)
  else if malg = 0x05 ∧ pad = 0 then
    let n := max 1 (ceilDiv len (if tdes then 8 else 16))
    some (if tdes then 2 * n + 2 else n + 1)
  else none

/-- Digest length, rate or block, and padding bytes of a hash ALG (R139); a SHAKE has digest 0. -/
def hashInfo (alg : Nat) : Option (Nat × Nat × Nat) :=
  match alg with
  | 0x01 => some (28, 64, 9)
  | 0x02 => some (32, 64, 9)
  | 0x03 => some (48, 128, 17)
  | 0x04 => some (64, 128, 17)
  | 0x11 => some (28, 144, 1)
  | 0x12 => some (32, 136, 1)
  | 0x13 => some (48, 104, 1)
  | 0x14 => some (64, 72, 1)
  | 0x21 => some (0, 168, 1)
  | 0x22 => some (0, 136, 1)
  | _ => none

/-- Output bytes of a hash: its digest, or OUT_LEN for a SHAKE (R139). -/
def digestLen (alg outLen : Nat) : Nat :=
  match hashInfo alg with
  | some (0, _, _) => outLen
  | some (n, _, _) => n
  | none => 0

/-- Hash-lane blocks of one hash over `len` bytes (R139). -/
def hashBlocks (alg outLen len : Nat) : Nat :=
  match hashInfo alg with
  | some (0, r, p) => ceilDiv (len + p) r + (ceilDiv outLen r - 1)
  | some (_, r, p) => ceilDiv (len + p) r
  | none => 0

/-- What a bulk command's steps do: its blocks in all, the Dose price, and per step the input bytes it takes in and
the output bytes it produces (R131, R132, R142). -/
structure Plan where
  c : Nat
  dose : Nat
  takes : List Nat
  gives : List Nat
deriving DecidableEq, Repr

/-- Shares of `total` units over `n` frames (R69). -/
def shares (total n : Nat) : List Nat := (List.range n).map (fun j => share total n (j + 1))

/-- Running totals of a list. -/
def runSums : Nat → List Nat → List Nat
  | _, [] => []
  | acc, x :: xs => (acc + x) :: runSums (acc + x) xs

/-- The differences of a rising list. -/
def gaps : Nat → List Nat → List Nat
  | _, [] => []
  | p, x :: xs => (x - p) :: gaps x xs

/-- Data bytes of each step when each share carries `unit` bytes a block, up to `len`. -/
def dataSteps (sh : List Nat) (unit len : Nat) : List Nat :=
  gaps 0 ((runSums 0 sh).map (fun x => min len (x * unit)))

/-- Data bytes of the steps of SYM_GCM (R132): step 1 begins with H, E(K, J0) and the AAD blocks, later steps open
a carry record in 4, all but the last seal one in 4, the last ends with the length block. -/
def gcmSteps (aad s : Nat) (sh : List Nat) (len : Nat) : List Nat :=
  dataSteps (sh.zipIdx.map (fun e =>
    e.1 - ((if e.2 = 0 then 2 + ceilDiv aad 16 else 4) + (if e.2 + 1 = s then 1 else 4)))) 16 len

/-- A plan within the class ceiling of its steps (R68). -/
def Plan.within (p : Plan) (cls s : Nat) : Plan :=
  let top := ceilingOf cls
  { p with c := min p.c ((top.cl + top.hl) * max 1 s), dose := min p.dose (top.dose * max 1 s) }

/-- The lane blocks of a class 0x10 command under a key of ALG `alg` (R131), and the steps' data; `none` when a parameter
cannot be evaluated. A length beyond a maximum of R130 is priced by the same formula, within the class ceiling (R68). Which parameters
Traverse cannot evaluate R131 does not say: the model counts a DIR above 1 as one; and for an L that is no multiple of the block or the
data unit it rounds blocks up and data units down (assumption 83). -/
def cipherPlan (d : Desc) (alg : Nat) : Option Plan :=
  let len := d.bufLen 0
  let s := ceilDiv len 262144
  let tdes := isTdes alg
  let dir := d.pb 104
  let mk (c : Nat) (ds : List Nat) (out : Bool) : Plan :=
    ({ c := c, dose := ceilDiv (c * (if tdes then 256 else 512)) 100000, takes := ds,
       gives := if out then ds else ds.map (fun _ => 0) } : Plan).within 0x10 s
  match d.opcode with
  | 0x0200 | 0x0201 =>
    if dir > 1 then none
    else if tdes then
      let c := 2 * ceilDiv len 8; some (mk c (dataSteps (shares c s) 4 len) true)
    else let c := ceilDiv len 16; some (mk c (dataSteps (shares c s) 16 len) true)
  | 0x0202 => if dir > 1 then none else let c := ceilDiv len 16; some (mk c (dataSteps (shares c s) 16 len) true)
  | 0x0203 =>
    let a := d.bufLen 3
    if dir > 1 then none
    else let c := ceilDiv a 16 + ceilDiv len 16 + 3 + 8 * (s - 1); some (mk c (gcmSteps a s (shares c s) len) true)
  | 0x0204 =>
    let u := d.pb 105
    if dir > 1 ∨ u < 9 ∨ u > 16 then none
    else some (mk (ceilDiv len 16 + len / 2 ^ u) [len] true)
  | 0x0208 | 0x0209 =>
    (macBlocks (d.pb 104) (d.pb 105) tdes len).map (fun c =>
      ({ c := c, dose := ceilDiv (c * (if tdes ∨ d.pb 104 ≠ 0x05 then 256 else 512)) 100000, takes := [len]
         gives := [0] } : Plan).within 0x10 s)
  | _ => none

/-- The plan of a class 0x11 command (R142); `none` when a parameter cannot be evaluated. -/
def hashPlan (d : Desc) : Option Plan :=
  let len := d.bufLen 0
  let s := ceilDiv len 262144
  let alg := d.pb 104
  let outLen := d.paramN 106 2
  let hm := d.opcode = 0x0288 ∨ d.opcode = 0x0289
  let shake := alg = 0x21 ∨ alg = 0x22
  if (hashInfo alg).isNone ∨ (shake ∧ (hm ∨ outLen = 0 ∨ outLen > 512)) then none
  else if d.opcode = 0x0281 then
    let rlen := d.paramN 108 4
    let cr := hashBlocks alg outLen rlen
    if rlen = 0 ∨ len % rlen ≠ 0 then none
    else
      let c := len / rlen * cr
      let sums := runSums 0 (shares c s)
      some (({ c := c, dose := ceilDiv (c * 960) 100000,
               takes := gaps 0 (sums.map (fun x => ceilDiv x cr * rlen)),
               gives := gaps 0 (sums.map (fun x => x / cr * digestLen alg outLen)) } : Plan).within 0x11 s)
  else
    let c := hashBlocks alg outLen len + (if hm then 3 else 0)
    some (({ c := c, dose := ceilDiv (c * 960) 100000, takes := [len], gives := [0] } : Plan).within 0x11 s)

/-- The plan under a known key ALG (0 for the keyless hash opcodes). -/
def planOf (d : Desc) (alg : Nat) : Option Plan := if d.cls = 0x10 then cipherPlan d alg else hashPlan d

/-- The ALG values an opcode of class 0x10 admits for its key, one for each price (R127). -/
def admitted10 (d : Desc) : List Nat :=
  match d.opcode with
  | 0x0200 | 0x0201 => [0x01, 0x10]
  | 0x0208 | 0x0209 => if d.pb 104 = 0x05 then [0x01, 0x10] else [0x01]
  | 0x0204 => [0x13]
  | _ => [0x10]

/-- The dearest of several plans (R68): more Dose, then more blocks. -/
def dearest (ps : List Plan) : Option Plan :=
  ps.foldl (fun m p => match m with
    | none => some p
    | some q => if q.dose < p.dose ∨ (q.dose = p.dose ∧ q.c < p.c) then some p else some q) none

/-- The plan Traverse prices at: under the key's ALG when the key store holds it, else the dearest that an admitted
ALG gives (R68). -/
def pricePlan (d : Desc) (alg : Option Nat) : Option Plan :=
  if d.cls = 0x11 then hashPlan d
  else match alg with
    | some a => cipherPlan d a
    | none => dearest ((admitted10 d).filterMap (cipherPlan d))

/-- Modulus length in bytes of an RSA ALG. -/
def rsaK (alg : Nat) : Nat := if alg = 0x30 then 256 else if alg = 0x31 then 384 else 512

/-- Digest length of a hash of R163. -/
def rsaHLen (h : Nat) : Nat := if h = 0x02 then 32 else if h = 0x03 then 48 else if h = 0x04 then 64 else 0

/-- Compressions of one hash over `x` bytes (R163). -/
def rsaH (h x : Nat) : Nat := if h = 0x02 then ceilDiv (x + 9) 64 else ceilDiv (x + 17) 128

/-- Hash-lane blocks of an RSA encoding (R163). -/
def rsaBlocks (scheme h slen k : Nat) : Nat :=
  let hl := rsaHLen h
  let m := if hl = 0 then 0 else ceilDiv (k - hl - 1) hl
  if scheme = 0x02 then rsaH h (8 + hl + slen) + m * rsaH h (hl + 4)
  else if scheme = 0x03 then rsaH h (k - hl + 3) + m * rsaH h (hl + 4)
  else 0

/-- Eighths of ML-KEM by opcode and set 1 to 3 (R173). -/
def kemEighths (op set : Nat) : Option Nat :=
  match op, set with
  | 0x0340, 1 | 0x0341, 1 => some 6
  | 0x0340, 2 | 0x0341, 2 => some 8
  | 0x0340, 3 | 0x0341, 3 => some 12
  | 0x0342, 1 => some 8
  | 0x0342, 2 => some 12
  | 0x0342, 3 => some 16
  | _, _ => none

/-- The execution-phase vector of a descriptor by its opcode and parameters; `alg` is KEY0's ALG when the key store
holds its attributes (R68, R94, R131, R142, R162, R173, R208). -/
def execVector (d : Desc) (alg : Option Nat) : Cost :=
  let top := ceilingOf d.cls
  let s := spanOf d
  if isBulk d then
    match pricePlan d alg with
    | some p => if d.cls = 0x10 then { cl := p.c, dose := p.dose } else { hl := p.c, dose := p.dose }
    | none => { cl := top.cl * s, hl := top.hl * s, dose := top.dose * s }
  else
    match d.opcode with
    | 0x0130 | 0x0131 =>
      let tdes := match alg with | some a => isTdes a | none => true
      match if d.bufLen 0 > 4096 then none else macBlocks (d.pb 104) (d.pb 105) tdes (d.bufLen 0) with
      | some c => { top with cl := c }
      | none => top
    | 0x0138 => if d.bufLen 0 > 4080 then top else { top with cl := max 1 (ceilDiv (d.bufLen 0 + 16) 16) + 1 }
    | 0x0100 | 0x0140 => if d.pb 105 = 0 then { top with rnd := 0 } else top
    | 0x0141 => if d.pb 104 = 0 then { top with rnd := 0 } else top
    | 0x0160 | 0x0162 | 0x0402 | 0x0403 | 0x0408 | 0x0409 => { top with rnd := 0 }
    | 0x0340 | 0x0341 =>
      let rnd := if d.opcode = 0x0340 then 64 else 32
      match kemEighths d.opcode (d.pb 104) with
      | some e => { top with lu := e, rnd := rnd }
      | none => top
    | 0x0342 =>
      match alg with
      | some a => { top with lu := (kemEighths 0x0342 (a - 0x4F)).getD 16, rnd := 0 }
      | none => { top with rnd := 0 }
    | _ => top

/-- Whether buffer `b` of a descriptor is an output buffer. -/
def Desc.isOut (d : Desc) (b : Nat) : Bool := d.bufLen b != 0 && bit (d.bufFlags b) 0

/-- Sum of BUF_LEN over output buffers (R69). -/
def Desc.outBytes (d : Desc) : Nat := (List.range 4).foldl (fun n b => if d.isOut b then n + d.bufLen b else n) 0

/-- Write-ledger bytes of each write frame (R69): for a bulk command one step's output in each of F+d+2 to F+d+S+1,
with the rest and the status word in the last; when logging is on 16 bytes for each 4 KB page that the output of the frame and
the status word touch. The counter block that a SYM_CTR encryption of several steps writes to BUF[2] is output of step 1 (R134). Of
steps that cannot be evaluated the frames take even shares of the output (assumption 83). -/
def ledgerBytes (d : Desc) (gives : List Nat) (log : Bool) : List Nat :=
  let logged (pages : List Nat) : Nat := if log then 16 * (dedup pages).length else 0
  let status := pagesOf d.statusAddr 32
  let early := d.opcode == 0x0202 && d.pb 104 == 0 && decide (2 ≤ spanOf d) && d.isOut 2 && decide (gives.length = spanOf d)
  -- the pages of the output buffers, of a bulk command's data buffer from byte `off` on
  let pagesFrom (off : Nat) : List Nat := (List.range 4).flatMap (fun b =>
    if !d.isOut b || (early && b == 2) then [] else if isBulk d && b == 1 then pagesOf (d.bufAddr b + off) (d.bufLen b - off)
    else pagesOf (d.bufAddr b) (d.bufLen b))
  if isBulk d && spanOf d != 0 then
    let n := spanOf d
    let g := if gives.length = n then gives else shares d.outBytes n
    let head := g.take (n - 1)
    let sums := 0 :: runSums 0 head
    let counter := if early then d.bufLen 2 else 0
    let headOut := (head.zip sums).zipIdx.map (fun e =>
      let first := if e.2 = 0 then counter else 0
      e.1.1 + first + logged (pagesOf (d.bufAddr 1 + e.1.2) e.1.1 ++ pagesOf (d.bufAddr 2) first))
    let done := head.foldl (· + ·) 0
    headOut ++ [(d.outBytes - done - counter) + 32 + logged (pagesFrom done ++ status)]
  else [d.outBytes + 32 + logged (pagesFrom 0 ++ status)]

/-- The cost vector of a descriptor of slice `n` at this boundary; `audit` when it writes an audit record (R68). -/
def State.price (s : State) (n : Nat) (d : Desc) (audit : Bool) : Cost :=
  let alg := if d.key0 = 0 then none else (s.heldAttr d.key0).map (·.alg)
  let e := execVector d alg
  let gives := if isBulk d then ((pricePlan d alg).map (·.gives)).getD [] else []
  { e with k := keysOf d, fb := b2n audit, out := ledgerBytes d gives (s.slice n).ctx.logEn }

end Sys2Proof.Machine
end

