-- ==== Sys2Proof/Machine/Tiles.lean ====
section
/-! DEFINITION. PK tiles and lattice units (R149 to R157, R171): the row operations on operand memory, the slots a command
holds, the schedule of a frame's eighths, and the exchange of accumulators between slots. -/

namespace Sys2Proof.Machine

/-! ## Slots (R150, R171) -/

/-- The fabric address and the size of a slot: 32 KB for PK slots 0 to 127, 64 KB for lattice slots 128 to 159 (R276). -/
def slotBase (k : Nat) : Nat := if k < 128 then 0x05000000 + 0x8000 * k else 0x05400000 + 0x10000 * (k - 128)
def slotSize (k : Nat) : Nat := if k < 128 then 0x8000 else 0x10000
/-- Where the secret region of a slot begins. -/
def slotSecret (k : Nat) : Nat := if k < 128 then 0x6000 else 0xC000

def State.tileSlot (s : State) (k : Nat) : TileSlot := Tab.get {} s.tiles.slots k
def State.tileRow (s : State) (r : Nat) : TileRow := Tab.get {} s.tiles.rows r

/-- The slots a command holds. -/
def State.heldSlots (s : State) (id : Nat) : List Nat :=
  (s.tiles.slots.filter (fun e => e.2.cmd == id && id != 0)).map (·.1)

/-- Bytes written into a slot from offset `off`; what does not fit is left out. -/
def State.slotWrite (s : State) (k off : Nat) (data : Bytes) : State :=
  { s with fab := { s.fab with ram := ramPut s.fab.ram (slotBase k + off) (data.take (slotSize k - off)) } }

/-- A slot cleared: both regions and the saved accumulator; no row keeps what it held of it (R152, R157). -/
def State.slotClear (s : State) (k : Nat) : State :=
  { s with
    fab := { s.fab with ram := s.fab.ram.filter (fun c => decide (c.1 < slotBase k ∨ slotBase k + slotSize k ≤ c.1)) }
    tiles := { s.tiles with
      slots := s.tiles.slots.del k
      rows := s.tiles.rows.filter (fun e => e.2.slot != some k) } }

/-- Every slot of a command cleared (R157). -/
def State.slotsClear (s : State) (id : Nat) : State := (s.heldSlots id).foldl (fun t k => t.slotClear k) s

/-- A free slot of a kind; which one is a free value (assumption 68). -/
def State.freeSlot (s : State) (lattice : Bool) : Option Nat × State :=
  let all := if lattice then (List.range 32).map (· + 128) else List.range 128
  let free := all.filter (fun k => (s.tileSlot k).cmd == 0)
  let (v, t) := s.fresh
  (free[v % max 1 free.length]?, t)

/-- A slot taken for one half of a command, with the inputs in its public region (R150). The places of the operands within a
region are the image's (assumption 68). -/
def State.slotTake (s : State) (c : Cmd) (lattice : Bool) (half : Nat) : State :=
  match s.freeSlot lattice with
  | (none, t) => t
  | (some k, t) =>
    let u := { t with tiles := { t.tiles with slots := t.tiles.slots.ins k { cmd := c.id, half := half } } }
    u.slotWrite k 0 ((c.inputs.flatMap (·.2)).take (slotSecret k))

/-- The slots of a command at its first execution eighth: one, of class 0x21 one for each CRT half, of class 0x2B one of each
kind (R150, R161, R171). -/
def State.slotsTake (s : State) (c : Cmd) : State :=
  let t := if c.cost.pk = 0 then s
    else if Desc.cls c.desc = 0x21 then (s.slotTake c false 0).slotTake c false 1
    else s.slotTake c false 0
  if c.cost.lu = 0 then t else t.slotTake c true 0

/-! ## The schedule of a frame (R151) -/

/-- Entries laid end to end along the eighths of the rows from row `base` on; an entry that runs past eighth 7 is split, and
its overflow runs on the next row from eighth 0. -/
def layOut (base : Nat) : Nat → List (Nat × Nat × Nat) → List TilePiece
  | _, [] => []
  | at_, (cmd, half, n) :: rest =>
    let fits := min n (8 - at_ % 8)
    let here : TilePiece := { row := base + at_ / 8, first := at_ % 8, eighths := fits, cmd := cmd, half := half }
    let next : TilePiece := { row := base + at_ / 8 + 1, first := 0, eighths := n - fits, cmd := cmd, half := half }
    (if n = 0 then [] else if fits = n then [here] else [next, here]) ++ layOut base (at_ + n) rest

/-- The entries of a command in the frame: class 0x21 counts as two, one for each slot. -/
def tileEntries (lattice : Bool) (c : Cmd) : List (Nat × Nat × Nat) :=
  let n := if lattice then eighths c.cost.lu 8 c.step else eighths c.cost.pk c.cost.w c.step
  if !lattice && Desc.cls c.desc == 0x21 then [(c.id, 0, n - n / 2), (c.id, 1, n / 2)] else [(c.id, 0, n)]

/-- The schedule of the granted commands in their order: rows 0 to 31, units 32 to 47. -/
def tilePlan (cs : List Cmd) : List TilePiece :=
  layOut 0 0 (cs.flatMap (tileEntries false)) ++ layOut 32 0 (cs.flatMap (tileEntries true))

/-- The row or unit on which a command works first in the frame, numbered within its kind. -/
def State.tileOf (s : State) (id : Nat) (lattice : Bool) : Nat :=
  match s.tiles.plan.find? (fun p => p.cmd == id && decide (32 ≤ p.row) == lattice) with
  | some p => p.row % 32
  | none => 0

/-! ## Row operations (R149) -/

/-- Words of a slot, and of its public region. -/
def slotWords (k : Nat) : Nat := slotSize k / 8
def slotOpen (k : Nat) : Nat := slotSecret k / 8

/-- The number in `n` words of a slot from word `w` on; words beyond the slot's end are no part of it. -/
def State.slotNum (s : State) (k w n : Nat) : Nat := ofLE (s.ramBytes (slotBase k + 8 * w) (8 * min n (slotWords k - w)))

/-- The operation reads a word of the secret region of slot `k`; the accumulator counts where it was formed from one. -/
def readsSecret (k : Nat) (row : TileRow) (op : RowOp) : Bool :=
  let reach (w n : Nat) : Bool := decide (slotOpen k < w + n)
  match op with
  | .mac a n b | .macs a n b => reach a (min n 64) || reach b 1
  | .out _ _ => row.secret
  | .move a _ n => reach a n
  | .compare x y n => reach x n || reach y n
  | .clear _ _ => false

/-- The operation writes a word of the public region. -/
def writesOpen (k : Nat) (op : RowOp) : Bool :=
  match op with
  | .out a _ => decide (a < slotOpen k)
  | .move _ b _ => decide (b < slotOpen k)
  | _ => false

/-- A value leaves the secret region for the public one only when the last compare of its row has passed (R150). -/
def leaksSecret (k : Nat) (row : TileRow) (op : RowOp) : Bool := readsSecret k row op && writesOpen k op && !row.same

/-- One operation of a row on slot `k`: the state and the row after it. ACC is cut to its 4,224 bits; a compare of two
operands of equal length gives one result bit (R149). A word number beyond the slot's end names no word: nothing is read or
written there. A write that R150 keeps in the secret region is not made. -/
def State.rowOp (s : State) (k : Nat) (row : TileRow) (op : RowOp) : State × TileRow :=
  let product (a n b : Nat) : Nat := s.slotNum k a (min n 64) * s.slotNum k b 1
  let taint := row.secret || readsSecret k row op
  if leaksSecret k row op then (s, row)
  else
    match op with
    | .mac a n b => (s, { row with acc := (row.acc + product a n b) % 2 ^ 4224, secret := taint })
    | .macs a n b => (s, { row with acc := (row.acc + product a n b) / 2 ^ 64 % 2 ^ 4224, secret := taint })
    | .out a n => (s.slotWrite k (8 * a) (toLE (8 * min n 66) row.acc), row)
    | .move a b n => (s.slotWrite k (8 * b) (s.ramBytes (slotBase k + 8 * a) (8 * min n (slotWords k - a))), row)
    | .compare x y n =>
      let m := min n (min (slotWords k - x) (slotWords k - y))
      (s, { row with same := s.slotNum k x m == s.slotNum k y m })
    | .clear a n => (s.slotWrite k (8 * a) (fill (8 * n) 0), row)

/-- The accumulator of a row saved with the slot it leaves (R152). -/
def TileRow.save (row : TileRow) (slots : Tab TileSlot) : Tab TileSlot :=
  match row.slot with
  | some j => slots.map (fun e => if e.1 = j then (e.1, { e.2 with saved := row.acc, savedSecret := row.secret }) else e)
  | none => slots

/-- A row takes a slot at an eighth boundary (R152): its accumulator goes to the slot it leaves, and it loads the one saved with
the slot it takes. A row that worked on that slot before has saved there what it had, and holds the slot no more: the value
follows the entry from row to row. -/
def State.rowTake (s : State) (r k : Nat) : State :=
  let row := s.tileRow r
  if row.slot = some k then s
  else
    let left := s.tiles.rows.filter (fun e => e.2.slot == some k)
    let slots := left.foldl (fun t e => e.2.save t) (row.save s.tiles.slots)
    let taken : TileSlot := Tab.get {} slots k
    { s with tiles := { s.tiles with
      slots := slots
      rows := Tab.put {} (s.tiles.rows.filter (fun e => e.2.slot != some k)) r
        { slot := some k, acc := taken.saved, secret := taken.savedSecret } } }

/-- The operations of a piece run on its row; where the secret region may not be read (R154, R155) those that would are not made. -/
def State.rowRun (s : State) (r k : Nat) (noSecret : Bool) (ops : List RowOp) : State :=
  let t := s.rowTake r k
  let (u, row) := ops.foldl (fun x op => if noSecret && readsSecret k x.2 op then x else x.1.rowOp k x.2 op) (t, t.tileRow r)
  { u with tiles := { u.tiles with rows := Tab.put {} u.tiles.rows r row } }

/-- The slot of a half of a command. -/
def State.slotFor (s : State) (id half : Nat) (lattice : Bool) : Option Nat :=
  (s.heldSlots id).find? (fun k => (s.tileSlot k).half == half && decide (128 ≤ k) == lattice)

/-! ## The stages of a routine (R154, R155) -/

/-- The routine that a command runs on a tile, or on a lattice unit: TR34_RECOVER decrypts with that of RSA_DECRYPT_LARGE, and KEY_ATTEST
runs those of ECDSA_SIGN_P384 and MLDSA87_SIGN (R161). -/
def routineOf (lattice : Bool) (op : Nat) : Nat :=
  match op with
  | 0x0168 => 0x0303
  | 0x0410 => if lattice then 0x0351 else 0x0312
  | _ => op

/-- The public parameters that fix the stages of a routine (R154): the key's algorithm, with its modulus length, curve or parameter
set, the first bytes of PARAM, with scheme and hash, and the lengths of the inputs. -/
def routineParams (c : Cmd) : List Nat :=
  let d : Desc := c.desc
  [match c.key0 with | some k => k.alg | none => 0, d.pb 104, d.pb 105, d.pb 106, d.bufLen 0, d.bufLen 1, d.bufLen 2]

/-- Eighths of one half of a command in the frames before its present step (R69, R151). -/
def eighthsBefore (lattice : Bool) (c : Cmd) (half : Nat) : Nat :=
  (List.range (c.step - 1)).foldl (fun n i =>
    n + (((tileEntries lattice { c with step := i + 1 }).find? (fun e => e.2.1 == half)).map (·.2.2)).getD 0) 0

/-- The load stage: the KPE copies the key into the secret region of the command's slots of a kind (R150, R154). -/
def State.slotsLoad (s : State) (c : Cmd) (key : Bool → Bytes) : State :=
  (s.heldSlots c.id).foldl (fun t k => t.slotWrite k (slotSecret k) (key (decide (128 ≤ k)))) s

/-- The substitute operands in the public region; the secret region stays as it is (R155). -/
def State.slotsSubst (s : State) (c : Cmd) : State :=
  (s.heldSlots c.id).foldl (fun t k =>
    t.slotWrite k 0 ((Config.romSubst (routineOf (decide (128 ≤ k)) (Desc.opcode c.desc)) (routineParams c)).take (slotSecret k))) s

/-- One eighth of a command on row `r` and slot `k`. With the pad stage the substitute operands come into the public region; in it, and
after a failed check, the secret region is not read (R154, R155). -/
def State.eighthRun (s : State) (c : Cmd) (r k half g : Nat) : State :=
  let lattice := decide (32 ≤ r)
  let op := routineOf lattice (Desc.opcode c.desc)
  let pad := Config.padFrom op (routineParams c)
  let t := if g = pad ∧ !c.subst then s.slotWrite k 0 ((Config.romSubst op (routineParams c)).take (slotSecret k)) else s
  t.rowRun r k (c.subst || decide (pad ≤ g))
    (Config.routine (if lattice then t.luStore.copyA else t.pkStore.copyA) op (routineParams c) half g)

/-- A command's pieces of the frame run in the order of their eighths: an entry split over two rows runs its eighths one after the
other, first those on the later row (R151). -/
def State.piecesRun (s : State) (c : Cmd) : State :=
  ((s.tiles.plan.filter (fun p => p.cmd == c.id)).foldl (fun (a : State × Tab Nat) p =>
    let lattice := decide (32 ≤ p.row)
    let key := 2 * p.half + b2n lattice
    let g0 := Tab.get (eighthsBefore lattice c p.half) a.2 key
    match a.1.slotFor c.id p.half lattice with
    | some k => ((List.range p.eighths).foldl (fun t i => t.eighthRun c p.row k p.half (g0 + i)) a.1, a.2.ins key (g0 + p.eighths))
    | none => a) (s, [])).1

end Sys2Proof.Machine
end

