-- ==== Sys2Proof/Machine/Engine.lean ====
section
/-! DEFINITION. How an engine runs a granted step (R25, R31, R33, R34, R89, R143, R155): the checks every opcode
shares (R92), output, random draws, metering and settlement (R342), the unit error registers, and what a detected
memory error does (R31, R70, R71). -/

namespace Sys2Proof.Machine

/-! ## Results of a step -/

/-- The command with a completion code; the first code decides, and it writes no further output (R56). -/
def Cmd.fail (c : Cmd) (code : Nat) : Cmd := if c.code = ccOk then { c with code := code, outs := [] } else c

/-- `data` written at `off` of output buffer `b`; a buffer too short gives LENGTH_LIMIT (R92). -/
def Cmd.emit (c : Cmd) (b off : Nat) (data : Bytes) : Cmd :=
  if off + data.length > Desc.bufLen c.desc b then c.fail ccLengthLimit
  else { c with outs := c.outs ++ [(b, off, data)] }

/-- What an input buffer held when it was read (R54). -/
def Cmd.input (c : Cmd) (b : Nat) : Bytes := Tab.get [] c.inputs b

/-- The input of step `j` of a bulk command. -/
def Cmd.chunk (c : Cmd) (j : Nat) : Bytes := Tab.get [] c.inputs (8 * j)

/-- The first condition that holds gives the code; OK when none holds. -/
def firstFail : List (Bool × Nat) → Nat
  | [] => ccOk
  | (b, code) :: rest => if b then code else firstFail rest

/-! ## Keys and buffers (R92) -/

/-- What a buffer table says of one buffer. -/
inductive BufRule where
  | absent
  /-- an input of exactly `n` bytes -/
  | inFix (n : Nat)
  /-- an input of `lo` to `hi` bytes -/
  | inRange (lo hi : Nat)
  /-- an output of `n` bytes -/
  | out (n : Nat)
deriving DecidableEq, Repr

/-- The buffer breaks a condition of R92 that gives FORMAT_INVALID. For an input shorter than the least its table states R92
names no code: the model gives this one (assumption 70). -/
def BufRule.badFormat (r : BufRule) (d : Desc) (b : Nat) : Bool :=
  let len := d.bufLen b
  let dirOut := bit (d.bufFlags b) 0
  match r with
  | .absent => len != 0
  | .inFix n => dirOut || len != n
  | .inRange lo _ => dirOut || decide (len < lo)
  | .out _ => len == 0 || !dirOut

/-- The buffer breaks a length rule of R92. -/
def BufRule.badLength (r : BufRule) (d : Desc) (b : Nat) : Bool :=
  match r with
  | .inRange _ hi => decide (d.bufLen b > hi)
  | .out n => decide (d.bufLen b < n)
  | _ => false

/-- R92: `k0` and `k1` say whether the table requires KEY0 and KEY1; one rule for each buffer. -/
def r92 (d : Desc) (k0 k1 : Bool) (rules : List BufRule) : Nat :=
  firstFail [
    ((d.key0 != 0) != k0 || (d.key1 != 0) != k1, ccFormatInvalid),
    (rules.zipIdx.any (fun e => e.1.badFormat d e.2), ccFormatInvalid),
    (rules.zipIdx.any (fun e => e.1.badLength d e.2), ccLengthLimit),
    (d.key0 != 0 && d.key0 == d.key1, ccKeyAttrDenied)]

/-- The ALG of KEY0 as paged; 0 without a key. -/
def Cmd.alg0 (c : Cmd) : Nat := match c.key0 with | some k => k.alg | none => 0
def Cmd.alg1 (c : Cmd) : Nat := match c.key1 with | some k => k.alg | none => 0
/-- The material of KEY0 and KEY1. -/
def Cmd.mat0 (c : Cmd) : Bytes := match c.key0 with | some k => k.material | none => []
def Cmd.mat1 (c : Cmd) : Bytes := match c.key1 with | some k => k.material | none => []
def Cmd.attr0 (c : Cmd) : Nat := match c.key0 with | some k => k.attr | none => 0
def Cmd.attr1 (c : Cmd) : Nat := match c.key1 with | some k => k.attr | none => 0

/-- A key's algorithm does not suit the opcode (R93, R143, R159). -/
def Cmd.algBad (c : Cmd) : Bool :=
  (match c.key0 with | some k => !keyAlg c.desc 0 k.attr k.alg | none => false)
    || (match c.key1 with | some k => !keyAlg c.desc 1 k.attr k.alg | none => false)

/-- A usage count past its LIMIT, or a counter without a leaf (R93, R204, R206). -/
def Cmd.spentKey (c : Cmd) : Bool :=
  c.exhausted || (aLimit c.attr0 != 0 && decide (c.use0 > aLimit c.attr0))
    || (aLimit c.attr1 != 0 && decide (c.use1 > aLimit c.attr1))

/-! ## Random draws (R34, R220, R221) -/

/-- The running step is one that the first attempt ran, or was voided in: what it draws it draws afresh from the recompute
part (R34). -/
def Cmd.drawsAfresh (c : Cmd) : Bool := c.repeating && decide (c.step ≤ c.drew.length)

/-- `n` bytes drawn by the running step: from the command's outstanding bytes, or where a repeat draws afresh from the recompute
part, which its grant set aside. -/
def State.draw (s : State) (c : Cmd) (n : Nat) : Bytes × Cmd × State :=
  let (bs, t) := s.drawReserve n
  (bs, { c with drawn := c.drawn + n, rndLeft := if c.drawsAfresh then c.rndLeft else c.rndLeft - n }, t)

/-! ## Metering and settlement (R33, R342, R346) -/

/-- `nj` nanojoules metered for a command: the command, the device total and the telemetry round. -/
def State.meter (s : State) (c : Cmd) (nj : Nat) : Cmd × State :=
  let t := { s with dose := { s.dose with energy := s.dose.energy + nj, roundEnergy := s.dose.roundEnergy + nj } }
  ({ c with energy := c.energy + nj }, t.set R.DOSE_CNT_ENERGY_COUNT 0 (t.dose.energy / 100))

/-- The most that the execution steps of one attempt of a non-bulk command meter, in nJ: the table of R176, for the other
classes the Dose price. -/
def energyCap (c : Cmd) : Nat :=
  match Desc.cls c.desc with
  | 0x20 => 150000 | 0x21 => 1000000 | 0x22 => 1800 | 0x23 => 25000 | 0x24 => 48000
  | 0x25 | 0x27 | 0x29 => 40000
  | 0x26 | 0x28 => 80000
  | 0x2A => 880000 | 0x30 => 7500 | 0x31 => 58000 | 0x32 => 88000 | 0x33 => 11500
  | _ => 100 * c.cost.dose

/-- The most that a step of a bulk command meters for its blocks, in nJ (R144). -/
def bulkCap (c : Cmd) (cl hl : Nat) : Nat :=
  (cl * (if isTdes (match c.key0 with | some k => k.alg | none => 0) then 256 else 512) + hl * 960) / 1000

/-- The energy a step meters: a free value, at most what R144 and R176 leave the attempt, and what its tokens and the sources of
R342 hold. Of the next placement it leaves one unit, with which that step can start (R26; assumption 69). -/
def State.stepEnergy (s : State) (c : Cmd) (cl hl : Nat) : Nat × State :=
  let next := if c.step < c.s ∧ !c.repeating then share c.cost.dose c.s (c.step + 1) - 1 else 0
  let cap := if isBulk c.desc then bulkCap c cl hl else energyCap c - c.used
  let (v, t) := s.fresh
  (v % (min cap (100 * (c.tokens + s.poolOf resDose + s.reserveLeft resDose + next)) + 1), t)

/-- What step `j` of a command needs in each shared resource. -/
def stepNeeds (c : Cmd) (j : Nat) : List (Nat × Nat) :=
  [(resTu, share c.cost.tu c.s j), (resCl, share c.cost.cl c.s j), (resHl, share c.cost.hl c.s j),
   (resPk, eighths c.cost.pk c.cost.w j), (resLu, eighths c.cost.lu 8 j), (resDose, share c.cost.dose c.s j)]

/-- A routine of a PK or lattice class: it goes on after a failed check and releases no eighths (R154, R155). -/
def isRoutine (d : Desc) : Bool := decide (0x20 ≤ d.cls)

/-- What of its own placement a repeating command still holds in the present frame: a slipped bulk step that of the
next step, a routine its eighths (R154). -/
def State.ownLeft (s : State) (c : Cmd) : List (Nat × Nat) :=
  let i := s.frameNo - (c.f + c.d)
  if i < 1 ∨ c.s < i then []
  else if isBulk c.desc then stepNeeds c i
  else if isRoutine c.desc then (stepNeeds c i).filter (fun e => e.1 == resPk || e.1 == resLu)
  else []

/-- The amount a list of resources gives one of them. -/
def amountOf (l : List (Nat × Nat)) (res : Nat) : Nat := ((l.find? (fun e => e.1 == res)).map (·.2)).getD 0

/-- The amount of its own placement that the present step of a command holds in a resource. -/
def State.heldNow (s : State) (c : Cmd) (res : Nat) : Nat :=
  amountOf (if c.repeating then s.ownLeft c else stepNeeds c c.step) res

/-- Tokens of a step settled against its metered energy (R342): what is left of the command's own placement goes to the unused
pool, an excess is taken from the pool, the reserve, and the command's next placement. -/
def State.settle (s : State) (c : Cmd) (units : Nat) : Cmd × State :=
  if units ≤ c.tokens then
    (c, s.toPool s.frameNo resDose (if c.repeating then min (c.tokens - units) (s.heldNow c resDose) else c.tokens - units))
  else
    let need := units - c.tokens
    let p := min need (s.poolOf resDose)
    let r := min (need - p) (s.reserveLeft resDose)
    let t := { s with trv := { s.trv with
      pool := Tab.upd 0 s.trv.pool (s.frameNo * 16 + resDose) (· - p)
      rspent := Tab.upd 0 s.trv.rspent resDose (· + r) } }
    ({ c with ahead := need - p - r }, t)

/-! ## Unit errors (R121, R147, R148, R179, R180, R314) -/

/-- An event of a unit's error register: `sts` is the bit, `off` the register, `info` the fields of ERR_INFO that
hold the opcode, the cause (if any) and the unit, a free value where none is given. Each event is recorded (R314). -/
def State.unitErr (s : State) (sts : Field) (block infoOff : Nat) (fOp : Field) (fCause : Option Field) (fUnit : Field)
    (unit : Option Nat) (op : Nat) : State :=
  let t := if s.storedAt sts.off = 0 then
      let (u, t0) := match unit with | some u => (u, s) | none => s.fresh
      let t1 := (t0.set fOp 0 op).set fUnit 0 u
      match fCause with | some f => t1.set f 0 sts.lo | none => t1
    else s
  (t.set sts 0 1).record 0x0401 1 devScope block (t.storedAt infoOff)

def State.tuErr (s : State) (sts : Field) (op tu : Nat) : State :=
  s.unitErr sts 0x030000 0x030064 R.TU_ERR_INFO_OPCODE (some R.TU_ERR_INFO_CAUSE) R.TU_ERR_INFO_UNIT (some tu) op
def State.clErr (s : State) (sts : Field) (lane : Option Nat) (op : Nat) : State :=
  s.unitErr sts 0x040000 0x040010 R.CL_ERR_INFO_OPCODE (some R.CL_ERR_INFO_CAUSE) R.CL_ERR_INFO_LANE lane op
def State.hlErr (s : State) (lane : Option Nat) (op : Nat) : State :=
  s.unitErr R.HL_ERR_STS_STAGE_ERR 0x070000 0x07000C R.HL_ERR_INFO_OPCODE none R.HL_ERR_INFO_LANE lane op
def State.pkErr (s : State) (sts : Field) (op tile : Nat) : State :=
  s.unitErr sts 0x050000 0x050058 R.PK_ERR_INFO_OPCODE (some R.PK_ERR_INFO_CAUSE) R.PK_ERR_INFO_TILE (some tile) op
def State.luErr (s : State) (sts : Field) (op unit : Nat) : State :=
  s.unitErr sts 0x060000 0x060058 R.LU_ERR_INFO_OPCODE (some R.LU_ERR_INFO_CAUSE) R.LU_ERR_INFO_UNIT (some unit) op

/-- The kinds of unit that run an opcode. -/
inductive Unit_ where
  | tu | cl | hl | pk | lu | ks
deriving DecidableEq, Repr

/-- The unit of a class: recipes on TUs, bulk on lanes, routines on tiles and lattice units; class 0x08 key store
opcodes on the key store, class 0x2B on a tile. -/
def unitOf (d : Desc) : Unit_ :=
  let c := d.cls
  if c = 0x10 then .cl
  else if c = 0x11 then .hl
  else if c = 0x30 ∨ c = 0x31 ∨ c = 0x32 ∨ c = 0x33 then .lu
  else if 0x20 ≤ c ∧ c ≤ 0x2B then .pk
  else if isPayment d.opcode then .tu
  else .ks

/-! ## Detected memory errors (R31, R70, R71) -/

/-- What voids a step. -/
inductive StepErr where
  | none
  /-- the unit's own detection: a carry record, a staging word, a compare -/
  | unit
  /-- a detected memory error with no status bit of its own -/
  | memory
  /-- a KRC entry failed its check: which key, and the host blob as the re-page reads it (R198) -/
  | krc (which : Nat) (blob : Option Bytes)
  /-- the mask generator of a lane stuck (R126) -/
  | mask (lane : Nat)
  /-- a staging word that a hash lane read failed its check (R148) -/
  | stage
deriving DecidableEq, Repr

/-- The lowest lane of a mask. -/
def laneOf (mask : Nat) : Option Nat := (setBits 32 mask).head?

/-- What a command still holds of its placement: a stopped one nothing, a repeating one what it has not released (R30, R154). -/
def Cmd.costLeft (c : Cmd) : Cost :=
  if c.stop then {}
  else if !c.repeating || isBulk c.desc then c.cost
  else if isRoutine c.desc then { pk := c.cost.pk, lu := c.cost.lu, w := c.cost.w } else {}

/-- A command is left unable to finish: its outcome is decided, and its status word is queued in frame `due`. What it still holds
from that frame on is released, and its slots are cleared (R30, R157, R343). -/
def State.unfinished (s : State) (c : Cmd) (code due : Nat) : State :=
  let c1 := { c with
    code := code, outs := [], stop := true, granted := false, ran := true, due := due, step := max 1 c.step, want := [] }
  ((s.slotsClear c.id).putCmd c1).releaseFrom { c with cost := c.costLeft } due

/-- The outcome of a repeat decided as an integrity fault: RECOMP_FAIL is set (R31, R71, R86). -/
def State.integrity (s : State) (c : Cmd) (code due : Nat) : State :=
  (s.unfinished c code due).trvErr R.TRV_ERR_STS_RECOMP_FAIL

/-- The reservations a command holds in the frames after the present one, given back (R30); a routine that runs
gives back no eighths (R154). -/
def State.releaseRest (s : State) (c : Cmd) : State :=
  if isRoutine c.desc then
    s.releaseFrom { c with cost := { c.cost with pk := 0, lu := 0 } } (s.frameNo + 1)
  else s.releaseFrom c (s.frameNo + 1)

/-! ### Blocks spent (R107, R138, R142, R162 to R167, R209, R212, R213) -/

/-- Blobs a key store opcode writes: two for a linked pair (R189). -/
def blobCount (u m alg : Nat) : Nat := match profile u m alg with | some p => p.length | none => 0

/-- Lane blocks of KWP over `n` bytes (R138). -/
def kwpBlocks (n : Nat) : Nat := let m := ceilDiv n 8; if m ≤ 1 then 1 else 6 * m

/-- Hash-lane blocks of KEY_DIGEST: SHA-384 of a public half, else of "KV-KCV" and the material (R213). -/
def digestBlocks (k : Option KeyRec) : Nat :=
  match k with
  | some k => ceilDiv (k.material.length + (if aPublic k.attr then 0 else 6) + 17) 128
  | none => 0

/-- Cipher-lane and hash-lane blocks that the execution steps of a non-bulk opcode spend; none where the spec gives no
count. -/
def opBlocks (c : Cmd) : Option (Nat × Nat) :=
  let d : Desc := c.desc
  let alg := match c.key0 with | some k => k.alg | none => 0
  let len := d.bufLen 0
  match d.opcode with
  | 0x0130 | 0x0131 | 0x0138 => some (c.cost.cl, 0)
  | 0x0300 | 0x0301 | 0x0302 | 0x0303 | 0x0308 => some (0, rsaBlocks (d.pb 104) (d.pb 105) (d.pb 106) (rsaK alg))
  | 0x0168 => some (0, match Config.tr34Parse (c.input 0) with
      | some (attrs, _, env, _) => hashBlocks 0x02 32 attrs.length + hashBlocks 0x02 32 env.length
      | none => 0)
  | 0x0310 | 0x0311 => some (0, if d.pb 104 = 0 then 0 else hashBlocks 0x02 32 len)
  | 0x0312 | 0x0313 => some (0, if d.pb 104 = 0 then 0 else hashBlocks 0x03 48 len)
  | 0x0318 => some (0, if alg = 0x48 then 1 + ceilDiv (49 + len) 128 + ceilDiv (81 + len) 128
      else 1 + ceilDiv (68 + d.pb 104 + len) 136 + ceilDiv (125 + d.pb 104 + len) 136)
  | 0x0319 => some (0, if alg = 0x48 then ceilDiv (81 + len) 128 else ceilDiv (125 + d.pb 104 + len) 136)
  | 0x0320 => some (0, 2)
  | 0x0350 | 0x0351 | 0x0358 => some (0, if d.pb 105 = 0 then 0 else hashBlocks 0x04 64 len)
  | 0x0340 | 0x0341 | 0x0342 | 0x0359 => some (0, 0)
  | 0x0400 => some (4 * blobCount (ofBE (d.param 106 2)) (d.pb 105) (d.pb 104), 0)
  | 0x0401 => some (8 + 4 * blobCount (ofBE (d.param 106 2)) (d.pb 105) (d.pb 104), 0)
  | 0x0402 => some (4, 0)
  | 0x0403 => some (0, 0)
  | 0x0408 => some (kwpBlocks (8 + match c.key1 with | some k => k.material.length | none => 0), 0)
  | 0x0409 => some (kwpBlocks (len - 8) + 8, 0)
  | 0x0410 => some (0, 2 + digestBlocks c.key0)
  | _ => none

/-- Lane and hash blocks that the present step of a command spends: exact for the bulk opcodes and those of `opBlocks`, spread
over its steps as they are priced (R69, R131, R142); free, within the step's share, for the others. A command that has stopped
spends none (R143). -/
def State.spentBlocks (s : State) (c : Cmd) : Nat × Nat × State :=
  let cl := share c.cost.cl c.s c.step
  let hl := share c.cost.hl c.s c.step
  if isBulk c.desc then (if c.stop then (0, 0, s) else (cl, hl, s))
  else match opBlocks c with
    | some (a, b) => (min cl (share a c.s c.step), min hl (share b c.s c.step), s)
    | none =>
      let (a, t) := s.fresh
      let (b, u) := t.fresh
      (a % (cl + 1), b % (hl + 1), u)

/-- The block counters take what a step or a paging spent (CL_CNT_BLOCKS, HL_CNT_BLOCKS; recomputations included). -/
def State.countBlocks (s : State) (cl hl : Nat) : State :=
  (s.bump R.CL_CNT_BLOCKS_COUNT cl).bump R.HL_CNT_BLOCKS_COUNT hl

/-- Accounting at the end of a step that metered `nj`: energy, blocks counted, unused amounts released (R30, R33,
R342). -/
def State.closeStep (s : State) (c : Cmd) (nj : Nat) : Cmd × State :=
  let (c1, s2) := s.meter c nj
  let (c2, s3) := s2.settle { c1 with ahead := 0, used := c1.used + nj } (ceilDiv nj 100)
  let (a, b, s4) := s3.spentBlocks c2
  let s5 := s4.countBlocks a b
  let unspent (res took : Nat) : Nat := min (s5.heldNow c2 res) (amountOf (stepNeeds c2 c2.step) res - took)
  (c2, (s5.toPool s5.frameNo resCl (unspent resCl a)).toPool s5.frameNo resHl (unspent resHl b))

/-! ### Re-pages (R71, R193, R198) -/

/-- The second-tier copy or the host blob of a key opened again into the KRC (R193, R198). -/
def State.repageOne (s : State) (c : Cmd) (which : Nat) (blob : Option Bytes) : Except Nat (Cmd × State) :=
  let h := if which = 0 then Desc.key0 c.desc else Desc.key1 c.desc
  match s.inTier h with
  | some k =>
    if hEphem h || s.inWindow (hSlice h) k.epoch then
      .ok ((if which = 0 then { c with key0 := some k } else { c with key1 := some k }),
        (s.krcPlace k).bump R.KS_CNT_T2_COUNT)
    else .error ccSlotIntegrity
  | none =>
    match blob with
    | none => .error ccSlotIntegrity
    | some b =>
      match s.openBlob h c.rev false b with
      | .error _ => .error ccSlotIntegrity
      | .ok k => .ok ((if which = 0 then { c with key0 := some k } else { c with key1 := some k }),
          (s.krcPlace k).bump R.KS_CNT_HOST_COUNT)

/-- The epoch leaf of a key's slice read for a page; the answer is false when it is lost (R207). -/
def State.pageLeaf (s : State) (h : Nat) : Bool × State := if hEphem h then (true, s) else s.needLeaf .epoch (hSlice h)

/-- Waiting re-pages done in the present frame with 1 paging unit, 4 lane blocks and 1 Dose unit each, whose energy is metered
for the command (R33, R71, R193); one that finds no room waits. `inl` is a failed re-page. -/
def State.repages (s : State) (c : Cmd) : List (Nat × Option Bytes) → State × Cmd × Bool
  | [] => (s, { c with repage := [] }, false)
  | (w, b) :: rest =>
    match s.takeAll [(resKp, 1), (resCl, 4), (resDose, 1)] with
    | none => (s, { c with repage := (w, b) :: rest }, false)
    | some t =>
      let (v, t1) := (t.countBlocks 4 0).fresh
      let (c0, t2) := t1.meter c (v % 101)
      let (live, t3) := t2.pageLeaf (if w = 0 then Desc.key0 c.desc else Desc.key1 c.desc)
      match (if live then t3.repageOne c0 w b else .error ccSlotIntegrity) with
      | .error _ => (t3, { c0 with repage := [] }, true)
      | .ok (c1, u) => u.repages c1 rest

/-! ### Carry records (R88, R132) -/

/-- A command that leaves a carry record between its steps: classes 0x05 to 0x07, and SYM_GCM. -/
def carries (d : Desc) : Bool := (decide (5 ≤ d.cls) && decide (d.cls ≤ 7)) || d.opcode == 0x0203

/-- AAD of a carry record: slice, generation, in-flight entry and FRAME_NO, whose widths the spec leaves open (assumption 71). -/
def carryAad (c : Cmd) (frame : Nat) : Bytes := toLE 2 c.slice ++ toLE 1 c.gen ++ toLE 4 c.id ++ toLE 8 frame

/-- The key of a command's carry records. -/
def State.carryKey (s : State) (c : Cmd) : Bytes := if Desc.opcode c.desc = 0x0203 then s.ks.laneCarry else s.ks.tuCarry

/-- The carry record of a step that is not the last: `plain` sealed with AES-256-GCM (R88). The spec gives no IV. -/
def State.sealCarry (s : State) (c : Cmd) (plain : Bytes) : Cmd :=
  let (ct, tag) := gcmEnc 0x12 (s.carryKey c) (Config.carryIv c.id s.frameNo) (carryAad c s.frameNo) plain
  { c with record := ct ++ tag, recordAt := s.frameNo }

/-- A carry record opened: the sealed state, or `none` when its tag fails. -/
def State.openCarry (s : State) (c : Cmd) : Option Bytes :=
  let n := c.record.length - 16
  let (pt, tag) := gcmDec 0x12 (s.carryKey c) (Config.carryIv c.id c.recordAt) (carryAad c c.recordAt) (c.record.take n)
  if tag = c.record.drop n then some pt else none

/-! ### The void step -/

/-- What an opcode does in its steps: the checks of its first execution step (R93, R143, R159), the random bytes its
first step draws ahead into `carry` (R164, R165, R175), its work in the last step, or in every step, whether it has a compare
stage (R154), and whether the two computations of R156 or R171 agree when the work is done. -/
structure OpSpec where
  check : State → Cmd → Nat
  work : State → Cmd → Cmd × State
  pre : Cmd → Nat := fun _ => 0
  every : Bool := false
  compares : Bool := false
  agrees : State → Cmd → Bool := fun _ _ => true

/-- The step does the opcode's work: every step of a bulk command and of PK_KEYGEN, else the last one. -/
def OpSpec.worksIn (o : OpSpec) (c : Cmd) : Bool := isBulk c.desc || o.every || c.step == c.s

/-- The draw of a first step, `n` bytes taken ahead whether or not a check failed (R155, R164, R165, R175). -/
def State.drawAhead (s : State) (n : Nat) (c : Cmd) : Cmd × State :=
  if c.step = 1 ∧ n ≠ 0 then ({ (s.draw c n).2.1 with carry := (s.draw c n).1 }, (s.draw c n).2.2) else (c, s)


/-- The mask generator of a lane stuck (R126): MASK_STUCK with its record, and a forced reseed at the next boundary. -/
def State.maskStuckOn (s : State) (l op : Nat) : State :=
  let t := s.clErr R.CL_ERR_STS_MASK_STUCK (some l) op
  { t with rng := { t.rng with forced := if t.rng.forced.contains l then t.rng.forced else t.rng.forced ++ [l] } }

/-- The unit's registers when a step is void. A pair that fails the consistency test of R168 shows as a failed compare: the spec names no
bit for it (assumption 83). -/
def State.voidErr (s : State) (o : OpSpec) (c : Cmd) (e : StepErr) : State :=
  let op := Desc.opcode c.desc
  match e, unitOf c.desc with
  | .unit, .cl => if c.step ≥ 2 ∧ op = 0x0203 then s.clErr R.CL_ERR_STS_CARRY_AUTH (laneOf c.lanes) op else s
  | .stage, _ | .unit, .hl => s.hlErr (laneOf c.hashes) op
  | .unit, .pk =>
    if o.compares then (s.bump R.PK_CNT_COMPARE_COUNT).pkErr R.PK_ERR_STS_COMPARE op (s.tileOf c.id false)
    else s.pkErr R.PK_ERR_STS_SLOT_ERR op (s.tileOf c.id false)
  | .unit, .lu =>
    if o.compares then (s.bump R.LU_CNT_COMPARE_COUNT).luErr R.LU_ERR_STS_COMPARE op (s.tileOf c.id true)
    else s.luErr R.LU_ERR_STS_SLOT_ERR op (s.tileOf c.id true)
  | .unit, _ => if c.step ≥ 2 ∧ carries c.desc then s.tuErr R.TU_ERR_STS_CARRY_AUTH op c.tu else s
  | .memory, .pk => s.pkErr R.PK_ERR_STS_SLOT_ERR op (s.tileOf c.id false)
  | .memory, .lu => s.luErr R.LU_ERR_STS_SLOT_ERR op (s.tileOf c.id true)
  | .mask l, _ => s.maskStuckOn l op
  | .krc w _, _ =>
    let h := if w = 0 then Desc.key0 c.desc else Desc.key1 c.desc
    let t := { s with ks := { s.ks with krc := s.ks.krc.filter (fun k => k.handle != h) } }
    t.ksFault R.KS_ERR_STS_SLOT_ERR c.slice 0
  | _, _ => s

/-- A command that repeats after its step was void: the bulk step again in the next frame, the steps of another command from
the first (R70). -/
def Cmd.again (c : Cmd) (frame : Nat) : Cmd :=
  let bulk := isBulk c.desc
  { c with
    repeats := 1, repeating := true, drawn := if bulk then c.drawn else 0, tokens := 0, ahead := 0, used := 0, starved := false
    base := if bulk then c.base + 1 else frame
    step := if bulk then c.step else 1
    due := if bulk then c.due + 1 else frame + c.s + 1
    code := ccOk, subst := false
    outs := if bulk then c.outs else [], carry := if bulk then c.carry else []
    record := if bulk then c.record else []
    stepsDone := if bulk then c.stepsDone else 0
    stop := false }

/-! ## Running a step -/

/-- The store a unit runs from lost a word of this opcode in both copies: it completes with INTEGRITY_FAULT
(R90, R153). -/
def State.lostOp (s : State) (d : Desc) : Bool :=
  match unitOf d with
  | .tu => s.tuStore.lost.contains d.opcode
  | .pk => s.pkStore.lost.contains (routineOf false d.opcode) || (d.cls == 0x2B && s.luStore.lost.contains (routineOf true d.opcode))
  | .lu => s.luStore.lost.contains (routineOf true d.opcode)
  | _ => false

/-- A key with a nonzero LIMIT, whose attributes the key phase learnt, on a member that is not the home (R362). -/
def State.homeDenies (s : State) (c : Cmd) : Bool :=
  s.notHome c.slice && ((match c.key0 with | some k => aLimit k.attr != 0 | none => false)
    || (match c.key1 with | some k => aLimit k.attr != 0 | none => false))

/-- The code of the checks of a granted step: those of its first step, in order (R90, R92, R93, R143, R153, R362). -/
def State.stepCode (s : State) (o : OpSpec) (c : Cmd) : Nat :=
  if c.step = 1 ∧ c.code = ccOk then
    (if s.lostOp c.desc then ccIntegrityFault else if s.homeDenies c then ccPolicyDenied else o.check s c)
  else ccOk

/-- The carry record that a later step opens fails its tag (R88, R132). -/
def State.carryBad (s : State) (c : Cmd) : Bool :=
  carries c.desc && decide (2 ≤ c.step) && (s.openCarry c).isNone

/-- The random bytes that the present step of a command draws when it runs to its end: none in a step whose carry record fails its
tag, and after a failed check only those that a routine draws ahead (R34, R155). Of a voided step the spec does not say how many of them it
had drawn when the error came: the model takes all (assumption 83). -/
def State.stepDraws (s : State) (o : OpSpec) (c : Cmd) : Nat :=
  if s.carryBad c then 0
  else
    let code := s.stepCode o c
    let a := s.drawAhead (o.pre c) (if code = ccOk then c else c.fail code)
    let w := if a.1.code = ccOk ∧ o.worksIn c then (o.work a.2 a.1).1 else a.1
    w.drawn - c.drawn

/-- The energy of a step that is void: under a brown-out warning no more than its placed tokens (R343). -/
def State.voidEnergy (s : State) (c : Cmd) : Nat × State :=
  let (nj, t) := s.stepEnergy c (share c.cost.cl c.s c.step) (share c.cost.hl c.s c.step)
  (if s.on R.DOSE_STS_BROWNOUT then min nj (100 * c.tokens) else nj, t)

/-- A step voided by a detected memory error: the first one starts the repeat of R31, a second one ends the command
with INTEGRITY_FAULT. What the step drew counts as drawn, and what it did not spend is released (R30, R34); the slots the
command held are cleared (R157), and the repeat keeps off a lane whose mask generator stuck (R126). -/
def State.voidStep (s : State) (o : OpSpec) (c : Cmd) (e : StepErr) : State :=
  let s1 := s.voidErr o c e
  let n := s1.stepDraws o c
  let (nj, s2) := s1.voidEnergy c
  let (c1, s3) := s2.closeStep c nj
  let s4 := ((s3.drawReserve n).2).slotsClear c.id
  let c2 := { c1 with
    rndLeft := if c1.drawsAfresh then c1.rndLeft else c1.rndLeft - n, ran := true, granted := false
    drew := if c1.repeating then c1.drew else c1.drew ++ [n]
    avoid := match e with | .mask l => some l | _ => c1.avoid }
  if c2.repeats ≥ 1 then s4.integrity c2 ccIntegrityFault (s4.frameNo + 1)
  else
    let c3 := c2.again s4.frameNo
    let s5 := if isBulk c.desc then s4 else s4.releaseRest c2
    match e with
    | .krc w b =>
      let (s6, c4, bad) := s5.repages c3 [(w, b)]
      if bad then s6.integrity c4 ccSlotIntegrity (s6.frameNo + 1) else s6.putCmd c4
    | _ => s5.putCmd c3

/-- A routine's failed check makes it go on with substitute operands (R155). -/
def Cmd.turns (c : Cmd) : Bool := c.code != ccOk && isRoutine c.desc && !c.subst && c.step == 1

/-- An invocation value beyond the end of its counter (R133, R134). -/
def Cmd.invOver (c : Cmd) : Bool :=
  let d : Desc := c.desc
  (d.opcode == 0x0202 || d.opcode == 0x0203) && d.pb 104 == 0 && decide (c.inv > 0xFFFFFFFF)

/-- The command counts in PK_CNT_SUBST: it goes on with substitute operands after a check of R159, and no attempt of it has counted
(R155). A lost routine and the home member's refusal are no check of R159. The register is the tiles': a lattice command on substitute
operands, to which R171 applies R155, is not counted (assumption 83). -/
def State.substCounts (s : State) (c : Cmd) : Bool :=
  c.turns && !c.counted && unitOf c.desc == .pk && !(s.lostOp c.desc || s.homeDenies c)

/-- The counters of failed checks: invocations exhausted (R133, R134), substitutions (R155). -/
def State.countCheck (s : State) (c : Cmd) (code : Nat) : State :=
  let t := if code = ccCounterExhausted ∧ c.invOver then s.bump R.CL_CNT_EXHAUST_COUNT else s
  if s.substCounts c then t.bump R.PK_CNT_SUBST_COUNT else t

/-- The end of a step of `c` that its work left as `x`: a bulk command that failed spends nothing more, and its later
steps do not run (R143). Its random bytes stay outstanding until its status word is queued (R65). -/
def State.endStep (s : State) (c x : Cmd) (code nj : Nat) : State :=
  let halt := isBulk c.desc && x.code != ccOk
  let p := s.closeStep { x with stop := halt && x.step == 1 && code != ccOk } nj
  let stop := halt || x.stop
  let y := { p.1 with
    ran := true, granted := false, step := c.step + 1, stop := stop,
    drew := if c.repeating then c.drew else c.drew ++ [x.drawn - c.drawn]
    stepsDone := if isBulk c.desc then p.1.stepsDone else p.1.stepsDone + 1 }
  if stop then (p.2.putCmd y).releaseFrom y (s.frameNo + 1) else p.2.putCmd y

/-- What a recipe seals at the end of a step: the secret state it still needs, which is the image's (R88). SYM_GCM seals its own
state in its work (R132). -/
def State.carryOut (s : State) (c x : Cmd) : Cmd :=
  if carries c.desc ∧ Desc.opcode c.desc ≠ 0x0203 ∧ c.step < c.s then
    s.sealCarry x (Config.recipeState (Desc.opcode c.desc) c.step c.mat0 c.mat1 (c.inputs.map (·.2)))
  else x

/-- The granted step of a command, which meters `nj`, runs to its end: checks in the first step, work in the last,
substitute operands after a failed check of a routine (R155). -/
def State.goodStep (s : State) (o : OpSpec) (c : Cmd) (nj : Nat) : State :=
  let code := s.stepCode o c
  let a := s.drawAhead (o.pre c) (if code = ccOk then c else c.fail code)
  let t := a.2.countCheck a.1 code
  let x := { a.1 with subst := c.subst || a.1.turns, counted := c.counted || a.2.substCounts a.1 }
  let w := if x.code = ccOk ∧ o.worksIn c then o.work t x else (x, t)
  w.2.endStep c (w.2.carryOut c w.1) code nj

/-- The two computations of a secret result differ in the step that forms it (R156, R171). -/
def State.disagrees (s : State) (o : OpSpec) (c : Cmd) : Bool :=
  let a := s.drawAhead (o.pre c) c
  s.stepCode o c == ccOk && c.code == ccOk && o.worksIn c && !o.agrees a.2 a.1

/-- What voids a step that its row reports as `e`: also lanes too few for its blocks (R221), a carry record or a compare that
fails. -/
def State.voidedBy (s : State) (o : OpSpec) (c : Cmd) (e : StepErr) : StepErr :=
  if e ≠ .none then e
  else if c.starved then .memory
  else if s.carryBad c ∨ s.disagrees o c then .unit
  else .none

/-- A command whose step stopped for want of tokens is left unable to finish and completes with INTEGRITY_FAULT; in a repeat that is an
outcome of R71 (R86, R343). -/
def State.tokensOut (s : State) (c : Cmd) : State :=
  if c.repeating then s.integrity c ccIntegrityFault (s.frameNo + 1) else s.unfinished c ccIntegrityFault (s.frameNo + 1)

/-- A granted step runs. Without tokens it does not start, and under brown-out one that would exceed its tokens stops (R26,
R343). -/
def State.stepRun (s : State) (o : OpSpec) (c : Cmd) (e : StepErr) : State :=
  if c.tokens = 0 then s.tokensOut c
  else if s.voidedBy o c e ≠ .none then s.voidStep o c (s.voidedBy o c e)
  else
    let halt := isBulk c.desc && s.stepCode o c != ccOk
    let (nj, t) := s.stepEnergy c (if halt then 0 else share c.cost.cl c.s c.step) (if halt then 0 else share c.cost.hl c.s c.step)
    if s.on R.DOSE_STS_BROWNOUT ∧ ceilDiv nj 100 > c.tokens then
      let (c1, u) := t.meter c (100 * c.tokens)
      u.tokensOut c1
    else t.goodStep o c nj

/-- The key that the load stage puts into a slot of a kind: KEY0's material, for KEY_ATTEST the identity key of the slot's
unit (R154, R161, R213). -/
def State.loadKey (s : State) (c : Cmd) (lattice : Bool) : Bytes :=
  if Desc.cls c.desc = 0x2B then (if lattice then s.ks.idPq else s.ks.idEc) else if aPublic c.attr0 then [] else c.mat0

/-- The slots of a routine after its step: the key loaded, or the substitute operands, in its first step; the pieces of the
frame run on their rows; all cleared at the end of the command (R150, R154 to R157). -/
def State.tilesAfter (s : State) (c : Cmd) : State :=
  if !isRoutine c.desc then s
  else match s.cmd? c.id with
    | none => s.slotsClear c.id
    | some x =>
      if x.step ≠ c.step + 1 ∨ c.s < x.step ∨ x.stop then s.slotsClear c.id
      else
        let t := if c.step ≠ 1 then s else if x.subst then s.slotsSubst c else s.slotsLoad c (s.loadKey c)
        t.piecesRun { c with subst := x.subst }

/-- The present step of command `id` runs with this opcode's meaning: nothing happens when the command holds no
grant for an execution step that has yet to run. -/
def State.runStep (s : State) (op : Nat) (o : OpSpec) (id : Nat) (e : StepErr) : State :=
  match s.cmd? id with
  | none => s
  | some c =>
    if c.st ≠ .active ∨ !c.granted ∨ c.ran ∨ Desc.opcode c.desc ≠ op ∨ c.step = 0 then s
    else (s.stepRun o c e).tilesAfter c

/-- The error a row of the table reports. -/
def errOf (err : Bool) : StepErr := if err then .unit else .none

end Sys2Proof.Machine
end

