-- ==== Sys2Proof/Machine/Payment.lean ====
section
/-! DEFINITION. The payment command set (R87 to R119): PIN blocks, PIN and card verification, MACs, sealing, DUKPT,
EMV cryptograms, key blocks and TR-34, one meaning for each opcode. -/

namespace Sys2Proof.Machine

/-! ## PAN fields and PIN blocks (R96 to R99) -/

/-- A PAN field: `n` decimal digits from `lo` to `hi`, then 0xF nibbles (R96). -/
def panOk (f : Bytes) (n lo hi : Nat) : Bool :=
  decide (lo ≤ n ∧ n ≤ hi) && ((nibbles f).take n).all (fun x => decide (x ≤ 9))
    && ((nibbles f).drop n).all (fun x => x == 15)

/-- The digits of a PAN field. -/
def panDigits (f : Bytes) (n : Nat) : List Nat := (nibbles f).take n

/-- The last `n` of a list. -/
def takeLast {α : Type} (n : Nat) (l : List α) : List α := l.drop (l.length - n)

/-- Formats 0, 1, 3 and 4 (R97). -/
def fmtOk (f : Nat) : Bool := f == 0 || f == 1 || f == 3 || f == 4
/-- The format has a PAN field. -/
def fmtPan (f : Nat) : Bool := f == 0 || f == 3 || f == 4
/-- Block size of a format. -/
def fmtSize (f : Nat) : Nat := if f = 4 then 16 else 8
/-- The key algorithm suits the format (R97). -/
def fmtAlg (f alg : Nat) : Bool := if f = 4 then isAes alg else isTdes alg

/-- The PAN field of a format (R97). -/
def panField (f : Nat) (pan : List Nat) : Bytes :=
  if f = 4 then ofNibbles (((pan.length - 12) :: pan) ++ List.replicate (31 - pan.length) 0)
  else
    let d := takeLast 12 (pan.take (pan.length - 1))
    ofNibbles (List.replicate (16 - d.length) 0 ++ d)

/-- The clear PIN field of an enciphered block, as nibbles (R97). -/
def clearField (f alg : Nat) (key blk : Bytes) (pan : List Nat) : List Nat :=
  if f = 4 then nibbles (blockDec alg key (xorBytes (blockDec alg key blk) (panField 4 pan)))
  else if fmtPan f then nibbles (xorBytes (blockDec alg key blk) (panField f pan))
  else nibbles (blockDec alg key blk)

/-- The PIN of a clear field under the policy's bounds, or a decoding failure (R98). -/
def decodePin (f : Nat) (ns : List Nat) (policy : Nat) : Option (List Nat) :=
  let n := ns.getD 1 0
  let pin := (ns.drop 2).take n
  let rest := (ns.take 16).drop (2 + n)
  let fillOk := if f = 0 then rest.all (· == 0xF) else if f = 3 then rest.all (fun x => decide (0xA ≤ x))
    else if f = 4 then rest.all (· == 0xA) else true
  if ns.getD 0 0xFF = f ∧ 4 ≤ n ∧ n ≤ 12 ∧ bits policy 11 8 ≤ n ∧ n ≤ bits policy 15 12
      ∧ pin.all (fun x => decide (x ≤ 9)) ∧ fillOk then some pin else none

/-- The fill nibbles of formats 1 and 3 from the 8 drawn bytes (R99). -/
def fillNibbles (f : Nat) (rnd : Bytes) (n : Nat) : List Nat :=
  if f = 0 then List.replicate n 0xF
  else if f = 1 then (nibbles rnd).take n
  else (List.range n).map (fun i => 0xA + (ofLE rnd / 6 ^ i) % 6)

/-- A PIN formed and enciphered in a format (R97, R99). -/
def formPin (f alg : Nat) (key : Bytes) (pin pan : List Nat) (rnd : Bytes) : Bytes :=
  let n := pin.length
  if f = 4 then
    let field := ofNibbles ([4, n] ++ pin ++ List.replicate (14 - n) 0xA) ++ rnd
    blockEnc alg key (xorBytes (blockEnc alg key field) (panField 4 pan))
  else
    let field := ofNibbles ([f, n] ++ pin ++ fillNibbles f rnd (14 - n))
    blockEnc alg key (if fmtPan f then xorBytes field (panField f pan) else field)

/-- The buffers of a block in a format. A format the spec does not list states no size, and its encoding check follows R92's
(R93). -/
def fmtIn (f : Nat) : BufRule := if fmtOk f then .inFix (fmtSize f) else .inRange 0 (2 ^ 32)
def fmtOut (f : Nat) : BufRule := .out (if fmtOk f then fmtSize f else 1)

/-- The PIN in BUF[0] under KEY0. -/
def Cmd.readPin (c : Cmd) (f : Nat) (pan : List Nat) : Option (List Nat) :=
  decodePin f (clearField f c.alg0 c.mat0 (c.input 0) pan) c.policy

/-- A PIN_MISMATCH of classes 0x02, 0x03 and 0x06 (R104). -/
def State.mismatch (s : State) (c : Cmd) : Cmd × State :=
  (c.fail ccPinMismatch, s.bump R.TU_SLICE_MISMATCH_COUNT 1 c.slice)

/-- The PIN re-formed and written to BUF[1] under a key, with one 8-byte draw unless the format is 0 (R99). -/
def State.writePin (s : State) (c : Cmd) (f alg : Nat) (key : Bytes) (pin pan : List Nat) : Cmd × State :=
  if f = 0 then (c.emit 1 0 (formPin 0 alg key pin pan []), s)
  else
    let (rnd, c1, t) := s.draw c 8
    (c1.emit 1 0 (formPin f alg key pin pan rnd), t)

/-- A PAN field that may be absent when no format uses a PAN: PAN_LEN 0 with zero bytes (R100). -/
def panArg (d : Desc) (off n : Nat) (needed : Bool) : Bool :=
  if n = 0 && !needed then d.pz off 10 else panOk (d.param off 10) n 12 19

/-! ### PIN_TRANSLATE (R100, R101) -/

def checkPinTranslate (_ : State) (c : Cmd) : Nat :=
  let d : Desc := c.desc
  let fi := d.pb 104
  let fo := d.pb 105
  let bufs := [fmtIn fi, fmtOut fo, .absent, .absent]
  firstFail [
    (r92 d true true bufs != ccOk, r92 d true true bufs),
    (!fmtOk fi || !fmtOk fo, ccFormatInvalid),
    (!panArg d 108 (d.pb 106) (fmtPan fi || fmtPan fo), ccFormatInvalid),
    (if d.pb 107 = 0 then !d.pz 118 10 else !panOk (d.param 118 10) (d.pb 107) 12 19, ccFormatInvalid),
    (c.algBad || !fmtAlg fi c.alg0 || !fmtAlg fo c.alg1, ccKeyAttrDenied),
    (c.spentKey, ccCounterExhausted)]

def workPinTranslate (s : State) (c : Cmd) : Cmd × State :=
  let d : Desc := c.desc
  let pan := panDigits (d.param 108 10) (d.pb 106)
  let pan2 := if d.pb 107 = 0 then pan else panDigits (d.param 118 10) (d.pb 107)
  match c.readPin (d.pb 104) pan with
  | none => (c.fail ccFormatInvalid, s)
  | some pin => s.writePin c (d.pb 105) c.alg1 c.mat1 pin pan2

def opPinTranslate : OpSpec := { check := checkPinTranslate, work := workPinTranslate }

/-! ### The offset method (R102, R104) -/

def checkOffset (gen : Bool) (c : Cmd) : Nat :=
  let d : Desc := c.desc
  let fi := d.pb 104
  let bufs := [fmtIn fi, .inFix 16, if gen then .out 6 else .absent, .absent]
  firstFail [
    (r92 d true true bufs != ccOk, r92 d true true bufs),
    (!fmtOk fi || !d.pz 107 1 || !d.pz 126 2 || !panOk (d.param 108 10) (d.pb 106) 12 19, ccFormatInvalid),
    (!(nibbles (d.param 118 8)).all (fun x => decide (x ≤ 9))
      || (nibbles (d.param 118 8)).take 10 != List.range 10, ccFormatInvalid),
    (c.algBad || !fmtAlg fi c.alg0, ccKeyAttrDenied),
    (c.spentKey, ccCounterExhausted),
    (decide (d.pb 105 < 4 ∨ 12 < d.pb 105), ccInputRange)]

/-- The natural PIN: VDATA enciphered under KEY1, decimalized, its leftmost digits (R102). -/
def naturalPin (alg : Nat) (key vdata dectab : Bytes) (n : Nat) : List Nat :=
  ((nibbles (blockEnc alg key vdata)).map (fun h => (nibbles dectab).getD h 0)).take n

def workOffset (gen : Bool) (s : State) (c : Cmd) : Cmd × State :=
  let d : Desc := c.desc
  let n := d.pb 105
  let rec_ := c.input 1
  let offs := nibbles (cut rec_ 8 6)
  let offOk := zeroAt rec_ 14 2 && (if gen then offs.all (· == 0xF)
    else (offs.take n).all (fun x => decide (x ≤ 9)) && (offs.drop n).all (· == 0xF))
  match if offOk then c.readPin (d.pb 104) (panDigits (d.param 108 10) (d.pb 106)) else none with
  | none => (c.fail ccFormatInvalid, s)
  | some pin =>
    let nat := naturalPin c.alg1 c.mat1 (rec_.take 8) (d.param 118 8) n
    if pin.length < n then s.mismatch c
    else if gen then
      let ds := (List.range n).map (fun i => (pin.getD i 0 + 10 - nat.getD i 0) % 10)
      (c.emit 2 0 (ofNibbles (ds ++ List.replicate (12 - n) 0xF)), s)
    else if (List.range n).all (fun i => (nat.getD i 0 + offs.getD i 0) % 10 == pin.getD i 0) then (c, s)
    else s.mismatch c

def opPinVerifyOffset : OpSpec := { check := fun _ c => checkOffset false c, work := workOffset false }
def opPinOffsetGenerate : OpSpec := { check := fun _ c => checkOffset true c, work := workOffset true }

/-! ### PIN verification values (R103, R104) -/

/-- Decimal digits of an enciphered block: the nibbles 0 to 9 left to right, then those above 9 less 10 (R103). -/
def scanDigits (blk : Bytes) (n : Nat) : List Nat :=
  let ns := nibbles blk
  (ns.filter (fun x => decide (x ≤ 9)) ++ (ns.filter (fun x => decide (9 < x))).map (fun x => x - 10)).take n

def checkPvv (gen : Bool) (c : Cmd) : Nat :=
  let d : Desc := c.desc
  let fi := d.pb 104
  let bufs := [fmtIn fi, if gen then .out 2 else .absent, .absent, .absent]
  firstFail [
    (r92 d true true bufs != ccOk, r92 d true true bufs),
    (!fmtOk fi || !d.pz 107 1 || !d.pz 120 8 || !panOk (d.param 108 10) (d.pb 106) 12 19, ccFormatInvalid),
    (if gen then !d.pz 118 2 else !(nibbles (d.param 118 2)).all (fun x => decide (x ≤ 9)), ccFormatInvalid),
    (c.algBad || !fmtAlg fi c.alg0, ccKeyAttrDenied),
    (c.spentKey, ccCounterExhausted),
    (decide (9 < d.pb 105), ccInputRange)]

def workPvv (gen : Bool) (s : State) (c : Cmd) : Cmd × State :=
  let d : Desc := c.desc
  let pan := panDigits (d.param 108 10) (d.pb 106)
  match c.readPin (d.pb 104) pan with
  | none => (c.fail ccFormatInvalid, s)
  | some pin =>
    let tsp := takeLast 11 (pan.take (pan.length - 1)) ++ [d.pb 105] ++ pin.take 4
    let digits := scanDigits (blockEnc c.alg1 c.mat1 (ofNibbles tsp)) 4
    if gen then (c.emit 1 0 (ofNibbles digits), s)
    else if digits = nibbles (d.param 118 2) then (c, s)
    else s.mismatch c

def opPinVerifyPvv : OpSpec := { check := fun _ c => checkPvv false c, work := workPvv false }
def opPvvGenerate : OpSpec := { check := fun _ c => checkPvv true c, work := workPvv true }

/-! ### Card verification values (R105) -/

/-- The three digits of one entry under a double-length key: PAN, EXPIRY and SVC padded to 32 digits. -/
def cvv (key : Bytes) (pan : List Nat) (entry : Bytes) : List Nat :=
  let ds := pan ++ nibbles (cut entry 0 2) ++ (nibbles (cut entry 2 2)).take 3
  let blk := ofNibbles (ds ++ List.replicate (32 - ds.length) 0)
  let b1 := fitTo 8 (Config.desEnc (key.take 8) (blk.take 8))
  scanDigits (blockEnc 0x01 key (xorBytes b1 (blk.drop 8))) 3

/-- An entry's encoding: EXPIRY and SVC digits, VALUE, the reserved bytes. -/
def cvvEntryOk (gen : Bool) (e : Bytes) : Bool :=
  let d3 (b : Bytes) : Bool := ((nibbles b).take 3).all (fun x => decide (x ≤ 9)) && (nibbles b).getD 3 0 == 0xF
  (nibbles (cut e 0 2)).all (fun x => decide (x ≤ 9)) && d3 (cut e 2 2)
    && (if gen then zeroAt e 4 2 else d3 (cut e 4 2)) && zeroAt e 6 2

/-- CVV_GENERATE and CVV_VERIFY. The spec does not say whether a COUNT outside 1 to 3 is an encoding (FORMAT_INVALID) or a range
(INPUT_RANGE): the model gives FORMAT_INVALID (assumption 70). -/
def checkCvv (gen : Bool) (c : Cmd) : Nat :=
  let d : Desc := c.desc
  let n := d.pb 104
  let bufs := [.inFix (8 * n), .out (if gen then 2 * n else 1), .absent, .absent]
  firstFail [
    (r92 d true false bufs != ccOk, r92 d true false bufs),
    (decide (n < 1 ∨ 3 < n), ccFormatInvalid),
    (!d.pz 106 2 || !d.pz 118 10 || !panOk (d.param 108 10) (d.pb 105) 12 19, ccFormatInvalid),
    (c.algBad || c.alg0 != 0x01, ccKeyAttrDenied),
    (c.spentKey, ccCounterExhausted)]

def workCvv (gen : Bool) (s : State) (c : Cmd) : Cmd × State :=
  let d : Desc := c.desc
  let pan := panDigits (d.param 108 10) (d.pb 105)
  let es := (blocks 3 8 (c.input 0)).take (d.pb 104)
  if !es.all (cvvEntryOk gen) then (c.fail ccFormatInvalid, s)
  else
    let vs := es.map (cvv c.mat0 pan)
    if gen then (c.emit 1 0 (vs.flatMap (fun v => ofNibbles (v ++ [0xF]))), s)
    else
      let oks := (es.zip vs).map (fun e => decide ((nibbles (cut e.1 4 2)).take 3 = e.2))
      let mask := oks.zipIdx.foldl (fun m e => if e.1 then m + 2 ^ e.2 else m) 0
      let c1 := c.emit 1 0 (toLE 1 mask)
      if oks.all id then (c1, s)
      else ({ c1 with code := ccPinMismatch }, s.bump R.TU_SLICE_MISMATCH_COUNT 1 c.slice)

def opCvvGenerate : OpSpec := { check := fun _ c => checkCvv true c, work := workCvv true }
def opCvvVerify : OpSpec := { check := fun _ c => checkCvv false c, work := workCvv false }

/-! ### MACs (R106) -/

/-- The MAC PARAM is well encoded for a TDES or AES key (R106). -/
def macParamOk (d : Desc) (verify tdes : Bool) : Bool :=
  let alg := d.pb 104
  let n := d.pb 106
  (if alg = 0x05 then d.pb 105 == 0 else (alg == 0x01 || alg == 0x03) && (d.pb 105 == 1 || d.pb 105 == 2))
    && decide (4 ≤ n ∧ n ≤ (if tdes ∨ alg ≠ 0x05 then 8 else 16)) && d.pz 107 1 && d.pz 124 4
    && (if verify then d.pz (108 + n) (16 - n) else d.pz 108 16)

/-- The key agrees with the MAC algorithm (R106); the bulk opcodes take SM4 for CMAC as well (R124, R130; assumption 78). -/
def macKeyOk (d : Desc) (attr alg : Nat) : Bool :=
  match d.pb 104 with
  | 0x01 => aUsage attr == uM1 && isTdes alg
  | 0x03 => aUsage attr == uM3 && alg == 0x01
  | _ => aUsage attr == uM6 && (isTdes alg || isAes alg || (alg == 0x18 && d.cls == 0x10))

/-- The full MAC over a message (R106). -/
def macOf (d : Desc) (alg : Nat) (key msg : Bytes) : Bytes :=
  match d.pb 104 with
  | 0x01 => macAlg1 alg key (d.pb 105) msg
  | 0x03 => macAlg3 key (d.pb 105) msg
  | _ => cmacOf alg key msg

def checkMac (verify : Bool) (c : Cmd) : Nat :=
  let d : Desc := c.desc
  let bufs := [.inRange 0 4096, if verify then .absent else .out (d.pb 106), .absent, .absent]
  firstFail [
    (r92 d true false bufs != ccOk, r92 d true false bufs),
    (!macParamOk d verify (isTdes c.alg0), ccFormatInvalid),
    (c.algBad || !macKeyOk d c.attr0 c.alg0, ccKeyAttrDenied),
    (c.spentKey, ccCounterExhausted)]

def workMac (verify : Bool) (s : State) (c : Cmd) : Cmd × State :=
  let d : Desc := c.desc
  let n := d.pb 106
  let m := (macOf d c.alg0 c.mat0 (c.input 0)).take n
  if verify then (if m = d.param 108 n then (c, s) else (c.fail ccSigInvalid, s))
  else (c.emit 1 0 m, s)

def opMacGenerate : OpSpec := { check := fun _ c => checkMac false c, work := workMac false }
def opMacVerify : OpSpec := { check := fun _ c => checkMac true c, work := workMac true }

/-! ### Sealing (R108, R109) -/

def checkWagerSeal (_ : State) (c : Cmd) : Nat :=
  let d : Desc := c.desc
  let bufs := [.inRange 0 4080, .out 32, .absent, .absent]
  firstFail [
    (r92 d true false bufs != ccOk, r92 d true false bufs),
    (!d.pz 104 24, ccFormatInvalid),
    (c.algBad || c.alg0 != 0x12 || aLimit c.attr0 == 0, ccKeyAttrDenied),
    (c.spentKey, ccCounterExhausted)]

def workWagerSeal (s : State) (c : Cmd) : Cmd × State :=
  let tail := toLE 8 s.frameNo ++ toLE 8 c.use0
  let tag := cmacOf 0x12 c.mat0 (c.input 0 ++ tail)
  ({ c.emit 1 0 (tag ++ tail) with auditP3 := ofLE (tag.take 8) }, s)

def opWagerSeal : OpSpec := { check := checkWagerSeal, work := workWagerSeal }

def checkDrawSeed (_ : State) (c : Cmd) : Nat :=
  let d : Desc := c.desc
  let bufs := [.absent, .out 64, .absent, .absent]
  firstFail [
    (r92 d true false bufs != ccOk, r92 d true false bufs),
    (!d.pz 112 16, ccFormatInvalid),
    (c.algBad || c.alg0 != 0x12 || aLimit c.attr0 == 0, ccKeyAttrDenied),
    (c.spentKey, ccCounterExhausted)]

def workDrawSeed (s : State) (c : Cmd) : Cmd × State :=
  let (seed, c1, t) := s.draw c 32
  let tail := toLE 8 s.frameNo ++ toLE 8 c.use0
  let tag := cmacOf 0x12 c.mat0 (Desc.param c.desc 104 8 ++ seed ++ tail)
  ({ c1.emit 1 0 (seed ++ tail ++ tag) with auditP3 := ofLE (tag.take 8) }, t)

def opDrawSeed : OpSpec := { check := checkDrawSeed, work := workDrawSeed }

/-! ### DUKPT (R111, R112) -/

def checkDukptTdes (_ : State) (c : Cmd) : Nat :=
  let d : Desc := c.desc
  let fi := d.pb 104
  let fo := d.pb 105
  let bufs := [.inFix 8, fmtOut fo, .absent, .absent]
  let ctr := ofBE (d.param 125 3) % 2 ^ 21
  firstFail [
    (r92 d true true bufs != ccOk, r92 d true true bufs),
    (!fmtOk fi || fi == 4 || !fmtOk fo || !d.pz 107 1
      || !panArg d 108 (d.pb 106) (fmtPan fi || fmtPan fo), ccFormatInvalid),
    (c.algBad || c.alg0 != 0x01 || !fmtAlg fo c.alg1, ccKeyAttrDenied),
    (c.spentKey, ccCounterExhausted),
    (ctr == 0 || decide (popCount 21 ctr > 10), ccInputRange)]

def workDukptTdes (s : State) (c : Cmd) : Cmd × State :=
  let d : Desc := c.desc
  let fi := d.pb 104
  let pan := panDigits (d.param 108 10) (d.pb 106)
  let pek := fitTo 16 (Config.dukptTdes c.mat0 (d.param 118 10))
  match decodePin fi (clearField fi 0x01 pek (c.input 0) pan) c.policy with
  | none => (c.fail ccFormatInvalid, s)
  | some pin => s.writePin c (d.pb 105) c.alg1 c.mat1 pin pan

def opDukptTdes : OpSpec := { check := checkDukptTdes, work := workDukptTdes }

def checkDukptAes (_ : State) (c : Cmd) : Nat :=
  let d : Desc := c.desc
  let fo := d.pb 104
  let bufs := [.inFix 16, fmtOut fo, .absent, .absent]
  let ctr := ofBE (d.param 124 4)
  firstFail [
    (r92 d true true bufs != ccOk, r92 d true true bufs),
    (!fmtOk fo || !panOk (d.param 106 10) (d.pb 105) 12 19, ccFormatInvalid),
    (c.algBad || !(c.alg0 == 0x10 || c.alg0 == 0x12) || !fmtAlg fo c.alg1, ccKeyAttrDenied),
    (c.spentKey, ccCounterExhausted),
    (ctr == 0 || decide (popCount 32 ctr > 16), ccInputRange)]

def workDukptAes (s : State) (c : Cmd) : Cmd × State :=
  let d : Desc := c.desc
  let pan := panDigits (d.param 106 10) (d.pb 105)
  let wk := fitTo c.mat0.length (Config.dukptAes c.mat0 (d.param 116 12))
  match decodePin 4 (clearField 4 c.alg0 wk (c.input 0) pan) c.policy with
  | none => (c.fail ccFormatInvalid, s)
  | some pin => s.writePin c (d.pb 104) c.alg1 c.mat1 pin pan

def opDukptAes : OpSpec := { check := checkDukptAes, work := workDukptAes }

/-! ### EMV cryptograms (R113, R114) -/

def checkArqc (_ : State) (c : Cmd) : Nat :=
  let d : Desc := c.desc
  let m := d.pb 104
  let tdes := isTdes c.alg0
  let psn := d.pb 106
  let bufs := [.inRange 1 48, if m = 1 then .out 8 else if m = 2 then .out 4 else .absent,
    if m = 2 then .inRange 4 12 else .absent, .absent]
  firstFail [
    (r92 d true false bufs != ccOk, r92 d true false bufs),
    (decide (2 < m) || !panOk (d.param 108 8) (d.pb 105) 12 16
      || !(psn == 0xFF || (decide (psn / 16 ≤ 9) && decide (psn % 16 ≤ 9))), ccFormatInvalid),
    (if tdes then !(d.pb 107 == 1 || d.pb 107 == 2) else d.pb 107 != 0, ccFormatInvalid),
    (m == 1 && !tdes, ccFormatInvalid),
    (c.algBad || !(c.alg0 == 0x01 || c.alg0 == 0x10 || c.alg0 == 0x12), ccKeyAttrDenied),
    (c.spentKey, ccCounterExhausted)]

def workArqc (s : State) (c : Cmd) : Cmd × State :=
  let d : Desc := c.desc
  let psn := if d.pb 106 = 0xFF then [0, 0] else nibbles (d.param 106 1)
  let ds := takeLast 16 (panDigits (d.param 108 8) (d.pb 105) ++ psn)
  let digits := ofNibbles (List.replicate (16 - ds.length) 0 ++ ds)
  let len := c.mat0.length
  let mk := fitTo len (Config.emvIccKey c.alg0 c.mat0 digits)
  let sk := fitTo len (Config.emvSessionKey c.alg0 mk (d.param 116 2))
  let tdes := isTdes c.alg0
  let mac (pad : Nat) (m : Bytes) : Bytes := if tdes then macAlg3 sk pad m else cmacOf c.alg0 sk m
  let arqc := d.param 118 8
  if (mac (d.pb 107) (c.input 0)).take 8 ≠ arqc then s.mismatch c
  else if d.pb 104 = 1 then (c.emit 1 0 (blockEnc 0x01 sk (xorBytes arqc (d.param 126 2 ++ fill 6 0))), s)
  else if d.pb 104 = 2 then (c.emit 1 0 ((mac 2 (arqc ++ c.input 2)).take 4), s)
  else (c, s)

def opArqc : OpSpec := { check := checkArqc, work := workArqc }

/-! ### Key creation by a command -/

/-- New keys of a command written to buffer `b`: the buffer must hold the blobs, and the depth limits of R201 hold;
a persistent key is made at the home member only (R362).
The second component is the first new handle. -/
def State.makeKeys (s : State) (c : Cmd) (eph : Bool) (depth b : Nat) (ks : List NewKey) : Cmd × Nat × State :=
  let need := ks.foldl (fun n k => n + blobLen k.material.length) 0
  if need > Desc.bufLen c.desc b then (c.fail ccLengthLimit, 0, s)
  else if depth > (if eph then 4 else 2) then (c.fail ccKeyAttrDenied, 0, s)
  else if !eph && s.notHome c.slice then (c.fail ccPolicyDenied, 0, s)
  else match s.createKeys c.slice eph depth ks with
    | .fail code t => (c.fail code, 0, t)
    | .done t h bs => (c.emit b 0 bs, h, t)

/-- The depth of the key named by KEY0 (R201). -/
def State.depth0 (s : State) (c : Cmd) : Nat :=
  match c.key0 with
  | some k => s.depthOf c.slice k.pidx k.pgen
  | none => 0

/-! ### Key blocks (R115 to R117) -/

/-- A well-formed key-block header (X9.143; assumption 2). -/
structure KbHeader where
  version : Nat
  usage : Nat
  algo : Nat
  mode : Nat
  exportable : Nat
  /-- the data of the KC block, if present: two characters of method and the check value as hexadecimal text -/
  kc : Option Bytes
  /-- the data of the KS block, if present: the key set identifier as hexadecimal text -/
  ks : Option Bytes
  /-- characters of the header with its optional blocks -/
  len : Nat
deriving DecidableEq, Repr

/-- The value of a decimal, or of a hexadecimal, ASCII character. -/
def decChar (b : Byte) : Option Nat := let v := b.toNat; if 48 ≤ v ∧ v ≤ 57 then some (v - 48) else none
def hexChar (b : Byte) : Option Nat :=
  let v := b.toNat
  if 48 ≤ v ∧ v ≤ 57 then some (v - 48) else if 65 ≤ v ∧ v ≤ 70 then some (v - 55) else none

/-- A string of digits in base `base`. -/
def readNum (f : Byte → Option Nat) (base : Nat) (bs : Bytes) : Option Nat :=
  bs.foldl (fun acc b => match acc, f b with | some n, some d => some (n * base + d) | _, _ => none) (some 0)

/-- The bytes of a hexadecimal string. -/
def unhex (bs : Bytes) : Option Bytes :=
  if bs.all (fun b => (hexChar b).isSome) ∧ bs.length % 2 = 0 then
    some (ofNibbles (bs.map (fun b => (hexChar b).getD 0)))
  else none

/-- The hexadecimal text of bytes. -/
def hexText (bs : Bytes) : Bytes := (nibbles bs).map (fun n => BitVec.ofNat 8 (if n < 10 then 48 + n else 55 + n))

/-- Three or four decimal digits of a number, as text. -/
def decText (n v : Nat) : Bytes := ((List.range n).map (fun i => BitVec.ofNat 8 (48 + v / 10 ^ i % 10))).reverse

/-- A text of hexadecimal digits in pairs. -/
def isHex (t : Bytes) : Bool := t.length % 2 == 0 && t.all (fun b => (hexChar b).isSome)

/-- Where the optional blocks end, with the data of a KC and a KS block. -/
structure OptBlocks where
  len : Nat
  kc : Option Bytes := none
  ks : Option Bytes := none
deriving DecidableEq, Repr

/-- The optional blocks from character `p`, `n` of them (R115). KS, KC and PB are read as X9.143 lays them out: a KS block holds
hexadecimal text, a KC block a method of 00 or 01 and hexadecimal text, and a PB block is the last, of printable characters;
any other block is passed over (assumption 15). -/
def optBlocks (b : Bytes) : Nat → OptBlocks → Option OptBlocks
  | 0, o => some o
  | n + 1, o =>
    match readNum hexChar 16 (cut b (o.len + 2) 2) with
    | none => none
    | some l =>
      let id := cut b o.len 2
      let data := cut b (o.len + 4) (l - 4)
      let next := { o with len := o.len + l }
      if l < 4 ∨ o.len + l > b.length then none
      else if id = ascii "KC" then
        if (data.take 2 = ascii "00" ∨ data.take 2 = ascii "01") ∧ isHex data ∧ 4 ≤ data.length ∧ o.kc = none then
          optBlocks b n { next with kc := some data }
        else none
      else if id = ascii "KS" then
        if isHex data ∧ data ≠ [] ∧ o.ks = none then optBlocks b n { next with ks := some data } else none
      else if id = ascii "PB" then
        if n = 0 ∧ data.all (fun c => decide (0x20 ≤ c.toNat ∧ c.toNat ≤ 0x7E)) then some next else none
      else optBlocks b n next

/-- The header of a key block in `b`, whose length field must equal `len`. -/
def parseKb (b : Bytes) (len : Nat) : Option KbHeader :=
  let v := fieldLE b 0 1
  match readNum decChar 10 (cut b 1 4), readNum decChar 10 (cut b 12 2) with
  | some l, some n =>
    if l = len ∧ b.length ≥ 16 ∧ (v = 0x42 ∨ v = 0x44) ∧ (fieldLE b 7 1 = 0x54 ∨ fieldLE b 7 1 = 0x41)
        ∧ cut b 14 2 = ascii "00" then
      match optBlocks b n { len := 16 } with
      | some o =>
        if o.len % (if v = 0x42 then 8 else 16) = 0 then
          some { version := v, usage := ofBE (cut b 5 2), algo := fieldLE b 7 1, mode := fieldLE b 8 1,
                 exportable := fieldLE b 11 1, kc := o.kc, ks := o.ks, len := o.len }
        else none
      | none => none
    else none
  | _, _ => none

/-- Exportability byte: E, N or S (R115). -/
def exportOk (e : Nat) : Bool := e == 0x45 || e == 0x4E || e == 0x53

/-- Some key of the algorithm letter fits the usage and mode (R115, R189). -/
def usageListed (u m algo : Nat) : Bool :=
  (if algo = 0x54 then [0x01, 0x02] else [0x10, 0x11, 0x12]).any (fun a => (profile u m a).isSome)

/-- The ALG of a key of this letter and length. -/
def algOfKey (algo len : Nat) : Option Nat :=
  if algo = 0x54 then (if len = 16 then some 0x01 else if len = 24 then some 0x02 else none)
  else if len = 16 then some 0x10 else if len = 24 then some 0x11 else if len = 32 then some 0x12 else none

/-- The check value of a key: leftmost 3 bytes of TDES-ECB, or AES CMAC, over a zero block (R211). -/
def checkValue (alg : Nat) (key : Bytes) : Bytes :=
  if isTdes alg then (blockEnc alg key (fill 8 0)).take 3 else (cmacOf alg key (fill 16 0)).take 3

/-- The value in a KC block agrees with the key: by method 00 the enciphered zero block, by method 01 its CMAC
(assumption 15). -/
def kcAgrees (kc : Bytes) (alg : Nat) (key : Bytes) : Bool :=
  let zero := fill (blockLen alg) 0
  let full := if kc.take 2 = ascii "00" then blockEnc alg key zero else cmacOf alg key zero
  match unhex (kc.drop 2) with
  | some v => v == full.take v.length
  | none => false

/-- The blobs an import writes: 96 bytes for each half (R115, R189). -/
def importLen (u m algo : Nat) : Nat :=
  let fits := (if algo = 0x54 then [0x01, 0x02] else [0x10, 0x11, 0x12]).map (blobCount u m)
  96 * max 1 (fits.foldl max 0)

def checkKeyblockImport (_ : State) (c : Cmd) : Nat :=
  let d : Desc := c.desc
  let h := parseKb (c.input 0) (d.bufLen 0)
  let bufs := [.inRange 16 392, .out (match h with | some k => importLen k.usage k.mode k.algo | none => 96), .absent, .absent]
  let verOk := match h with
    | some k => (if k.version = 0x42 then isTdes c.alg0 else isAes c.alg0)
    | none => false
  let formOk := match h with
    | some k => usageListed k.usage k.mode k.algo && exportOk k.exportable
        && (d.pb 104 == 0 || k.version == 0x44)
    | none => false
  firstFail [
    (r92 d true false bufs != ccOk, r92 d true false bufs),
    (decide (1 < d.pb 104) || !d.pz 105 23, ccFormatInvalid),
    (!formOk, ccFormatInvalid),
    (c.algBad || !verOk, ccKeyAttrDenied),
    (c.spentKey, ccCounterExhausted)]

/-- A clear imported key written as blobs under KEY0's own parentage or under KEY0 (R115, R119). -/
def State.importKey (s : State) (c : Cmd) (u m : Nat) (exp : Bool) (alg limit : Nat) (key : Bytes) (pidx pgen : Nat)
    (eph : Bool) (depth : Nat) (genIn : Bool) : Cmd × Nat × State :=
  match profile u m alg with
  | none => (c.fail ccFormatInvalid, 0, s)
  | some prof => s.makeKeys c eph depth 1 (halves prof u limit eph genIn exp pidx pgen alg key key)

/-- The ALG of the cipher of a key-block version with a key of this length: TDES for B, AES for D (R115). -/
def kbAlg (version len : Nat) : Nat :=
  if version = 0x42 then (if len = 24 then 0x02 else 0x01) else if len = 16 then 0x10 else if len = 24 then 0x11 else 0x12

/-- The MAC of a key block over the header and the clear key data: CMAC under the derived MAC key (R115, R116; X9.143). -/
def kbMac (version : Nat) (kbpk head clear : Bytes) : Bytes :=
  cmacOf (kbAlg version kbpk.length) (Config.keyBlockKeys version kbpk).2 (head ++ clear)

/-- The key data of a key block under the derived encryption key in CBC mode; the MAC is the IV (R116). -/
def kbCrypt (dec : Bool) (version : Nat) (kbpk iv data : Bytes) : Bytes :=
  let alg := kbAlg version kbpk.length
  let key := (Config.keyBlockKeys version kbpk).1
  let bs := blocks data.length (blockLen alg) data
  if dec then cbcDec alg key iv bs else cbcEnc alg key iv bs

/-- The key of a key block decrypted under its MAC as IV, then checked (R115). A KC value that disagrees with the key, and key data that
is no hexadecimal text, give the SIG_INVALID of the other failures of this stage: R115 names no code for them (assumption 83). -/
def workKeyblockImport (s : State) (c : Cmd) : Cmd × State :=
  match parseKb (c.input 0) (Desc.bufLen c.desc 0) with
  | none => (c.fail ccFormatInvalid, s)
  | some h =>
    let b := c.input 0
    let macLen := if h.version = 0x42 then 8 else 16
    match unhex (b.drop h.len) with
    | none => (c.fail ccSigInvalid, s)
    | some raw =>
      let enc := raw.take (raw.length - macLen)
      let mac := raw.drop (raw.length - macLen)
      let clear := kbCrypt true h.version c.mat0 mac enc
      let computed := kbMac h.version c.mat0 (b.take h.len) clear
      let bitsLen := ofBE (clear.take 2)
      let key := cut clear 2 (bitsLen / 8)
      let alg := algOfKey h.algo (bitsLen / 8)
      let kcOk := match h.kc, alg with | some kc, some a => kcAgrees kc a key | _, _ => true
      if raw.length ≤ macLen ∨ enc.length % macLen ≠ 0 ∨ computed ≠ mac ∨ bitsLen % 8 ≠ 0 ∨ 2 + bitsLen / 8 > enc.length
          ∨ key.length ≠ bitsLen / 8 ∨ alg = none ∨ !kcOk then (c.fail ccSigInvalid, s)
      else
        let eph := hEphem (Desc.key0 c.desc)
        let (c1, h0, t) := s.importKey c h.usage h.mode (h.exportable == 0x45) (alg.getD 0) 0 key
          (hIndex (Desc.key0 c.desc)) (hGen (Desc.key0 c.desc)) eph (s.depth0 c + 1) false
        ({ c1 with auditP3 := h0 }, t)

def opKeyblockImport : OpSpec := { check := checkKeyblockImport, work := workKeyblockImport }

/-- The header KEYBLOCK_EXPORT forms: KC block on request, PB padding to the block size (R116; assumption 2). -/
def exportHeader (d : Desc) (attr alg : Nat) (key : Bytes) (dataLen : Nat) : Bytes :=
  let v := d.pb 105
  let bs := if v = 0x42 then 8 else 16
  let kc := if bit (d.pb 109) 0 then
      ascii "KC" ++ hexText (toLE 1 12) ++ (if isTdes alg then ascii "00" else ascii "01") ++ hexText (checkValue alg key)
    else []
  let part := 16 + kc.length
  let pad := if part % bs = 0 then 0 else
    let p := bs - part % bs
    if p < 4 then p + bs else p
  let pb := if pad = 0 then [] else ascii "PB" ++ hexText (toLE 1 pad) ++ fill (pad - 4) 0x30
  let n := (if kc = [] then 0 else 1) + (if pad = 0 then 0 else 1)
  let total := part + pad + 2 * dataLen + 2 * (if v = 0x42 then 8 else 16)
  toLE 1 v ++ decText 4 total ++ toBE 2 (aUsage attr) ++ toLE 1 (if isTdes alg then 0x54 else 0x41)
    ++ toLE 1 (aMode attr) ++ d.param 107 2 ++ toLE 1 (d.pb 106) ++ decText 2 n ++ ascii "00" ++ kc ++ pb

/-- The padded key data of an export (R116). -/
def exportData (alg : Nat) : Nat := if isTdes alg then 32 else 48

/-- The characters that follow the header: the key data and the MAC in hexadecimal. -/
def exportTail (d : Desc) (alg : Nat) : Nat := 2 * exportData alg + 2 * (if d.pb 105 = 0x42 then 8 else 16)

/-- The length of the key block that KEYBLOCK_EXPORT writes. -/
def exportLen (c : Cmd) : Nat :=
  (exportHeader c.desc c.attr1 c.alg1 c.mat1 (exportData c.alg1)).length + exportTail c.desc c.alg1

def checkKeyblockExport (_ : State) (c : Cmd) : Nat :=
  let d : Desc := c.desc
  let v := d.pb 105
  let bufs := [.absent, .out (exportLen c), .absent, .absent]
  firstFail [
    (r92 d true true bufs != ccOk, r92 d true true bufs),
    (decide (1 < d.pb 104) || !(v == 0x42 || v == 0x44) || (d.pb 104 == 1 && v != 0x44)
      || !(d.pb 106 == 0x4E || d.pb 106 == 0x45) || bits (d.pb 109) 7 1 != 0 || !d.pz 110 18
      || !(d.param 107 2).all (fun b => decide (b.toNat < 0x80)), ccFormatInvalid),
    (c.algBad || (v == 0x42) != isTdes c.alg0 || !aExport c.attr1 || (c.alg1 == 0x12 && c.alg0 != 0x12) || (isAes c.alg1 && isTdes c.alg0), ccKeyAttrDenied),
    (c.spentKey, ccCounterExhausted)]

def workKeyblockExport (s : State) (c : Cmd) : Cmd × State :=
  let d : Desc := c.desc
  let dataLen := exportData c.alg1
  let (rnd, c1, t) := s.draw c (dataLen - 2 - c.mat1.length)
  let clear := toBE 2 (8 * c.mat1.length) ++ c.mat1 ++ rnd
  let head := exportHeader d c.attr1 c.alg1 c.mat1 dataLen
  let mac := kbMac (d.pb 105) c.mat0 head clear
  (c1.emit 1 0 (head ++ hexText (kbCrypt false (d.pb 105) c.mat0 mac clear ++ mac)), t)

def opKeyblockExport : OpSpec := { check := checkKeyblockExport, work := workKeyblockExport }

/-! ### RSA private operations (R156, R164) -/

/-- Bytes an RSA private operation draws (R164). -/
def rsaDraw (c : Cmd) : Nat := if Desc.cls c.desc = 0x20 then 64 else 96

/-- The modulus of RSA key material (R190): p q of a private key, n of a public one. -/
def rsaModulus (alg : Nat) (mat : Bytes) : Nat :=
  let k := rsaK alg
  if mat.length = k / 2 * 5 then ofBE (mat.take (k / 2)) * ofBE (cut mat (k / 2) (k / 2)) else ofBE (mat.take k)

/-- A power modulo `m`; `n` bounds the bits of the exponent. -/
def powMod : Nat → Nat → Nat → Nat → Nat
  | 0, _, _, m => 1 % m
  | n + 1, b, e, m =>
    if e = 0 then 1 % m
    else
      let h := powMod n (b * b % m) (e / 2) m
      if e % 2 = 1 then h * b % m else h

/-- The blinding values r_p and r_q of a draw: 16 bytes each in class 0x20, 32 in class 0x21; computation B takes the bitwise
complement of the value (R164). How a byte string spells the value is the model's choice: little-endian (assumption 68). -/
def rsaBlind (c : Cmd) (b : Bool) (i : Nat) : Nat :=
  let n := if Desc.cls c.desc = 0x20 then 16 else 32
  let r := fieldLE c.carry (n * i) n
  if b then 2 ^ (8 * n) - 1 - r else r

/-- An RSA private operation on a representative (R156, R164): the two CRT exponentiations with blinded exponents
d_p + r_p (p − 1) and d_q + r_q (q − 1), and the recombination. `b` is computation B. The five numbers of the key material are
big-endian, as R160 has RSA integers (assumption 68). -/
def rsaPriv (c : Cmd) (b : Bool) (rep : Nat) : Nat :=
  let h := rsaK c.alg0 / 2
  let part (i : Nat) : Nat := ofBE (cut c.mat0 (h * i) h)
  let (p, q, dp, dq, qi) := (part 0, part 1, part 2, part 3, part 4)
  let x := powMod 4608 (rep % p) (dp + rsaBlind c b 0 * (p - 1)) p
  let y := powMod 4608 (rep % q) (dq + rsaBlind c b 1 * (q - 1)) q
  y + q * (qi * (x + p - y % p) % p)

/-! ### TR-34 (R118, R119) -/

/-- The ALG that a signed header gives for the key to be imported; the length is not in it, so double-length TDES
stands for T and AES-128 for A until the import (R118). -/
def talgOf (algo : Nat) : Nat := if algo = 0x54 then 0x01 else 0x10

/-- The parts of a key token that TR34_RECOVER uses once its checks pass: the header, the encrypted key and the content IV;
else the code (R118). -/
def tr34Parts (c : Cmd) : Except Nat (KbHeader × Bytes × Bytes) :=
  match Config.tr34Parse (c.input 0) with
  | none => .error ccSigInvalid
  | some (attrs, sig, env, md, hdr, ek, iv) =>
    if attrs.length > 183 ∨ env.length > 823
        ∨ !Config.rsaVerify c.mat1 0x01 0x02 0 (hashOf 0x02 32 attrs) sig ∨ md ≠ hashOf 0x02 32 env then .error ccSigInvalid
    else match parseKb hdr hdr.length with
      | none => .error ccSigInvalid
      | some h => if ofBE ek = 0 ∨ ofBE ek ≥ rsaModulus c.alg0 c.mat0 then .error ccInputRange else .ok (h, ek, iv)

/-- The checks of TR34_RECOVER; the representative of the encrypted key is checked with them (R158), once the token itself is good
(R118). -/
def checkTr34Recover (_ : State) (c : Cmd) : Nat :=
  let d : Desc := c.desc
  let bufs := [.inRange 1 2048, .out 96, .absent, .absent]
  firstFail [
    (r92 d true true bufs != ccOk, r92 d true true bufs),
    (!d.pz 104 24, ccFormatInvalid),
    (c.algBad || !isRsa c.alg0 || !isRsa c.alg1, ccKeyAttrDenied),
    (c.spentKey, ccCounterExhausted),
    (match tr34Parts c with | .error code => code == ccInputRange | .ok _ => false, ccInputRange)]

def workTr34Recover (s : State) (c : Cmd) : Cmd × State :=
  match tr34Parts c with
  | .error code => (c.fail code, s)
  | .ok (h, ek, iv) =>
    match Config.rsaV15Decode (rsaK c.alg0) (rsaPriv c false (ofBE ek)) with
    | none => (c.fail ccSigInvalid, s)
    | some key =>
      let m := key ++ iv
      if m.length ≠ 24 ∧ m.length ≠ 32 then (c.fail ccSigInvalid, s)
      else
        let attr := mkAttr 1 (talgOf h.algo) h.mode h.usage true true false false false (h.exportable == 0x45) roleWrap
        let (c1, _, t) := s.makeKeys c true (s.depth0 c + 1) 1
          [{ attr := attr, pidx := hIndex (Desc.key0 c.desc), pgen := hGen (Desc.key0 c.desc), alg := 0x61, material := m }]
        (c1, t)

/-- Computations A and B of the decryption agree (R156); a token that fails before it decrypts nothing. -/
def tr34Agrees (_ : State) (c : Cmd) : Bool :=
  match tr34Parts c with
  | .error _ => true
  | .ok (_, ek, _) => rsaPriv c false (ofBE ek) == rsaPriv c true (ofBE ek)

def opTr34Recover : OpSpec :=
  { check := checkTr34Recover, work := workTr34Recover, pre := rsaDraw, compares := true, agrees := tr34Agrees }

def checkTr34Import (_ : State) (c : Cmd) : Nat :=
  let d : Desc := c.desc
  let algo := if isTdes (aTalg c.attr0) then 0x54 else 0x41
  let bufs := [.inRange 16 256, .out (importLen (aUsage c.attr0) (aMode c.attr0) algo), .absent, .absent]
  firstFail [
    (r92 d true false bufs != ccOk, r92 d true false bufs),
    (!d.pz 104 24, ccFormatInvalid),
    (c.algBad || !aTr34 c.attr0 || c.alg0 != 0x61, ccKeyAttrDenied),
    (c.spentKey, ccCounterExhausted)]

/-- The content of a token decrypted in CBC mode: KEY0's material is the 16-byte content key followed by the IV, of 8 bytes with TDES and
of 16 with AES (R118, R119, R190; assumption 83). -/
def tr34Clear (mat data : Bytes) : Bytes :=
  let alg := if mat.length = 24 then 0x01 else 0x10
  cbcDec alg (mat.take 16) (mat.drop 16) (blocks data.length (blockLen alg) data)

/-- TR34_IMPORT (R119). Content that is no whole number of blocks is malformed. -/
def workTr34Import (s : State) (c : Cmd) : Cmd × State :=
  match c.key0, (if (c.input 0).length % (c.mat0.length - 16) = 0 then Config.tr34Content (tr34Clear c.mat0 (c.input 0)) else none) with
  | some k, some (hdr, key) =>
    match parseKb hdr hdr.length with
    | none => (c.fail ccSigInvalid, s)
    | some h =>
      let alg := algOfKey h.algo key.length
      let kcOk := match h.kc, alg with | some kc, some a => kcAgrees kc a key | _, _ => false
      if !kcOk ∨ h.usage ≠ aUsage k.attr ∨ h.mode ≠ aMode k.attr ∨ talgOf h.algo ≠ aTalg k.attr
          ∨ (h.exportable == 0x45) ≠ aExport k.attr then (c.fail ccSigInvalid, s)
      else
        let (c1, h0, t) := s.importKey c h.usage h.mode (aExport k.attr) (alg.getD 0) 0 key k.pidx k.pgen
          (decide (0x800000 ≤ k.pidx)) (s.depth0 c) false
        ({ c1 with auditP3 := h0 }, t)
  | _, _ => (c.fail ccSigInvalid, s)

def opTr34Import : OpSpec := { check := checkTr34Import, work := workTr34Import }

/-! ## The commands of the table -/

def execPinTranslate (cmd : Nat) (err : Bool) (s : State) : Host.Outcome State Fault Refusal :=
  ok (s.runStep 0x0100 opPinTranslate cmd (errOf err))
def execPinVerifyOffset (cmd : Nat) (err : Bool) (s : State) : Host.Outcome State Fault Refusal :=
  ok (s.runStep 0x0110 opPinVerifyOffset cmd (errOf err))
def execPinVerifyPvv (cmd : Nat) (err : Bool) (s : State) : Host.Outcome State Fault Refusal :=
  ok (s.runStep 0x0111 opPinVerifyPvv cmd (errOf err))
def execPinOffsetGenerate (cmd : Nat) (err : Bool) (s : State) : Host.Outcome State Fault Refusal :=
  ok (s.runStep 0x0112 opPinOffsetGenerate cmd (errOf err))
def execPvvGenerate (cmd : Nat) (err : Bool) (s : State) : Host.Outcome State Fault Refusal :=
  ok (s.runStep 0x0113 opPvvGenerate cmd (errOf err))
def execCvvGenerate (cmd : Nat) (err : Bool) (s : State) : Host.Outcome State Fault Refusal :=
  ok (s.runStep 0x0120 opCvvGenerate cmd (errOf err))
def execCvvVerify (cmd : Nat) (err : Bool) (s : State) : Host.Outcome State Fault Refusal :=
  ok (s.runStep 0x0121 opCvvVerify cmd (errOf err))
def execMacGenerate (cmd : Nat) (err : Bool) (s : State) : Host.Outcome State Fault Refusal :=
  ok (s.runStep 0x0130 opMacGenerate cmd (errOf err))
def execMacVerify (cmd : Nat) (err : Bool) (s : State) : Host.Outcome State Fault Refusal :=
  ok (s.runStep 0x0131 opMacVerify cmd (errOf err))
def execWagerSeal (cmd : Nat) (err : Bool) (s : State) : Host.Outcome State Fault Refusal :=
  ok (s.runStep 0x0138 opWagerSeal cmd (errOf err))
def execDrawSeed (cmd : Nat) (err : Bool) (s : State) : Host.Outcome State Fault Refusal :=
  ok (s.runStep 0x0170 opDrawSeed cmd (errOf err))
def execDukptTdesPinTranslate (cmd : Nat) (err : Bool) (s : State) : Host.Outcome State Fault Refusal :=
  ok (s.runStep 0x0140 opDukptTdes cmd (errOf err))
def execDukptAesPinTranslate (cmd : Nat) (err : Bool) (s : State) : Host.Outcome State Fault Refusal :=
  ok (s.runStep 0x0141 opDukptAes cmd (errOf err))
def execArqcVerify (cmd : Nat) (err : Bool) (s : State) : Host.Outcome State Fault Refusal :=
  ok (s.runStep 0x0150 opArqc cmd (errOf err))
def execKeyblockImport (cmd : Nat) (err : Bool) (s : State) : Host.Outcome State Fault Refusal :=
  ok (s.runStep 0x0160 opKeyblockImport cmd (errOf err))
def execKeyblockExport (cmd : Nat) (err : Bool) (s : State) : Host.Outcome State Fault Refusal :=
  ok (s.runStep 0x0161 opKeyblockExport cmd (errOf err))
def execTr34Recover (cmd : Nat) (err : Bool) (s : State) : Host.Outcome State Fault Refusal :=
  ok (s.runStep 0x0168 opTr34Recover cmd (errOf err))
def execTr34Import (cmd : Nat) (err : Bool) (s : State) : Host.Outcome State Fault Refusal :=
  ok (s.runStep 0x0162 opTr34Import cmd (errOf err))

end Sys2Proof.Machine
end

