-- ==== Sys2Proof/Machine/Cipher.lean ====
section
/-! DEFINITION. The bulk cipher commands of class 0x10 (R127 to R137): checks in the order of R143, and the work of
each step. -/

namespace Sys2Proof.Machine

/-- Input bytes of step `j` (from 1): the whole input for one step, else the share of R132. -/
def chunkLen (d : Desc) (j : Nat) : Nat :=
  if spanOf d ≤ 1 then d.bufLen 0
  else match (if d.cls = 0x10 then cipherPlan d 0x10 else hashPlan d) with
    | some p => p.takes.getD (j - 1) 0
    | none => if j = 1 then min (d.bufLen 0) 262144 else 0

/-- Where the input of step `j` begins. -/
def chunkAt (d : Desc) (j : Nat) : Nat := ((List.range (j - 1)).map (fun i => chunkLen d (i + 1))).foldl (· + ·) 0

/-- The limits of R130: LENGTH_LIMIT or FORMAT_INVALID. An L both above the maximum and no multiple gives LENGTH_LIMIT, and so does SYM_GCM
with L = 0 whose BUF[1] is present, where R146 and R130 each name a code (assumption 83). -/
def cipherLimit (d : Desc) (alg : Nat) : Nat :=
  let len := d.bufLen 0
  let tdes := isTdes alg
  let lim (mult top : Nat) : Nat :=
    if len = 0 ∨ len > top then ccLengthLimit else if len % mult ≠ 0 then ccFormatInvalid else ccOk
  match d.opcode with
  | 0x0200 => if tdes then lim 8 262144 else lim 16 16777216
  | 0x0201 =>
    if d.pb 104 = 0 then (if tdes then lim 8 32768 else lim 16 131072)
    else if tdes then lim 8 262144 else lim 16 16777216
  | 0x0202 | 0x0203 => lim 1 16777216
  | 0x0204 => if d.pb 105 < 9 ∨ d.pb 105 > 16 then ccFormatInvalid else lim (2 ^ d.pb 105) 262144
  | _ => if tdes ∨ d.pb 104 ≠ 0x05 then lim 1 32768 else lim 1 131072

/-- PARAM of SYM_ECB to SYM_XTS; fields an opcode does not use are reserved (R129). -/
def cipherParamOk (d : Desc) : Bool :=
  decide (d.pb 104 ≤ 1)
    && (d.opcode == 0x0204 || d.pz 105 1)
    && (if d.opcode = 0x0203 then decide (12 ≤ d.pb 106 ∧ d.pb 106 ≤ 16) else d.pz 106 1)
    && d.pz 107 5 && (d.opcode == 0x0204 || d.pz 112 16)

/-- The buffer table of R128. -/
def cipherBufs (d : Desc) (alg : Nat) : List BufRule :=
  let len := d.bufLen 0
  let tl := 12 + d.pb 106
  let dec := d.pb 104 == 1
  [.inRange 0 16777216, .out len,
   match d.opcode with
   | 0x0201 => .inFix (blockLen alg)
   | 0x0202 => if dec then .inFix 16 else .out 16
   | 0x0203 => if dec then .inFix tl else .out tl
   | _ => .absent,
   if d.opcode = 0x0203 ∧ d.bufLen 3 ≠ 0 then .inRange 1 65536 else .absent]

/-- SM4 where GLB_CAP does not report it (R124). -/
def State.noSm4 (s : State) (c : Cmd) : Bool := c.alg0 == 0x18 && !s.on R.GLB_CAP1_SM4

/-- The checks of a class 0x10 command in the order of R143. Where the RESUMABLE check of R137 stands among them the spec leaves open: the
model makes it after R92 and before PARAM (assumption 83). -/
def checkCipher (s : State) (c : Cmd) : Nat :=
  let d : Desc := c.desc
  let op := d.opcode
  let len := d.bufLen 0
  let r := r92 d true false (cipherBufs d c.alg0)
  let enc := d.pb 104 == 0
  firstFail [
    (r != ccOk, r),
    (d.resumable && op == 0x0203, ccFormatInvalid),
    (!cipherParamOk d, ccFormatInvalid),
    (cipherLimit d c.alg0 != ccOk, cipherLimit d c.alg0),
    (c.algBad || s.noSm4 c || op == 0x0204 && c.mat0.take (c.mat0.length / 2) == c.mat0.drop (c.mat0.length / 2), ccKeyAttrDenied),
    (c.spentKey || ((op == 0x0202 || op == 0x0203) && enc && decide (c.inv > 0xFFFFFFFF)), ccCounterExhausted),
    (op == 0x0202 && !enc && decide (ofBE ((c.input 2).drop 12) + ceilDiv len 16 - 1 > 0xFFFFFFFF), ccInputRange),
    (op == 0x0204 && decide (ofLE (d.param 112 16) + len / 2 ^ d.pb 105 > 2 ^ 128), ccInputRange)]

/-- FIX: the Net member ID and CL_GCM_FIXED.FIXED (R133). A command takes it with its invocation value, at admission, so that a repeat
gives the same output whatever is committed meanwhile; the spec names no moment (assumption 83). -/
def State.fix (s : State) : Bytes := toBE 4 (s.memberId * 2 ^ 20 + s.get R.CL_GCM_FIXED_FIXED)

/-- SYM_ECB (R132). -/
def workEcb (s : State) (c : Cmd) : Cmd × State :=
  let d : Desc := c.desc
  let data := c.chunk c.step
  let bs := blocks (data.length + 1) (blockLen c.alg0) data
  let f := if d.pb 104 = 0 then blockEnc c.alg0 c.mat0 else blockDec c.alg0 c.mat0
  (c.emit 1 (chunkAt d c.step) (bs.map f).flatten, s)

/-- SYM_CBC (R132): decryption carries the last ciphertext block of a step to the next. -/
def workCbc (s : State) (c : Cmd) : Cmd × State :=
  let d : Desc := c.desc
  let data := c.chunk c.step
  let bl := blockLen c.alg0
  let iv := if c.step = 1 then c.input 2 else c.carry
  let bs := blocks (data.length + 1) bl data
  let out := if d.pb 104 = 0 then cbcEnc c.alg0 c.mat0 iv bs else cbcDec c.alg0 c.mat0 iv bs
  ({ c.emit 1 (chunkAt d c.step) out with carry := if data.length < bl then iv else data.drop (data.length - bl) }, s)

/-- SYM_CTR (R134): the device builds the initial counter block of an encryption and writes it to BUF[2]. -/
def workCtr (s : State) (c : Cmd) : Cmd × State :=
  let d : Desc := c.desc
  let data := c.chunk c.step
  let icb := if d.pb 104 = 1 then c.input 2 else if c.step = 1 then c.fix ++ toBE 8 c.inv ++ fill 4 0 else c.carry
  let c1 := if d.pb 104 = 0 ∧ c.step = 1 then c.emit 2 0 icb else c
  ({ c1.emit 1 (chunkAt d c.step) (ctrData c.alg0 c.mat0 icb c.carryN data) with
      carry := icb, carryN := c.carryN + ceilDiv data.length 16 }, s)

/-- What SYM_GCM carries from step to step (R132): H, E(K, J0), the GHASH accumulator, the counter block that comes next, and the
lengths of AAD and text so far. -/
structure GcmState where
  h : Nat
  mask : Bytes
  acc : Nat
  counter : Bytes
  aadLen : Nat
  textLen : Nat

/-- The plaintext of a lane carry record. The order of its fields is the model's choice (assumption 71). -/
def GcmState.bytes (g : GcmState) : Bytes :=
  toBE 16 g.h ++ g.mask ++ toBE 16 g.acc ++ g.counter ++ toBE 8 g.aadLen ++ toBE 8 g.textLen

/-- A lane carry record read back. -/
def gcmParse (b : Bytes) : GcmState :=
  { h := ofBE (cut b 0 16), mask := cut b 16 16, acc := ofBE (cut b 32 16), counter := cut b 48 16
    aadLen := ofBE (cut b 64 8), textLen := ofBE (cut b 72 8) }

/-- The state with which the first step begins: H, E(K, J0) and the AAD blocks (R132, R133). -/
def gcmBegin (alg : Nat) (key iv aad : Bytes) : GcmState :=
  let h := gcmH alg key
  { h := h, mask := blockEnc alg key (iv ++ toBE 4 1), acc := ghashOn h 0 aad, counter := iv ++ toBE 4 2
    aadLen := aad.length, textLen := 0 }

/-- A part of the text hashed as ciphertext `ct`. -/
def GcmState.after (g : GcmState) (ct : Bytes) : GcmState :=
  { g with
    acc := ghashOn g.h g.acc ct
    counter := g.counter.take 12 ++ toBE 4 ((ofBE (g.counter.drop 12) + ceilDiv ct.length 16) % 2 ^ 32)
    textLen := g.textLen + ct.length }

/-- The tag: the length block, then the mask. -/
def GcmState.tag (g : GcmState) : Bytes :=
  xorBytes (toBE 16 (ghashOn g.h g.acc (toBE 8 (8 * g.aadLen) ++ toBE 8 (8 * g.textLen)))) g.mask

/-- SYM_GCM (R132, R133, R136): a step that is not the last seals a lane carry record, and the next one opens it. -/
def workGcm (s : State) (c : Cmd) : Cmd × State :=
  let d : Desc := c.desc
  let data := c.chunk c.step
  let enc := d.pb 104 = 0
  let tl := d.pb 106
  let g :=
    if c.step = 1 then gcmBegin c.alg0 c.mat0 (if enc then c.fix ++ toBE 8 c.inv else (c.input 2).take 12) (c.input 3)
    else gcmParse ((s.openCarry c).getD [])
  let out := ctrData c.alg0 c.mat0 g.counter 0 data
  let g1 := g.after (if enc then out else data)
  let c1 := c.emit 1 (chunkAt d c.step) out
  if c.step < c.s then (s.sealCarry c1 g1.bytes, s)
  else
    let tag := g1.tag.take tl
    if enc then (c1.emit 2 0 (g1.counter.take 12 ++ tag), s)
    else if tag = cut (c.input 2) 12 tl then (c1, s)
    else (c1.fail ccSigInvalid, s)

/-- SYM_XTS (R129): each data unit under its sequence number. -/
def workXts (s : State) (c : Cmd) : Cmd × State :=
  let d : Desc := c.desc
  let data := c.chunk c.step
  let du := 2 ^ d.pb 105
  let t0 := ofLE (d.param 112 16)
  let out := ((blocks (data.length + 1) du data).zipIdx.map (fun e =>
    fitTo du (xtsUnit (d.pb 104 == 1) c.mat0 (t0 + e.2) e.1))).flatten
  (c.emit 1 0 out, s)

/-- The checks of the bulk MAC opcodes (R129, R143). -/
def checkSymMac (verify : Bool) (s : State) (c : Cmd) : Nat :=
  let d : Desc := c.desc
  let bufs := [.inRange 0 16777216, if verify then .absent else .out (d.pb 106), .absent, .absent]
  firstFail [
    (r92 d true false bufs != ccOk, r92 d true false bufs),
    (d.resumable, ccFormatInvalid),
    (!macParamOk d verify (isTdes c.alg0), ccFormatInvalid),
    (cipherLimit d c.alg0 != ccOk, cipherLimit d c.alg0),
    (c.algBad || s.noSm4 c || !macKeyOk d c.attr0 c.alg0, ccKeyAttrDenied),
    (c.spentKey, ccCounterExhausted)]

/-- The bulk MACs (R129). -/
def workSymMac (verify : Bool) (s : State) (c : Cmd) : Cmd × State :=
  let d : Desc := c.desc
  let n := d.pb 106
  let m := (macOf d c.alg0 c.mat0 (c.chunk 1)).take n
  if verify then (if m = d.param 108 n then (c, s) else (c.fail ccSigInvalid, s))
  else (c.emit 1 0 m, s)

def opSymEcb : OpSpec := { check := checkCipher, work := workEcb }
def opSymCbc : OpSpec := { check := checkCipher, work := workCbc }
def opSymCtr : OpSpec := { check := checkCipher, work := workCtr }
def opSymGcm : OpSpec := { check := checkCipher, work := workGcm }
def opSymXts : OpSpec := { check := checkCipher, work := workXts }
def opSymMacGenerate : OpSpec := { check := checkSymMac false, work := workSymMac false }
def opSymMacVerify : OpSpec := { check := checkSymMac true, work := workSymMac true }

def execSymEcb (cmd : Nat) (err : Bool) (s : State) : Host.Outcome State Fault Refusal :=
  ok (s.runStep 0x0200 opSymEcb cmd (errOf err))
def execSymCbc (cmd : Nat) (err : Bool) (s : State) : Host.Outcome State Fault Refusal :=
  ok (s.runStep 0x0201 opSymCbc cmd (errOf err))
def execSymCtr (cmd : Nat) (err : Bool) (s : State) : Host.Outcome State Fault Refusal :=
  ok (s.runStep 0x0202 opSymCtr cmd (errOf err))
def execSymGcm (cmd : Nat) (err : Bool) (s : State) : Host.Outcome State Fault Refusal :=
  ok (s.runStep 0x0203 opSymGcm cmd (errOf err))
def execSymXts (cmd : Nat) (err : Bool) (s : State) : Host.Outcome State Fault Refusal :=
  ok (s.runStep 0x0204 opSymXts cmd (errOf err))
def execSymMacGenerate (cmd : Nat) (err : Bool) (s : State) : Host.Outcome State Fault Refusal :=
  ok (s.runStep 0x0208 opSymMacGenerate cmd (errOf err))
def execSymMacVerify (cmd : Nat) (err : Bool) (s : State) : Host.Outcome State Fault Refusal :=
  ok (s.runStep 0x0209 opSymMacVerify cmd (errOf err))

end Sys2Proof.Machine
end

