-- ==== Sys2Proof/Machine/HashLanes.lean ====
section
/-! DEFINITION. The hash and HMAC commands of class 0x11 (R139 to R142). -/

namespace Sys2Proof.Machine

/-- The MAC and hash PARAM of class 0x11 (R140). -/
def hashParamOk (d : Desc) : Bool :=
  let alg := d.pb 104
  let hm := d.opcode == 0x0288 || d.opcode == 0x0289
  let shake := alg == 0x21 || alg == 0x22
  (hashInfo alg).isSome && !(hm && shake)
    && (if hm then decide (16 ≤ d.pb 105 ∧ d.pb 105 ≤ digestLen alg 0) else d.pz 105 1)
    && (if shake then decide (1 ≤ d.paramN 106 2 ∧ d.paramN 106 2 ≤ 512) else d.pz 106 2)
    && (if d.opcode = 0x0281 then d.paramN 108 4 != 0 && d.bufLen 0 % d.paramN 108 4 == 0 else d.pz 108 4)
    && d.pz 112 16

/-- The limits of R142. -/
def hashOver (d : Desc) : Bool :=
  let alg := d.pb 104
  let len := d.bufLen 0
  let outLen := d.paramN 106 2
  if d.opcode = 0x0281 then
    let rlen := d.paramN 108 4
    let cr := hashBlocks alg outLen rlen
    len == 0 || decide (cr > 480) || decide (len / rlen * cr > 4096 * spanOf d)
  else
    len == 0 || decide (hashBlocks alg outLen len + (if d.opcode = 0x0280 then 0 else 3) > 480)

/-- The checks of class 0x11 in the order of R143. -/
def checkHash (c : Cmd) : Nat :=
  let d : Desc := c.desc
  let dl := digestLen (d.pb 104) (d.paramN 106 2)
  let hm := d.opcode == 0x0288 || d.opcode == 0x0289
  let out1 := match d.opcode with
    | 0x0280 => BufRule.out dl
    | 0x0281 => BufRule.out (d.bufLen 0 / d.paramN 108 4 * dl)
    | 0x0288 => BufRule.out (d.pb 105)
    | _ => BufRule.inFix (d.pb 105)
  let bufs := [.inRange 0 16777216, out1, .absent, .absent]
  firstFail [
    (r92 d hm false bufs != ccOk, r92 d hm false bufs),
    (d.resumable && d.opcode != 0x0281, ccFormatInvalid),
    (!hashParamOk d, ccFormatInvalid),
    (hashOver d, ccLengthLimit),
    (c.algBad || hm && !(decide (16 ≤ c.mat0.length ∧ c.mat0.length ≤ 64)), ccKeyAttrDenied),
    (c.spentKey, ccCounterExhausted)]

/-- HASH (R139). -/
def workHash (s : State) (c : Cmd) : Cmd × State :=
  let d : Desc := c.desc
  let alg := d.pb 104
  (c.emit 1 0 (hashOf alg (digestLen alg (d.paramN 106 2)) (c.chunk 1)), s)

/-- HASH_BATCH (R142): the digests of the records finished in the step; the rest is carried. -/
def workHashBatch (s : State) (c : Cmd) : Cmd × State :=
  let d : Desc := c.desc
  let alg := d.pb 104
  let outLen := d.paramN 106 2
  let dl := digestLen alg outLen
  let rlen := d.paramN 108 4
  match hashPlan d with
  | none => (c.fail ccLengthLimit, s)
  | some p =>
    let data := c.carry ++ c.chunk c.step
    let n := p.gives.getD (c.step - 1) 0 / max 1 dl
    let done := (p.gives.take (c.step - 1)).foldl (· + ·) 0
    let ds := (blocks n rlen data).map (hashOf alg dl)
    ({ c.emit 1 done ds.flatten with carry := data.drop (n * rlen) }, s)

/-- HMAC (FIPS 198-1) with a hash of R139, under a key of at most its block. -/
def hmacFull (alg : Nat) (key msg : Bytes) : Bytes :=
  let n := match hashInfo alg with | some (_, r, _) => r | none => 64
  let dl := digestLen alg 0
  let k := fitTo n key
  hashOf alg dl (xorBytes k (fill n 0x5C) ++ hashOf alg dl (xorBytes k (fill n 0x36) ++ msg))

/-- The MAC of HMAC (R141). -/
def hmacOf (c : Cmd) : Bytes := (hmacFull (Desc.pb c.desc 104) c.mat0 (c.chunk 1)).take (Desc.pb c.desc 105)

/-- HMAC_GENERATE and HMAC_VERIFY (R141). -/
def workHmac (verify : Bool) (s : State) (c : Cmd) : Cmd × State :=
  if verify then (if hmacOf c = c.input 1 then (c, s) else (c.fail ccSigInvalid, s))
  else (c.emit 1 0 (hmacOf c), s)

def opHash : OpSpec := { check := fun _ c => checkHash c, work := workHash }
def opHashBatch : OpSpec := { check := fun _ c => checkHash c, work := workHashBatch }
def opHmacGenerate : OpSpec := { check := fun _ c => checkHash c, work := workHmac false }
def opHmacVerify : OpSpec := { check := fun _ c => checkHash c, work := workHmac true }

def execHashOne (cmd : Nat) (err : Bool) (s : State) : Host.Outcome State Fault Refusal :=
  ok (s.runStep 0x0280 opHash cmd (errOf err))
def execHashBatch (cmd : Nat) (err : Bool) (s : State) : Host.Outcome State Fault Refusal :=
  ok (s.runStep 0x0281 opHashBatch cmd (errOf err))
def execHmacGenerate (cmd : Nat) (err : Bool) (s : State) : Host.Outcome State Fault Refusal :=
  ok (s.runStep 0x0288 opHmacGenerate cmd (errOf err))
def execHmacVerify (cmd : Nat) (err : Bool) (s : State) : Host.Outcome State Fault Refusal :=
  ok (s.runStep 0x0289 opHmacVerify cmd (errOf err))

end Sys2Proof.Machine
end

