-- ==== Sys2Proof/Machine/Pk.lean ====
section
/-! DEFINITION. The public-key commands (R158 to R170): RSA, ECDSA, EdDSA, agreement, and key generation with its
continuation records. -/

namespace Sys2Proof.Machine

/-! ## The order of checks (R159) -/

/-- The checks of R159 in order: the format part of R92, PARAM, KEY0, its counters, lengths, encodings, then the
range and validity conditions of R158. -/
def pkChecks (c : Cmd) (k0 : Bool) (bufs : List BufRule) (paramOk keyOk : Bool) (tooLong : Bool)
    (rest : List (Bool × Nat)) : Nat :=
  let r := r92 c.desc k0 false bufs
  firstFail ([
    (r == ccFormatInvalid, ccFormatInvalid),
    (!paramOk, ccFormatInvalid),
    (c.algBad || !keyOk, ccKeyAttrDenied),
    (c.spentKey, ccCounterExhausted),
    (r == ccLengthLimit || tooLong, ccLengthLimit)] ++ rest)

/-- Bytes 104 to 127 of an RSA opcode. `schemes` are those the opcode admits, `slo` to `shi` the PSS salt. -/
def rsaParamOk (d : Desc) (schemes : List Nat) (slo shi : Nat) : Bool :=
  schemes.contains (d.pb 104) && rsaHLen (d.pb 105) != 0
    && (if d.pb 104 = 0x02 then decide (slo ≤ d.pb 106 ∧ d.pb 106 ≤ shi) else d.pb 106 == 0)
    && d.pz 107 21

/-- The combination of R163 is supported in the class. -/
def rsaSupported (d : Desc) (alg : Nat) : Bool :=
  decide (rsaBlocks (d.pb 104) (d.pb 105) (d.pb 106) (rsaK alg) ≤ (if d.cls = 0x20 then 8 else 16))

/-- RSA_SIGN and RSA_SIGN_LARGE. -/
def checkRsaSign (large : Bool) (c : Cmd) : Nat :=
  let d : Desc := c.desc
  pkChecks c true [.inFix (rsaHLen (d.pb 105)), .out (rsaK c.alg0), .absent, .absent]
    (rsaParamOk d [0x01, 0x02] 32 32)
    (if large then isRsa c.alg0 else c.alg0 == 0x30) false [(!rsaSupported d c.alg0, ccFormatInvalid)]

/-- The encoded message that an RSA signature raises to the private exponent; PSS takes its salt from the last 32 bytes of the
draw (R164). -/
def rsaMessage (c : Cmd) : Nat :=
  let d : Desc := c.desc
  let salt := if d.pb 104 = 0x02 then c.carry.drop (rsaDraw c - 32) else []
  Config.rsaEncode (d.pb 104) (d.pb 105) (c.input 0) salt (rsaK c.alg0)

def workRsaSign (s : State) (c : Cmd) : Cmd × State :=
  (c.emit 1 0 (toBE (rsaK c.alg0) (rsaPriv c false (rsaMessage c))), s)

/-- RSA_DECRYPT and RSA_DECRYPT_LARGE: the output buffer holds the longest message of the encoding. -/
def checkRsaDecrypt (large : Bool) (c : Cmd) : Nat :=
  let d : Desc := c.desc
  let k := rsaK c.alg0
  let rep := ofBE (c.input 0)
  pkChecks c true [.inFix k, .out 1, .inFix (rsaHLen (d.pb 105)), .absent]
    (rsaParamOk d [0x03] 0 0)
    (if large then isRsa c.alg0 else c.alg0 == 0x30) false
    [(!rsaSupported d c.alg0, ccFormatInvalid),
     (rep == 0 || decide (rep ≥ rsaModulus c.alg0 c.mat0), ccInputRange)]

def workRsaDecrypt (s : State) (c : Cmd) : Cmd × State :=
  match Config.rsaOaepDecode (Desc.pb c.desc 105) (c.input 2) (rsaK c.alg0) (rsaPriv c false (ofBE (c.input 0))) with
  | none => (c.fail ccFormatInvalid, s)
  | some m => (c.emit 1 0 m, s)

/-- RSA_VERIFY. -/
def checkRsaVerify (_ : State) (c : Cmd) : Nat :=
  let d : Desc := c.desc
  let rep := ofBE (c.input 1)
  pkChecks c true [.inFix (rsaHLen (d.pb 105)), .inFix (rsaK c.alg0), .absent, .absent]
    (rsaParamOk d [0x01, 0x02] 0 64) (isRsa c.alg0) false
    [(!rsaSupported d c.alg0, ccFormatInvalid),
     (rep == 0 || decide (rep ≥ rsaModulus c.alg0 c.mat0), ccSigInvalid)]

def workRsaVerify (s : State) (c : Cmd) : Cmd × State :=
  let d : Desc := c.desc
  if Config.rsaVerify c.mat0 (d.pb 104) (d.pb 105) (d.pb 106) (c.input 0) (c.input 1) then (c, s)
  else (c.fail ccSigInvalid, s)

/-- Computations A and B of a private operation agree (R156). -/
def rsaAgrees (rep : Cmd → Nat) (_ : State) (c : Cmd) : Bool := rsaPriv c false (rep c) == rsaPriv c true (rep c)

def opRsaSign : OpSpec :=
  { check := fun _ c => checkRsaSign false c, work := workRsaSign, pre := rsaDraw, compares := true, agrees := rsaAgrees rsaMessage }
def opRsaSignLarge : OpSpec :=
  { check := fun _ c => checkRsaSign true c, work := workRsaSign, pre := rsaDraw, compares := true, agrees := rsaAgrees rsaMessage }
def opRsaDecrypt : OpSpec :=
  { check := fun _ c => checkRsaDecrypt false c, work := workRsaDecrypt, pre := rsaDraw, compares := true
    agrees := rsaAgrees (fun c => ofBE (c.input 0)) }
def opRsaDecryptLarge : OpSpec :=
  { check := fun _ c => checkRsaDecrypt true c, work := workRsaDecrypt, pre := rsaDraw, compares := true
    agrees := rsaAgrees (fun c => ofBE (c.input 0)) }
def opRsaVerify : OpSpec := { check := checkRsaVerify, work := workRsaVerify }

/-! ## Curves -/

/-- Coordinate bytes of P-256 and P-384. -/
def ecLen (alg : Nat) : Nat := if alg = 0x40 then 32 else 48

/-- An uncompressed point has a valid encoding: its length, and leading byte 0x04 or 0x00 (R160). -/
def pointForm (alg : Nat) (p : Bytes) : Bool :=
  p.length == 2 * ecLen alg + 1 && (p.headD 0 == 0x04 || p.headD 0 == 0x00)

/-- A point of R158's last rows: infinity, a coordinate at or above p, or off the curve. -/
def pointBad (alg : Nat) (p : Bytes) : Bool :=
  let x := ofBE (cut p 1 (ecLen alg))
  let y := ofBE (p.drop (1 + ecLen alg))
  p.headD 0 == 0x00 || decide (x ≥ Config.curvePrime alg) || decide (y ≥ Config.curvePrime alg)
    || !Config.onCurve alg x y

/-- The private scalar of KEY0 is 0 or at least n (R158). -/
def scalarBad (alg : Nat) (k : Bytes) : Bool :=
  if alg = 0x40 ∨ alg = 0x41 then ofBE k == 0 || decide (ofBE k ≥ Config.curveOrder alg) else Config.scalarBad alg k

/-- The digest of an ECDSA input (R165). -/
def ecdsaDigest (alg : Nat) (d : Desc) (inp : Bytes) : Bytes :=
  if d.pb 104 = 0 then inp else if alg = 0x40 then hashOf 0x02 32 inp else hashOf 0x03 48 inp

/-- BUF[0] of an ECDSA opcode: a digest of 1 to 64 bytes, or a message within the priced compressions (R165). -/
def ecdsaIn (alg : Nat) (d : Desc) : BufRule :=
  if d.pb 104 = 0 then .inRange 1 64 else .inRange 0 (if alg = 0x40 then 119 else 239)

def checkEcdsaSign (alg : Nat) (c : Cmd) : Nat :=
  let d : Desc := c.desc
  pkChecks c true [ecdsaIn alg d, .out (2 * ecLen alg), .absent, .absent]
    (decide (d.pb 104 ≤ 1) && d.pz 105 23) (c.alg0 == alg) false [(scalarBad alg c.mat0, ccInputRange)]

/-- The nonce k: the first 40 or 56 bytes drawn, read as a big-endian number c, give (c mod (n − 1)) + 1 (R165). -/
def ecdsaNonce (alg : Nat) (draw : Bytes) : Nat :=
  ofBE (draw.take (if alg = 0x40 then 40 else 56)) % (Config.curveOrder alg - 1) + 1

/-- The digest as a number of the group: its leftmost bits, as many as the order has (FIPS 186-5). -/
def ecdsaE (alg : Nat) (e : Bytes) : Nat :=
  let n := ecLen alg
  ofBE (e.take n)

/-- r and s of an ECDSA signature, computation A, or B (R156, R165): the base point times k + t n, or k + (t + 1) n, on P-384 with
a projective Z from the draw, then s = k⁻¹ (e + r d) modulo n. -/
def ecdsaPair (alg : Nat) (key draw e : Bytes) (b : Bool) : Nat × Nat :=
  let n := Config.curveOrder alg
  let k := ecdsaNonce alg draw
  let m := if alg = 0x40 then 40 else 56
  let t := fieldLE draw m 8 + (if b then 1 else 0)
  let z := if alg = 0x40 then 0 else fieldLE draw (m + 8) 8
  let r := Config.ecBaseX alg (k + t * n) z % n
  (r, powMod 512 k (n - 2) n * (ecdsaE alg e + r * ofBE key) % n)

/-- An ECDSA signature; `none` when r or s is 0 (R158). -/
def ecdsaSign (alg : Nat) (key draw e : Bytes) : Option Bytes :=
  let (r, t) := ecdsaPair alg key draw e false
  if r = 0 ∨ t = 0 then none else some (toBE (ecLen alg) r ++ toBE (ecLen alg) t)

/-- The two computations of an ECDSA signature agree (R156). -/
def ecdsaAgrees (alg : Nat) (key draw e : Bytes) : Bool := ecdsaPair alg key draw e false == ecdsaPair alg key draw e true

def workEcdsaSign (alg : Nat) (s : State) (c : Cmd) : Cmd × State :=
  match ecdsaSign alg c.mat0 c.carry (ecdsaDigest alg c.desc (c.input 0)) with
  | none => (c.fail ccInputRange, s)
  | some sig => (c.emit 1 0 sig, s)

/-- The checks of ECDSA verification; the sum of R158 is formed of a point that passed its own check. -/
def checkEcdsaVerify (alg : Nat) (c : Cmd) : Nat :=
  let d : Desc := c.desc
  let n := Config.curveOrder alg
  let r := ofBE ((c.input 1).take (ecLen alg))
  let t := ofBE ((c.input 1).drop (ecLen alg))
  pkChecks c true [ecdsaIn alg d, .inFix (2 * ecLen alg), .absent, .absent]
    (decide (d.pb 104 ≤ 1) && d.pz 105 23) (c.alg0 == alg) false
    [(!pointForm alg c.mat0, ccFormatInvalid),
     (r == 0 || decide (r ≥ n) || t == 0 || decide (t ≥ n), ccSigInvalid),
     (pointBad alg c.mat0, ccPointInvalid),
     (Config.ecdsaSumInfinity alg c.mat0 (ecdsaDigest alg d (c.input 0)) (c.input 1), ccSigInvalid)]

def workEcdsaVerify (alg : Nat) (s : State) (c : Cmd) : Cmd × State :=
  if Config.ecdsaVerify alg c.mat0 (ecdsaDigest alg c.desc (c.input 0)) (c.input 1) then (c, s)
  else (c.fail ccSigInvalid, s)

def opEcdsaSign (alg : Nat) : OpSpec :=
  { check := fun _ c => checkEcdsaSign alg c, work := workEcdsaSign alg, pre := fun _ => if alg = 0x40 then 48 else 72
    compares := true, agrees := fun _ c => ecdsaAgrees alg c.mat0 c.carry (ecdsaDigest alg c.desc (c.input 0)) }
def opEcdsaVerify (alg : Nat) : OpSpec := { check := fun _ c => checkEcdsaVerify alg c, work := workEcdsaVerify alg }

/-! ## EdDSA (R166) -/

/-- A context of at most `cap` bytes at 108, with its length at 104 and zeros beyond it. -/
def ctxOk (d : Desc) (cap : Nat) : Bool :=
  decide (d.pb 104 ≤ cap) && d.pz (108 + d.pb 104) (16 - d.pb 104) && d.pz 124 4

def ctxOf (d : Desc) : Bytes := d.param 108 (min 16 (d.pb 104))

def eddsaLen (alg : Nat) : Nat := if alg = 0x48 then 32 else 57

/-- The context limit of the key's curve is part of the PARAM check (R166). -/
def eddsaParam (c : Cmd) : Bool := ctxOk c.desc (if c.alg0 = 0x48 then 0 else 16) && Desc.pz c.desc 105 3

def checkEddsaSign (_ : State) (c : Cmd) : Nat :=
  pkChecks c true [.inRange 0 640, .out (2 * eddsaLen c.alg0), .absent, .absent] (eddsaParam c)
    (c.alg0 == 0x48 || c.alg0 == 0x49) false [(scalarBad c.alg0 c.mat0, ccInputRange)]

/-- The blinding of computation A, or B: which bytes of a draw of 32 serve which, R166 and R167 leave to R156's "its own blinding"; the
model takes the halves (assumption 68). -/
def blindHalf (c : Cmd) (b : Bool) : Bytes := if b then c.carry.drop 16 else c.carry.take 16

/-- An EdDSA signature as computation A or B forms it: it depends only on key, context and message (R166). -/
def eddsaSig (c : Cmd) (b : Bool) : Bytes :=
  fitTo (2 * eddsaLen c.alg0) (Config.eddsaSign c.alg0 c.mat0 (ctxOf c.desc) (c.input 0) (blindHalf c b))

def workEddsaSign (s : State) (c : Cmd) : Cmd × State := (c.emit 1 0 (eddsaSig c false), s)

/-- The encoding of the neutral element of an Edwards curve (RFC 8032): y is 1 and the sign bit is 0. -/
def edNeutral (alg : Nat) (p : Bytes) : Bool := ofLE (fitTo (eddsaLen alg) p) == 1

def checkEddsaVerify (_ : State) (c : Cmd) : Nat :=
  let n := eddsaLen c.alg0
  pkChecks c true [.inRange 0 640, .inFix (2 * n), .absent, .absent] (eddsaParam c)
    (c.alg0 == 0x48 || c.alg0 == 0x49) false
    [(!Config.edDecodes c.alg0 ((c.input 1).take n) || decide (ofLE ((c.input 1).drop n) ≥ Config.curveOrder c.alg0),
       ccSigInvalid),
     (!Config.edDecodes c.alg0 c.mat0 || edNeutral c.alg0 c.mat0, ccPointInvalid)]

def workEddsaVerify (s : State) (c : Cmd) : Cmd × State :=
  if Config.eddsaVerify c.alg0 c.mat0 (ctxOf c.desc) (c.input 0) (c.input 1) then (c, s) else (c.fail ccSigInvalid, s)

def opEddsaSign : OpSpec :=
  { check := checkEddsaSign, work := workEddsaSign, pre := fun _ => 32, compares := true
    agrees := fun _ c => eddsaSig c false == eddsaSig c true }
def opEddsaVerify : OpSpec := { check := checkEddsaVerify, work := workEddsaVerify }

/-! ## Agreement (R167) -/

/-- A derived secret as a derive-only key of 32 bytes (R167, R174, R190 ALG 0x60). -/
def derivedKey (pidx pgen : Nat) (k : Bytes) : NewKey :=
  { attr := mkAttr 0 0 mX uK3 false true false false true false roleDerive, pidx := pidx, pgen := pgen, alg := 0x60,
    material := fitTo 32 k }

/-- The twist test of R158: u³ + 486,662 u² + u is a non-square modulo p = 2²⁵⁵ − 19, by Euler's criterion. -/
def x25519Twist (u : Nat) : Bool :=
  let p := 2 ^ 255 - 19
  powMod 256 ((u * u * u + 486662 * u * u + u) % p) ((p - 1) / 2) p == p - 1

def checkEcAgree (_ : State) (c : Cmd) : Nat :=
  let d : Desc := c.desc
  let peer := c.input 0
  let x := c.alg0 == 0x4A
  let u := ofLE peer % 2 ^ 255
  pkChecks c true [.inFix (if x then 32 else 2 * ecLen c.alg0 + 1), .out 96, .absent, .absent]
    (decide (d.pb 104 ≤ 20) && d.pz 105 3 && d.pz (108 + d.pb 104) (20 - d.pb 104))
    (c.alg0 == 0x40 || c.alg0 == 0x41 || x) false
    [(!x && !pointForm c.alg0 peer, ccFormatInvalid),
     (scalarBad c.alg0 c.mat0, ccInputRange),
     (!x && pointBad c.alg0 peer, ccPointInvalid),
     (x && (decide (u ≥ 2 ^ 255 - 19) || Config.x25519Small u || x25519Twist u), ccPointInvalid)]

/-- Z as computation A or B of the ladder gives it (R156, R167). -/
def agreed (c : Cmd) (b : Bool) : Bytes :=
  fitTo (if c.alg0 = 0x41 then 48 else 32) (Config.ecdh c.alg0 c.mat0 (c.input 0) (blindHalf c b))

def workEcAgree (s : State) (c : Cmd) : Cmd × State :=
  let d : Desc := c.desc
  let z := agreed c false
  let k := hashOf 0x02 32 (toBE 4 1 ++ z ++ d.param 108 (d.pb 104))
  let (c1, _, t) := s.makeKeys c true (s.depth0 c + 1) 1 [derivedKey (hIndex d.key0) (hGen d.key0) k]
  (c1, t)

def opEcAgree : OpSpec :=
  { check := checkEcAgree, work := workEcAgree, pre := fun _ => 32, compares := true
    agrees := fun _ c => agreed c false == agreed c true }

/-! ## Key generation (R168 to R170) -/

/-- The ALG of a key type. -/
def keygenAlg (t : Nat) : Option Nat :=
  match t with
  | 0x01 => some 0x30 | 0x02 => some 0x31 | 0x03 => some 0x32
  | 0x11 => some 0x40 | 0x12 => some 0x41
  | 0x21 => some 0x48 | 0x22 => some 0x49 | 0x23 => some 0x4A
  | _ => none

/-- Bytes a curve key is made from (R168). -/
def keygenDraw (alg : Nat) : Nat := if alg = 0x41 then 48 else if alg = 0x49 then 57 else 32

/-- Bytes of a public key in BUF[2] (R160, R168): for RSA n, then E. -/
def publicLen (alg : Nat) : Nat :=
  if isRsa alg then rsaK alg + 4
  else match alg with | 0x40 => 65 | 0x41 => 97 | 0x49 => 57 | _ => 32

/-- Material bytes of an asymmetric key (R190): the private key, or the public one. -/
def matLen (alg : Nat) (pub : Bool) : Nat :=
  if isRsa alg then (if pub then rsaK alg + 4 else 5 * (rsaK alg / 2))
  else match alg with
    | 0x40 => if pub then 65 else 32
    | 0x41 => if pub then 97 else 48
    | 0x49 => 57
    | 0x50 => if pub then 800 else 1632
    | 0x51 => if pub then 1184 else 2400
    | 0x52 => if pub then 1568 else 3168
    | 0x58 => if pub then 1312 else 2560
    | 0x59 => if pub then 1952 else 4032
    | 0x5A => if pub then 2592 else 4896
    | _ => 32

/-- The bytes of the blobs that a key generation writes (R168, R191). -/
def pairLen (u m alg : Nat) : Nat :=
  match profile u m alg with
  | some prof => prof.foldl (fun n e => n + blobLen (matLen alg e.2.2)) 0
  | none => 1

/-- TYPE to E of a first command are well formed. -/
def keygenParamOk (p : Bytes) : Bool :=
  let t := fieldLE p 0 1
  let e := fieldLE p 8 4
  match keygenAlg t with
  | none => false
  | some alg =>
    (if isRsa alg then e % 2 == 1 && decide (65537 ≤ e) else e == 0)
      && zeroAt p 5 3 && (fieldLE p 4 1 == 0x4E || fieldLE p 4 1 == 0x45)
      && (profile (ofBE (cut p 2 2)) (fieldLE p 1 1) alg).isSome

/-- The AAD, IV, plaintext and tag of a continuation record (R169). -/
def contOpen (s : State) (r : Bytes) : Option Bytes :=
  let (pt, tag) := gcmDec 0x12 s.ks.contKey (cut r 16 12) (r.take 16) (cut r 28 980)
  if fitTo 16 tag = cut r 1008 16 then some (fitTo 980 pt) else none

/-- The profile bytes 104 to 115 and the search state that a keygen command goes on from. -/
def keygenStart (s : State) (c : Cmd) : Option (Bytes × Bytes) :=
  if Desc.continue_ c.desc then (contOpen s (c.input 0)).map (fun p => (p.take 12, p.drop 12))
  else some (Desc.param c.desc 104 12, [])

def checkKeygen (s : State) (c : Cmd) : Nat :=
  let d : Desc := c.desc
  let cont := d.continue_
  let prof := (keygenStart s c).map (·.1)
  let alg := match prof with
    | some p => (keygenAlg (fieldLE p 0 1)).getD 0
    | none => 0x30
  pkChecks c false
    [if cont then .inFix 1024 else .absent, .out 2048, .out (publicLen alg), if isRsa alg then .out 1024 else .absent]
    (if cont then d.pz 112 16 else keygenParamOk (d.param 104 12) && d.pz 116 12) true
    false [(cont && prof.isNone, ccFormatInvalid)]

/-- The blobs of a finished pair in BUF[1] and its public key in BUF[2] (R168). -/
def State.keygenDone (s : State) (c : Cmd) (p : Bytes) (alg : Nat) (pair : Bytes × Bytes) : Cmd × State :=
  let u := ofBE (cut p 2 2)
  let m := fieldLE p 1 1
  match profile u m alg with
  | none => (c.fail ccFormatInvalid, s)
  | some prof =>
    let (c1, _, t) := s.makeKeys c false 1 1
      (halves prof u 0 false true (fieldLE p 4 1 == 0x45) 0 (s.domain c.slice).gen0 alg (fitTo (matLen alg false) pair.1)
        (if isRsa alg then fitTo (rsaK alg) pair.2 ++ toLE 4 (fieldLE p 8 4) else fitTo (matLen alg true) pair.2))
    let pub := if isRsa alg then fitTo (rsaK alg) pair.2 ++ toBE 4 (fieldLE p 8 4) else fitTo (publicLen alg) pair.2
    ({ c1.emit 2 0 pub with stop := true }, t)

/-- The entry a PARTIAL takes: the lowest free, else the one issued earliest, which is then evicted (R169). -/
def contEntry (sl : Slice) : Nat × Bool :=
  match (List.range 16).find? (fun i => sl.cont.all (fun e => e.1 != i)) with
  | some i => (i, false)
  | none =>
    let first := sl.cont.foldl (fun m e => min m e.2.2.2) (sl.cont.foldl (fun m e => max m e.2.2.2) 0)
    let old := sl.cont.filter (fun e => e.2.2.2 == first)
    ((old.foldl (fun m e => match m with
      | none => some e
      | some x => if e.2.1 < x.2.1 then some e else some x) (none : Option (Nat × Nat × Nat × Nat))).elim 0 (·.1), true)

/-- PARTIAL: an entry taken, and the sealed record in BUF[3] (R168, R169). -/
def State.keygenPartial (s : State) (c : Cmd) (p state : Bytes) (primes cands : Nat) : Cmd × State :=
  let sl := s.slice c.slice
  let (entry, evicted) := contEntry sl
  let seq := if sl.contSeq + 1 < 2 ^ 32 then sl.contSeq + 1 else 1
  let handle := c.slice * 2 ^ 54 + c.gen % 256 * 2 ^ 46 + entry * 2 ^ 42 + seq
  let s1 := s.modSlice c.slice (fun x => { x with
    contSeq := seq, cont := Tab.ins x.cont entry (seq, fieldLE p 0 1, s.frameNo) })
  let s2 := if evicted then (s1.bump R.PK_SLICE_CONT_EVICTED 1 c.slice).pkErr R.PK_ERR_STS_CONT_EVICT 0x0330 (s.tileOf c.id false) else s1
  let (iv, s3) := s2.randomBytes 12
  let head := toLE 8 handle ++ p.take 1 ++ toLE 1 primes ++ fill 2 0 ++ toLE 4 cands
  let (ct, tag) := gcmEnc 0x12 s3.ks.contKey iv head (fitTo 980 (p ++ state))
  let c1 := c.emit 3 0 (head ++ iv ++ fitTo 980 ct ++ fitTo 16 tag)
  ({ c1 with code := if c1.code = ccOk then ccPartial else c1.code, cont := handle, stop := true,
             stepsDone := c.s - 1 },
    s3.bump R.PK_CNT_PARTIAL_COUNT)

/-- A curve key's private material: for P-256 and P-384 draws of 32 or 48 bytes are tested until one, as a number c, is at most
n − 2, and the scalar is c + 1 (FIPS 186-5, R168); the other curves take one draw as it is. `fuel` bounds the draws by the
command's bytes; the last one is then taken modulo n − 1 (assumption 68). -/
def State.curveDraw : Nat → State → Cmd → Nat → Bytes × Cmd × State
  | 0, s, c, alg => s.draw c (keygenDraw alg)
  | fuel + 1, s, c, alg =>
    let (bs, c1, t) := s.draw c (keygenDraw alg)
    if alg ≠ 0x40 ∧ alg ≠ 0x41 then (bs, c1, t)
    else if ofBE bs + 2 ≤ Config.curveOrder alg then (toBE (ecLen alg) (ofBE bs + 1), c1, t)
    else if fuel = 0 then (toBE (ecLen alg) (ofBE bs % (Config.curveOrder alg - 1) + 1), c1, t)
    else State.curveDraw fuel t c1 alg

/-- The bytes that a step of key generation may draw: what is left of its 16,384, in a repeated step what the first attempt drew
there (R34). -/
def Cmd.genBudget (c : Cmd) : Nat := if c.drawsAfresh then c.drew.getD (c.step - 1) 0 else c.cost.rnd - c.drawn

/-- What a step of a search or a curve key yields. -/
inductive GenStep where
  | pair (alg : Nat) (priv pub : Bytes) (c : Cmd) (s : State)
  | partial_ (state : Bytes) (primes cands : Nat) (c : Cmd) (s : State)
  | more (c : Cmd) (s : State)

/-- Bytes that an agreement key draws after its scalar to blind the two computations of its public key (R156, R168): the model takes as
many as R167 draws for a ladder (assumption 83). -/
def pairBlind (agree : Bool) : Nat := if agree then 32 else 0

/-- A step of key generation for a type and exponent; `agree` for an agreement key. An RSA search draws a free number of bytes within
what is left, in a repeated step what that step drew before; it stops when the next draw would exceed the budget or the last step has
run (R34, R168). -/
def State.genStep (s : State) (c : Cmd) (alg e : Nat) (agree : Bool) (before : Bytes) : GenStep :=
  if !isRsa alg then
    let (bs, c1, t) := State.curveDraw ((c.genBudget - pairBlind agree) / keygenDraw alg) s c alg
    let (blind, c2, u) := t.draw c1 (pairBlind agree)
    let (priv, pub) := Config.keyPair alg 0 bs
    .pair alg priv pub { c2 with carry := blind } u
  else
    let budget := c.genBudget
    let (v, s1) := s.fresh
    let half := rsaK alg / 2
    let n := if c.drawsAfresh then budget else min (v % (ceilDiv budget half + 1) * half) (budget / half * half)
    let (bs, c1, s2) := s1.draw c n
    let all := c1.carry ++ bs
    let (done, state, primes, cands) := Config.rsaSearch e alg before all
    let c2 := { c1 with carry := all }
    if done then
      let (priv, pub) := Config.rsaPair alg e state
      .pair alg priv pub c2 s2
    else if c.cost.rnd - c2.drawn < half ∨ c.step = c.s then .partial_ state (primes % 3) (cands % 2 ^ 32) c2 s2
    else .more c2 s2

/-- A step of key generation (R168). -/
def workKeygen (s : State) (c : Cmd) : Cmd × State :=
  match keygenStart s c with
  | none => (c.fail ccFormatInvalid, s)
  | some (p, before) =>
    match keygenAlg (fieldLE p 0 1) with
    | none => (c.fail ccFormatInvalid, s)
    | some alg =>
      match s.genStep c alg (fieldLE p 8 4) (ofBE (cut p 2 2) == uK3) before with
      | .pair alg priv pub c1 t => t.keygenDone c1 p alg (priv, pub)
      | .partial_ state primes cands c1 t => t.keygenPartial c1 p state primes cands
      | .more c1 t => (c1, t)

/-- The pairwise consistency test of the pair a step finishes (R168): an agreement key computes the public key twice, with
blinding of its own each time. -/
def keygenAgrees (s : State) (c : Cmd) : Bool :=
  match keygenStart s c with
  | none => true
  | some (p, before) =>
    match keygenAlg (fieldLE p 0 1) with
    | none => true
    | some alg =>
      match s.genStep c alg (fieldLE p 8 4) (ofBE (cut p 2 2) == uK3) before with
      | .pair alg priv pub c1 _ =>
        if ofBE (cut p 2 2) = uK3 then Config.publicOf alg priv (blindHalf c1 false) == Config.publicOf alg priv (blindHalf c1 true)
        else Config.pairwiseOk alg (ofBE (cut p 2 2)) priv pub
      | _ => true

def opKeygen : OpSpec := { check := checkKeygen, work := workKeygen, every := true, compares := true, agrees := keygenAgrees }

/-! ## The commands of the table -/

def execRsaSign (cmd : Nat) (err : Bool) (s : State) : Host.Outcome State Fault Refusal :=
  ok (s.runStep 0x0300 opRsaSign cmd (errOf err))
def execRsaDecrypt (cmd : Nat) (err : Bool) (s : State) : Host.Outcome State Fault Refusal :=
  ok (s.runStep 0x0301 opRsaDecrypt cmd (errOf err))
def execRsaSignLarge (cmd : Nat) (err : Bool) (s : State) : Host.Outcome State Fault Refusal :=
  ok (s.runStep 0x0302 opRsaSignLarge cmd (errOf err))
def execRsaDecryptLarge (cmd : Nat) (err : Bool) (s : State) : Host.Outcome State Fault Refusal :=
  ok (s.runStep 0x0303 opRsaDecryptLarge cmd (errOf err))
def execRsaVerify (cmd : Nat) (err : Bool) (s : State) : Host.Outcome State Fault Refusal :=
  ok (s.runStep 0x0308 opRsaVerify cmd (errOf err))
def execEcdsaSignP256 (cmd : Nat) (err : Bool) (s : State) : Host.Outcome State Fault Refusal :=
  ok (s.runStep 0x0310 (opEcdsaSign 0x40) cmd (errOf err))
def execEcdsaVerifyP256 (cmd : Nat) (err : Bool) (s : State) : Host.Outcome State Fault Refusal :=
  ok (s.runStep 0x0311 (opEcdsaVerify 0x40) cmd (errOf err))
def execEcdsaSignP384 (cmd : Nat) (err : Bool) (s : State) : Host.Outcome State Fault Refusal :=
  ok (s.runStep 0x0312 (opEcdsaSign 0x41) cmd (errOf err))
def execEcdsaVerifyP384 (cmd : Nat) (err : Bool) (s : State) : Host.Outcome State Fault Refusal :=
  ok (s.runStep 0x0313 (opEcdsaVerify 0x41) cmd (errOf err))
def execEddsaSign (cmd : Nat) (err : Bool) (s : State) : Host.Outcome State Fault Refusal :=
  ok (s.runStep 0x0318 opEddsaSign cmd (errOf err))
def execEddsaVerify (cmd : Nat) (err : Bool) (s : State) : Host.Outcome State Fault Refusal :=
  ok (s.runStep 0x0319 opEddsaVerify cmd (errOf err))
def execEcAgree (cmd : Nat) (err : Bool) (s : State) : Host.Outcome State Fault Refusal :=
  ok (s.runStep 0x0320 opEcAgree cmd (errOf err))

/-- The command carries FLAGS.CONTINUE (R170). -/
def State.isContinue (s : State) (cmd : Nat) : Bool :=
  match s.cmd? cmd with
  | some c => Desc.continue_ c.desc
  | none => false

def execPkKeygen (cmd : Nat) (err : Bool) (s : State) : Host.Outcome State Fault Refusal :=
  ok (if s.isContinue cmd then s else s.runStep 0x0330 opKeygen cmd (errOf err))
def execPkKeygenContinue (cmd : Nat) (err : Bool) (s : State) : Host.Outcome State Fault Refusal :=
  ok (if s.isContinue cmd then s.runStep 0x0330 opKeygen cmd (errOf err) else s)

end Sys2Proof.Machine
end

