-- ==== Sys2Proof/Machine/Lattice.lean ====
section
/-! DEFINITION. The lattice commands (R172 to R175): ML-KEM and ML-DSA. -/

namespace Sys2Proof.Machine

/-! R171 has the decrypted message, the public key and the response z computed twice and compared. The lattice computations take no
blinding, so both are the same function of the same operands, and what makes them differ is an error of the unit: the operand
`err` of the row. -/

/-- Sizes of a parameter set 1 to 3 (R172). -/
def kemPk (set : Nat) : Nat := if set = 1 then 800 else if set = 2 then 1184 else 1568
def kemCt (set : Nat) : Nat := if set = 1 then 768 else if set = 2 then 1088 else 1568
def dsaPk (set : Nat) : Nat := if set = 1 then 1312 else if set = 2 then 1952 else 2592
def dsaSig (set : Nat) : Nat := if set = 1 then 2420 else if set = 2 then 3309 else 4627

/-- PARAM of a lattice key generation: SET, MODE, USAGE, EXPORT (R172). `base` is the ALG of set 1. -/
def latticeGenOk (d : Desc) (base : Nat) : Bool :=
  let set := d.pb 104
  decide (1 ≤ set ∧ set ≤ 3) && (d.pb 108 == 0x4E || d.pb 108 == 0x45) && d.pz 109 19
    && (profile (ofBE (d.param 106 2)) (d.pb 105) (base + set - 1)).isSome

/-- The buffers of a lattice key generation (R172). -/
def latticeBufs (d : Desc) (base : Nat) : List BufRule :=
  let alg := base + d.pb 104 - 1
  [.absent, .out (pairLen (ofBE (d.param 106 2)) (d.pb 105) alg), .out (matLen alg true), .absent]

/-- The blobs and public key of a lattice key generation (R168, R172). -/
def State.latticeKey (s : State) (c : Cmd) (alg : Nat) (pub : Nat) : Cmd × State :=
  let d : Desc := c.desc
  let u := ofBE (d.param 106 2)
  match profile u (d.pb 105) alg with
  | none => (c.fail ccFormatInvalid, s)
  | some prof =>
    let (sk, pk) := Config.keyPair alg 0 c.carry
    let (c1, _, t) := s.makeKeys c false 1 1
      (halves prof u 0 false true (d.pb 108 == 0x45) 0 (s.domain c.slice).gen0 alg (fitTo (matLen alg false) sk) (fitTo pub pk))
    (c1.emit 2 0 (fitTo pub pk), t)

/-! ### ML-KEM (R173, R174) -/

def checkMlkemKeygen (_ : State) (c : Cmd) : Nat :=
  let d : Desc := c.desc
  pkChecks c false (latticeBufs d 0x50) (latticeGenOk d 0x50) true false []

def workMlkemKeygen (s : State) (c : Cmd) : Cmd × State :=
  let set := Desc.pb c.desc 104
  s.latticeKey c (0x4F + set) (kemPk set)

def checkMlkemEncaps (_ : State) (c : Cmd) : Nat :=
  let d : Desc := c.desc
  let set := d.pb 104
  pkChecks c false [.inFix (kemPk set), .out (kemCt set), .out 96, .absent]
    (decide (1 ≤ set ∧ set ≤ 3) && d.pz 105 23) true false
    [(!Config.mlkemCoeffOk (0x4F + set) (c.input 0), ccFormatInvalid)]

def workMlkemEncaps (s : State) (c : Cmd) : Cmd × State :=
  let set := Desc.pb c.desc 104
  let (ct, k) := Config.mlkemEncaps (0x4F + set) (c.input 0) c.carry
  let (c1, _, t) := s.makeKeys (c.emit 1 0 (fitTo (kemCt set) ct)) true 1 2
    [derivedKey 0 (s.domain c.slice).gen0 k]
  (c1, t)

/-- The hash check of the key is made at load, after the checks of R159 (R174). -/
def checkMlkemDecaps (_ : State) (c : Cmd) : Nat :=
  let d : Desc := c.desc
  pkChecks c true [.inFix (kemCt (c.alg0 - 0x4F)), .out 96, .absent, .absent] (d.pz 104 24)
    (isMlkem c.alg0) false [(!Config.mlkemKeyOk c.alg0 c.mat0, ccKeyAttrDenied)]

/-- The message m′ as decapsulation decrypts it (R171). -/
def decapsMessage (c : Cmd) : Bytes := Config.mlkemDecrypt c.alg0 c.mat0 (c.input 0)

def workMlkemDecaps (s : State) (c : Cmd) : Cmd × State :=
  let d : Desc := c.desc
  let (c1, _, t) := s.makeKeys c true (s.depth0 c + 1) 1
    [derivedKey (hIndex d.key0) (hGen d.key0) (Config.mlkemDecaps c.alg0 c.mat0 (c.input 0) (decapsMessage c))]
  (c1, t)

def opMlkemKeygen : OpSpec := 
  { check := checkMlkemKeygen, work := workMlkemKeygen, pre := fun _ => 64, compares := true }
def opMlkemEncaps : OpSpec := { check := checkMlkemEncaps, work := workMlkemEncaps, pre := fun _ => 32 }
def opMlkemDecaps : OpSpec := { check := checkMlkemDecaps, work := workMlkemDecaps, compares := true }

/-! ### ML-DSA (R175) -/

def mldsaParamOk (d : Desc) : Bool := ctxOk d 16 && decide (d.pb 105 ≤ 1) && d.pz 106 2

/-- The message limit of the pre-hash selection. -/
def mldsaMsg (d : Desc) : BufRule := .inRange 0 (if d.pb 105 = 0 then 4096 else 495)

def checkMldsaSign (top : Bool) (c : Cmd) : Nat :=
  let d : Desc := c.desc
  let ok := if top then c.alg0 == 0x5A else c.alg0 == 0x58 || c.alg0 == 0x59
  pkChecks c true [mldsaMsg d, .out (dsaSig (c.alg0 - 0x57)), .absent, .absent] (mldsaParamOk d) ok false []

/-- The slot of the first accepted iteration fixes the signature; none within 64 gives SIGN_RETRY_LIMIT (R175). -/
def workMldsaSign (s : State) (c : Cmd) : Cmd × State :=
  let d : Desc := c.desc
  let (iter, sig) := Config.mldsaSign c.alg0 c.mat0 (d.pb 105 != 0) (ctxOf d) (c.input 0) c.carry
  if iter = 0 ∨ 64 < iter then
    (c.fail ccSignRetryLimit, (s.bump R.LU_CNT_ITER_COUNT 64).bump R.LU_CNT_RETRY_COUNT)
  else
    (c.emit 1 0 (fitTo (dsaSig (c.alg0 - 0x57)) sig), (s.bump R.LU_CNT_ITER_COUNT iter).bump R.LU_CNT_SIGN_COUNT)

def checkMldsaVerify (_ : State) (c : Cmd) : Nat :=
  let d : Desc := c.desc
  pkChecks c true [mldsaMsg d, .inFix (dsaSig (c.alg0 - 0x57)), .absent, .absent] (mldsaParamOk d) (isMldsa c.alg0)
    false []

def workMldsaVerify (s : State) (c : Cmd) : Cmd × State :=
  let d : Desc := c.desc
  if Config.mldsaVerify c.alg0 c.mat0 (d.pb 105 != 0) (ctxOf d) (c.input 0) (c.input 1) then (c, s)
  else (c.fail ccSigInvalid, s)

def checkMldsaKeygen (_ : State) (c : Cmd) : Nat :=
  let d : Desc := c.desc
  pkChecks c false (latticeBufs d 0x58) (latticeGenOk d 0x58) true false []

def workMldsaKeygen (s : State) (c : Cmd) : Cmd × State :=
  let set := Desc.pb c.desc 104
  s.latticeKey c (0x57 + set) (dsaPk set)

def opMldsaSign : OpSpec :=
  { check := fun _ c => checkMldsaSign false c, work := workMldsaSign, pre := fun _ => 32, compares := true }
def opMldsa87Sign : OpSpec :=
  { check := fun _ c => checkMldsaSign true c, work := workMldsaSign, pre := fun _ => 32, compares := true }
def opMldsaVerify : OpSpec := { check := checkMldsaVerify, work := workMldsaVerify }
def opMldsaKeygen : OpSpec := 
  { check := checkMldsaKeygen, work := workMldsaKeygen, pre := fun _ => 32, compares := true }

/-! ## The commands of the table -/

def execMlkemKeygen (cmd : Nat) (err : Bool) (s : State) : Host.Outcome State Fault Refusal :=
  ok (s.runStep 0x0340 opMlkemKeygen cmd (errOf err))
def execMlkemEncaps (cmd : Nat) (err : Bool) (s : State) : Host.Outcome State Fault Refusal :=
  ok (s.runStep 0x0341 opMlkemEncaps cmd (errOf err))
def execMlkemDecaps (cmd : Nat) (err : Bool) (s : State) : Host.Outcome State Fault Refusal :=
  ok (s.runStep 0x0342 opMlkemDecaps cmd (errOf err))
def execMldsaSign (cmd : Nat) (err : Bool) (s : State) : Host.Outcome State Fault Refusal :=
  ok (s.runStep 0x0350 opMldsaSign cmd (errOf err))
def execMldsa87Sign (cmd : Nat) (err : Bool) (s : State) : Host.Outcome State Fault Refusal :=
  ok (s.runStep 0x0351 opMldsa87Sign cmd (errOf err))
def execMldsaVerify (cmd : Nat) (err : Bool) (s : State) : Host.Outcome State Fault Refusal :=
  ok (s.runStep 0x0358 opMldsaVerify cmd (errOf err))
def execMldsaKeygen (cmd : Nat) (err : Bool) (s : State) : Host.Outcome State Fault Refusal :=
  ok (s.runStep 0x0359 opMldsaKeygen cmd (errOf err))

end Sys2Proof.Machine
end

