-- ==== Sys2Proof/Machine/KeyOps.lean ====
section
/-! DEFINITION. The key store opcodes (R208 to R213): generation, derivation, rewrap, invalidation, components, KWP
export and import, and attestation. -/

namespace Sys2Proof.Machine

/-! ## KEY_GENERATE and KEY_DERIVE (R209) -/

/-- Odd parity in each byte of a TDES key. -/
def oddParity (bs : Bytes) : Bytes :=
  bs.map (fun b => if popCount 8 b.toNat % 2 = 1 then b else b ^^^ 1#8)

/-- Material length by ALG and HLEN (R209); 0 for an ALG these opcodes do not make. -/
def newLen (alg hlen : Nat) : Nat :=
  if alg = 0x20 then (if 16 ≤ hlen ∧ hlen ≤ 32 then hlen else 0)
  else if alg = 0x14 then 0 else symLen alg

/-- PARAM of R209. -/
def newParamOk (d : Desc) : Bool :=
  newLen (d.pb 104) (d.pb 112) != 0 && (d.pb 104 == 0x20 || d.pb 112 == 0)
    && (d.pb 108 == 0x4E || d.pb 108 == 0x45) && d.pz 113 15
    && (profile (ofBE (d.param 106 2)) (d.pb 105) (d.pb 104)).isSome

/-- The keys of a creation with its attributes from PARAM. -/
def newHalves (d : Desc) (eph genIn exp : Bool) (pidx pgen : Nat) (m : Bytes) : List NewKey :=
  let u := ofBE (d.param 106 2)
  halves ((profile u (d.pb 105) (d.pb 104)).getD []) u (d.paramN 109 3) eph genIn exp pidx pgen (d.pb 104) m m

/-- The bytes of the blobs that a creation with PARAM of R209 writes. -/
def newBlobs (d : Desc) : Nat := 96 * max 1 (blobCount (ofBE (d.param 106 2)) (d.pb 105) (d.pb 104))

def checkKeyGenerate (_ : State) (c : Cmd) : Nat :=
  let d : Desc := c.desc
  let bufs := [.absent, .out (newBlobs d), .absent, .absent]
  firstFail [(r92 d false false bufs != ccOk, r92 d false false bufs), (!newParamOk d, ccFormatInvalid)]

def workKeyGenerate (s : State) (c : Cmd) : Cmd × State :=
  let d : Desc := c.desc
  let m := if isTdes (d.pb 104) then oddParity c.carry else c.carry
  let (c1, h, t) := s.makeKeys c false 1 1 (newHalves d false true (d.pb 108 == 0x45) 0 (s.domain c.slice).gen0 m)
  ({ c1 with auditP2 := some h }, t)

def checkKeyDerive (_ : State) (c : Cmd) : Nat :=
  let d : Desc := c.desc
  let bufs := [.inRange 0 20, .out (newBlobs d), .absent, .absent]
  firstFail [
    (r92 d true false bufs != ccOk, r92 d true false bufs),
    (!newParamOk d, ccFormatInvalid),
    (c.algBad || d.pb 108 == 0x45 && !aExport c.attr0, ccKeyAttrDenied),
    (c.spentKey, ccCounterExhausted)]

def workKeyDerive (s : State) (c : Cmd) : Cmd × State :=
  let d : Desc := c.desc
  let m := (kdfOf c.mat0 (d.param 106 2 ++ d.param 105 1 ++ d.param 104 1) (c.input 0)).take (newLen (d.pb 104) (d.pb 112))
  let eph := hEphem d.key0
  let (c1, h, t) := s.makeKeys c eph (s.depth0 c + 1) 1
    (newHalves d eph true (d.pb 108 == 0x45) (hIndex d.key0) (hGen d.key0) m)
  ({ c1 with auditP2 := some h }, t)

def opKeyGenerate : OpSpec :=
  { check := checkKeyGenerate, work := workKeyGenerate, pre := fun c => newLen (Desc.pb c.desc 104) (Desc.pb c.desc 112) }
def opKeyDerive : OpSpec := { check := checkKeyDerive, work := workKeyDerive }

/-! ## KEY_REWRAP (R210) -/

def checkKeyRewrap (_ : State) (c : Cmd) : Nat :=
  let d : Desc := c.desc
  let bufs := [.absent, .out 96, .absent, .absent]
  firstFail [
    (r92 d true false bufs != ccOk, r92 d true false bufs),
    (!d.pz 104 24, ccFormatInvalid),
    (c.algBad || aEphem c.attr0, ccKeyAttrDenied),
    (c.spentKey, ccCounterExhausted)]

/-- Bytes 0 to 95 of the blob resealed at the current epoch. -/
def workKeyRewrap (s : State) (c : Cmd) : Cmd × State :=
  let (read, s0) := s.needLeaf .epoch c.slice
  match c.key0, (if read then s0.nextIv else .error ccSlotIntegrity) with
  | some k, .ok (iv, t) =>
    let e := t.epochOf c.slice
    let header := blobHeader k.handle k.attr k.pidx k.alg k.pgen e k.mlen
    let (ct, tag) := gcmEnc 0x12 (t.domainKey c.slice e) iv header (if k.mlen ≤ 32 then fitTo 32 k.material else k.bk)
    (c.emit 1 0 (header ++ iv ++ fill 4 0 ++ fitTo 32 ct ++ fitTo 16 tag), t)
  | _, .error code => (c.fail code, s0)
  | none, _ => (c.fail ccFormatInvalid, s0)

def opKeyRewrap : OpSpec := { check := checkKeyRewrap, work := workKeyRewrap }

/-! ## KEY_INVALIDATE (R199 to R202) -/

/-- A linked key is the first of its pair: the private half, or the half of mode E or G (R189). -/
def firstHalf (k : KeyRec) : Bool :=
  if aPublic k.attr then false
  else if aUsage k.attr = uD1 ∨ aUsage k.attr = uS0 ∨ aUsage k.attr = uK3 then true
  else aMode k.attr == mE || aMode k.attr == mG

/-- Material length of the private half of a pair. -/
def privLen (k : KeyRec) : Nat :=
  if !aPublic k.attr then k.mlen
  else ((List.range 4897).find? (fun n => mlenOk k.alg n false)).getD k.mlen

/-- Material length of a linked key's partner; both halves of a symmetric pair hold one secret. -/
def partnerLen (k : KeyRec) : Nat :=
  if aPublic k.attr then privLen k
  else if aUsage k.attr = uD1 ∨ aUsage k.attr = uS0 ∨ aUsage k.attr = uK3 then
    ((List.range 4897).find? (fun n => mlenOk k.alg n true)).getD k.mlen
  else k.mlen

/-- The handle of a linked key's partner; the halves are adjacent, the first half first (R186, R189). The key store knows it from the
creation of the pair, or the generation of its index from a paging. Where neither has happened since the last cold reset the
spec does not say how the generation is learnt: it is a free value (assumption 74). -/
def State.partner (s : State) (n : Nat) (k : KeyRec) : Option Nat × State :=
  let i := if firstHalf k then hIndex k.handle + slotsOf k.mlen else hIndex k.handle - slotsOf (privLen k)
  let known := match s.ks.known.find? (fun x => x.handle == k.handle) with | some x => x.partner | none => 0
  let g := Tab.get 0 (s.domain n).gens i
  if !aLinked k.attr then (none, s)
  else if known ≠ 0 then (some known, s)
  else if g ≠ 0 then (some (s.mkHandle n i g), s)
  else
    let (v, t) := s.fresh
    (some (s.mkHandle n i (v % 0xFFFE + 1)), t)

def checkKeyInvalidate (_ : State) (c : Cmd) : Nat :=
  let d : Desc := c.desc
  let bufs := [.absent, .absent, .absent, .absent]
  firstFail [
    (r92 d true false bufs != ccOk, r92 d true false bufs),
    (!d.pz 104 24, ccFormatInvalid),
    ((aRole c.attr0 == roleWrap || aRole c.attr0 == roleDerive) && !c.custodian, ccQuorumRequired),
    (c.spentKey, ccCounterExhausted)]

/-- The leaves of a key released. -/
def State.dropKeyLeaves (s : State) (h : Nat) : State :=
  ((s.dropLeaf .usage h).dropLeaf .gcm h).dropLeaf .ctr h

def workKeyInvalidate (s : State) (c : Cmd) : Cmd × State :=
  match c.key0 with
  | none => (c.fail ccFormatInvalid, s)
  | some k =>
    let (p, s0) := s.partner c.slice k
    let hs := k.handle :: p.toList
    let (read, sE) := if hEphem k.handle then (true, s0) else s0.needLeaf .epoch c.slice
    if !read then (c.fail ccSlotIntegrity, sE)
    else if !hEphem k.handle ∧ sE.ks.revoked.length + hs.length > 16384 then
      (c.fail ccPolicyDenied, sE.ksFault R.KS_ERR_STS_REVOKE_FULL c.slice 0)
    else
      let e := sE.epochOf c.slice
      let s1 := if hEphem k.handle then sE else sE.setRevoked (sE.ks.revoked ++ hs.map (fun h => (h, e)))
      let s2 := hs.foldl (fun t h => (t.abandonKey h true).dropKeyLeaves h) s1
      let runs : List Bump := hs.zipIdx.map (fun e =>
        { index := hIndex e.1, slots := slotsOf (if e.2 = 0 then k.mlen else partnerLen k), gen := hGen e.1 })
      (c, s2.modDomain c.slice (fun x => { x with
        bumps := x.bumps ++ runs.filter (fun r => x.bumps.all (fun b => b.index != r.index)) }))

def opKeyInvalidate : OpSpec := { check := checkKeyInvalidate, work := workKeyInvalidate }

/-! ## KEY_COMPONENT (R211) -/

def compAlgOk (alg : Nat) : Bool := isTdes alg || isAes alg

def checkKeyComponent (_ : State) (c : Cmd) : Nat :=
  let d : Desc := c.desc
  let last := d.pb 104 == d.pb 105
  let bufs := [.inFix 64, if last then .out (96 * max 1 (blobCount (ofBE (d.param 108 2)) (d.pb 107) (d.pb 106))) else .absent, .absent, .absent]
  firstFail [
    (r92 d false false bufs != ccOk, r92 d false false bufs),
    (!d.pz 111 2 || !(last || d.pz 113 3) || !d.pz 119 9, ccFormatInvalid)]

/-- SEQ, TOTAL, ALG, MODE, USAGE and EXPORT of a component command are well encoded. -/
def compParamOk (d : Desc) : Bool :=
  (d.pb 105 == 2 || d.pb 105 == 3) && d.pb 104 != 0 && decide (d.pb 104 ≤ d.pb 105)
    && (d.pb 110 == 0x4E || d.pb 110 == 0x45) && compAlgOk (d.pb 106)
    && (profile (ofBE (d.param 108 2)) (d.pb 107) (d.pb 106)).isSome

/-- The accumulator of a slice discarded. -/
def State.dropAccum (s : State) (n : Nat) : State :=
  { s with ks := { s.ks with accums := s.ks.accums.filter (fun a => a.slice != n) } }

/-- ALG, MODE, USAGE, EXPORT and LIMIT of a component command. -/
def compParams (d : Desc) : List Nat := [d.pb 106, d.pb 107, ofBE (d.param 108 2), d.pb 110, d.paramN 116 3]

/-- KEY_COMPONENT. A component whose values differ from the first, or are not well encoded, gives FORMAT_INVALID, and the accumulator
is discarded (R211); the check of these fields is made here for that reason. -/
def workKeyComponent (s : State) (c : Cmd) : Cmd × State :=
  let d : Desc := c.desc
  let n := c.slice
  let r := c.input 0
  let seq := d.pb 104
  let off := fieldLE r 60 1
  let acc := s.ks.accums.find? (fun a => a.slice == n)
  let same := match acc with
    | some a => a.params == compParams d && a.total == d.pb 105
    | none => true
  let prev := match acc with | some a => a.seq | none => 0
  let used := match acc with | some a => a.officers.contains off | none => false
  let t := s.dropAccum n
  if !compParamOk d || !same || !zeroAt r 61 3 then (c.fail ccFormatInvalid, t)
  else if seq != prev + 1 || used then (c.fail ccSigInvalid, t)
  else
    match (c.custodians.find? (fun e => e.1 == off)).bind (·.2) with
    | none => (c.fail ccSigInvalid, t)
    | some tk =>
      let (pt, tag) := gcmDec 0x12 tk (r.take 12) (toLE 2 n ++ toLE 4 c.sessId ++ toLE 1 seq) (cut r 12 32)
      if fitTo 16 tag ≠ cut r 44 16 then (c.fail ccSigInvalid, t)
      else
        let sum := xorBytes (fitTo 32 pt) (match acc with | some a => a.acc | none => fill 32 0)
        if seq < d.pb 105 then
          let live := (Tab.get {} s.sessions n).st == 2 && (Tab.get {} s.sessions n).id == c.sessId
          let a : Accum := { slice := n, session := c.sessId, seq := seq, acc := sum,
                             officers := off :: (match acc with | some x => x.officers | none => []),
                             total := d.pb 105, params := compParams d, frame := s.frameNo }
          (c, if live then { t with ks := { t.ks with accums := t.ks.accums ++ [a] } } else t)
        else
          let m := sum.take (symLen (d.pb 106))
          if checkValue (d.pb 106) m ≠ d.param 113 3 then (c.fail ccSigInvalid, t)
          else
            let u := ofBE (d.param 108 2)
            let (c1, h, v) := t.makeKeys c false 1 1
              (halves ((profile u (d.pb 107) (d.pb 106)).getD []) u (d.paramN 116 3) false false (d.pb 110 == 0x45) 0
                (s.domain n).gen0 (d.pb 106) m m)
            ({ c1 with auditP2 := some h }, v)

def opKeyComponent : OpSpec := { check := checkKeyComponent, work := workKeyComponent }

/-! ## KWP export and import (R212) -/

/-- An ALG and material length the two opcodes handle. -/
def kwpAlgOk (alg mlen : Nat) : Bool := alg == 0x14 || (newLen alg mlen != 0 && newLen alg mlen == mlen)

def checkKeyWrapExport (_ : State) (c : Cmd) : Nat :=
  let d : Desc := c.desc
  let bufs := [.absent, .out (8 * ceilDiv (8 + c.mat1.length) 8 + 8), .absent, .absent]
  firstFail [
    (r92 d true true bufs != ccOk, r92 d true true bufs),
    (!d.pz 104 24, ccFormatInvalid),
    (c.algBad || !aExport c.attr1 || aMode c.attr0 == mD || !kwpAlgOk c.alg1 c.mat1.length, ccKeyAttrDenied),
    (c.spentKey, ccCounterExhausted)]

def workKeyWrapExport (s : State) (c : Cmd) : Cmd × State :=
  let pt := toLE 8 c.attr1 ++ c.mat1
  (c.emit 1 0 (kwpWrap c.mat0 pt), s)

def checkKeyWrapImport (_ : State) (c : Cmd) : Nat :=
  let d : Desc := c.desc
  let bufs := [.inRange 32 80, .out 96, .absent, .absent]
  firstFail [
    (r92 d true false bufs != ccOk, r92 d true false bufs),
    (!d.pz 104 24, ccFormatInvalid),
    (c.algBad, ccKeyAttrDenied),
    (c.spentKey, ccCounterExhausted)]

/-- The algorithms a wrapped key of this ATTR and length can have: the wrapped form carries no ALG (R212). -/
def kwpAlgs (attr mlen : Nat) : List Nat :=
  [0x01, 0x02, 0x10, 0x11, 0x12, 0x13, 0x14, 0x18, 0x20].filter (fun a =>
    kwpAlgOk a mlen && (a == 0x20 || symLen a == mlen)
      && (match profile (aUsage attr) (aMode attr) a with
          | some prof => prof.all (fun e => !e.2.2) && prof.any (fun e => e.1 == aRole attr)
          | none => false))

/-- The key unwrapped, or the pair that its mode makes (R189), takes KEY0 as parent. Where more than one ALG fits, which one it has
is a free value. -/
def workKeyWrapImport (s : State) (c : Cmd) : Cmd × State :=
  let d : Desc := c.desc
  match kwpUnwrap c.mat0 (c.input 0) with
  | none => (c.fail ccSigInvalid, s)
  | some pt =>
    let attr := fieldLE pt 0 8
    let m := pt.drop 8
    let algs := kwpAlgs attr m.length
    if algs.isEmpty || aTalg attr != 0 || aTr34 attr || aPublic attr || decide (pt.length < 24) then
      (c.fail ccFormatInvalid, s)
    else
      let (v, t) := if algs.length = 1 then (0, s) else s.fresh
      let eph := hEphem d.key0
      let alg := algs.getD (v % algs.length) 0
      let keys := halves ((profile (aUsage attr) (aMode attr) alg).getD []) (aUsage attr) (aLimit attr) eph false (aExport attr)
        (hIndex d.key0) (hGen d.key0) alg m m
      let (c1, h, u) := t.makeKeys c eph (s.depth0 c + 1) 1 keys
      ({ c1 with auditP2 := some h }, u)

def opKeyWrapExport : OpSpec := { check := checkKeyWrapExport, work := workKeyWrapExport }
def opKeyWrapImport : OpSpec := { check := checkKeyWrapImport, work := workKeyWrapImport }

/-! ## KEY_ATTEST (R213) -/

/-- The firmware measurement, SHA-384, as UPD_FW_DIGEST reports it. -/
def State.fwDigest (s : State) : Bytes := (List.range 6).flatMap (fun i => toLE 8 (s.get R.UPD_FW_DIGEST_DIGEST i))

/-- The 192-byte statement on a key. -/
def State.statement (s : State) (c : Cmd) (k : KeyRec) : Bytes :=
  toBE 4 0x4B564154 ++ toLE 1 1 ++ toLE 1 (s.get R.LC_STATE_CODE)
    ++ toLE 2 (if s.on R.NET_STS_MEMBER then s.get R.NET_STS_ID else 0xFFFF)
    ++ s.deviceId ++ s.fwDigest ++ toLE 8 s.frameNo ++ toLE 8 k.handle ++ toLE 8 k.attr ++ toLE 1 k.alg
    ++ toLE 1 (s.depth0 c) ++ toLE 6 k.epoch
    ++ hashOf 0x03 48 (if aPublic k.attr then k.material else ascii "KV-KCV" ++ k.material)
    ++ Desc.param c.desc 104 16 ++ fill 24 0

def checkKeyAttest (_ : State) (c : Cmd) : Nat :=
  let d : Desc := c.desc
  let bufs := [.absent, .out 4915, .absent, .absent]
  firstFail [
    (r92 d true false bufs != ccOk, r92 d true false bufs),
    (!d.pz 120 8, ccFormatInvalid),
    (c.spentKey, ccCounterExhausted)]

def workKeyAttest (s : State) (c : Cmd) : Cmd × State :=
  match c.key0 with
  | none => (c.fail ccFormatInvalid, s)
  | some k =>
    let st := s.statement c k
    let (iter, pq) := Config.mldsaSign 0x5A s.ks.idPq false (ascii "KVATTEST") st (c.carry.drop 72)
    match ecdsaSign 0x41 s.ks.idEc c.carry (hashOf 0x03 48 st) with
    | none => (c.fail ccInputRange, s)
    | some ec =>
      if iter = 0 ∨ 64 < iter then
        (c.fail ccSignRetryLimit, (s.bump R.LU_CNT_ITER_COUNT 64).bump R.LU_CNT_RETRY_COUNT)
      else
        (c.emit 1 0 (st ++ fitTo 96 ec ++ fitTo 4627 pq),
          (s.bump R.LU_CNT_ITER_COUNT iter).bump R.LU_CNT_SIGN_COUNT)

/-- The two computations of the ECDSA signature agree (R156). -/
def attestAgrees (s : State) (c : Cmd) : Bool :=
  match c.key0 with
  | none => true
  | some k => ecdsaAgrees 0x41 s.ks.idEc c.carry (hashOf 0x03 48 (s.statement c k))

def opKeyAttest : OpSpec :=
  { check := checkKeyAttest, work := workKeyAttest, pre := fun _ => 104, compares := true, agrees := attestAgrees }

/-! ## The commands of the table -/

def execKeyGenerate (cmd : Nat) (err : Bool) (s : State) : Host.Outcome State Fault Refusal :=
  ok (s.runStep 0x0400 opKeyGenerate cmd (errOf err))
def execKeyDerive (cmd : Nat) (err : Bool) (s : State) : Host.Outcome State Fault Refusal :=
  ok (s.runStep 0x0401 opKeyDerive cmd (errOf err))
def execKeyRewrap (cmd : Nat) (err : Bool) (s : State) : Host.Outcome State Fault Refusal :=
  ok (s.runStep 0x0402 opKeyRewrap cmd (errOf err))
def execKeyInvalidate (cmd : Nat) (err : Bool) (s : State) : Host.Outcome State Fault Refusal :=
  ok (s.runStep 0x0403 opKeyInvalidate cmd (errOf err))
def execKeyComponent (cmd : Nat) (err : Bool) (s : State) : Host.Outcome State Fault Refusal :=
  ok (s.runStep 0x0404 opKeyComponent cmd (errOf err))
def execKeyWrapExport (cmd : Nat) (err : Bool) (s : State) : Host.Outcome State Fault Refusal :=
  ok (s.runStep 0x0408 opKeyWrapExport cmd (errOf err))
def execKeyWrapImport (cmd : Nat) (err : Bool) (s : State) : Host.Outcome State Fault Refusal :=
  ok (s.runStep 0x0409 opKeyWrapImport cmd (errOf err))
def execKeyAttest (cmd : Nat) (err : Bool) (s : State) : Host.Outcome State Fault Refusal :=
  ok (s.runStep 0x0410 opKeyAttest cmd (errOf err))

/-! ## Every opcode -/

/-- What each opcode does in its steps. -/
def specOf (op : Nat) : OpSpec :=
  match op with
  | 0x0100 => opPinTranslate
  | 0x0110 => opPinVerifyOffset
  | 0x0111 => opPinVerifyPvv
  | 0x0112 => opPinOffsetGenerate
  | 0x0113 => opPvvGenerate
  | 0x0120 => opCvvGenerate
  | 0x0121 => opCvvVerify
  | 0x0130 => opMacGenerate
  | 0x0131 => opMacVerify
  | 0x0138 => opWagerSeal
  | 0x0140 => opDukptTdes
  | 0x0141 => opDukptAes
  | 0x0150 => opArqc
  | 0x0160 => opKeyblockImport
  | 0x0161 => opKeyblockExport
  | 0x0162 => opTr34Import
  | 0x0168 => opTr34Recover
  | 0x0170 => opDrawSeed
  | 0x0200 => opSymEcb
  | 0x0201 => opSymCbc
  | 0x0202 => opSymCtr
  | 0x0203 => opSymGcm
  | 0x0204 => opSymXts
  | 0x0208 => opSymMacGenerate
  | 0x0209 => opSymMacVerify
  | 0x0280 => opHash
  | 0x0281 => opHashBatch
  | 0x0288 => opHmacGenerate
  | 0x0289 => opHmacVerify
  | 0x0300 => opRsaSign
  | 0x0301 => opRsaDecrypt
  | 0x0302 => opRsaSignLarge
  | 0x0303 => opRsaDecryptLarge
  | 0x0308 => opRsaVerify
  | 0x0310 => opEcdsaSign 0x40
  | 0x0311 => opEcdsaVerify 0x40
  | 0x0312 => opEcdsaSign 0x41
  | 0x0313 => opEcdsaVerify 0x41
  | 0x0318 => opEddsaSign
  | 0x0319 => opEddsaVerify
  | 0x0320 => opEcAgree
  | 0x0330 => opKeygen
  | 0x0340 => opMlkemKeygen
  | 0x0341 => opMlkemEncaps
  | 0x0342 => opMlkemDecaps
  | 0x0350 => opMldsaSign
  | 0x0351 => opMldsa87Sign
  | 0x0358 => opMldsaVerify
  | 0x0359 => opMldsaKeygen
  | 0x0400 => opKeyGenerate
  | 0x0401 => opKeyDerive
  | 0x0402 => opKeyRewrap
  | 0x0403 => opKeyInvalidate
  | 0x0404 => opKeyComponent
  | 0x0408 => opKeyWrapExport
  | 0x0409 => opKeyWrapImport
  | _ => opKeyAttest

end Sys2Proof.Machine
end

