-- ==== Sys2Proof/Machine/Traverse.lean ====
section
/-! DEFINITION. Observation (R28, R47, R57, R72, R401), admission (R73 to R77, R205), held work and its release
(R78, R80), and order groups (R81). -/

namespace Sys2Proof.Machine

/-! ## Sessions (R245, R246) -/

/-- Bits of the roles a session holds. -/
def roleSO : Nat := 0
def roleKC : Nat := 1
def roleAud : Nat := 2
def roleOper : Nat := 3

/-- An open session of this scope holds the role. -/
def State.holds (s : State) (scope role : Nat) : Bool :=
  let se := Tab.get {} s.sessions scope
  se.st == 2 && bit se.held role

/-- The scope of the device. -/
def devSession : Nat := 1024

/-! ## Admission checks 1 to 6 (R73, R93, R101, R104, R110, R182, R208, R221, R251) -/

/-- The policy word of a slice at this boundary. -/
def State.policyOf (s : State) (n : Nat) : Nat := s.view (0x031000 + 4 * n)

/-- The slice policy forbids the command (R93, R101, R104, R110). -/
def policyForbids (d : Desc) (policy : Nat) : Bool :=
  let op := d.opcode
  let trans (fi fo pan2 : Nat) : Bool :=
    (fo == 1 && fi != 1 && !bit policy 0) || (fi == 4 && fo != 4 && !bit policy 1) || (pan2 != 0 && !bit policy 2)
  if op = 0x0100 then trans (d.pb 104) (d.pb 105) (d.pb 107)
  else if op = 0x0140 then trans (d.pb 104) (d.pb 105) 0
  else if op = 0x0141 then trans 4 (d.pb 104) 0
  else if op = 0x0112 ∨ op = 0x0113 then !bit policy 3
  else if op = 0x0138 ∨ op = 0x0170 then !bit policy 7
  else false

/-- The opcode needs the Datum hierarchy though it may name no key: it writes or attests keys (R251). -/
def needsDatum (d : Desc) : Bool :=
  let op := d.opcode
  isKeyOp op || op == 0x0330 || op == 0x0340 || op == 0x0341 || op == 0x0359

/-- The lifecycle, Datum or debug state forbids the command (R182, R183, R228, R234, R236, R251). -/
def State.stateForbids (s : State) (d : Desc) : Bool :=
  let keyed := d.key0 != 0 || d.key1 != 0
  s.get R.LC_STATE_CODE != 3 || s.lc.refuse
    || (!s.on R.KS_STS_DATUM && (keyed || isKeyOp d.opcode))
    || (s.on R.KS_STS_DEBUG_SUSP && (keyed || needsDatum d))

/-- A Key Custodian session is missing for the command as far as admission can tell (R208). -/
def State.needsCustodian (s : State) (n : Nat) (d : Desc) : Bool :=
  !s.holds n roleKC && (d.opcode == 0x0404 || (d.opcode == 0x0403 &&
    match s.heldAttr d.key0 with
    | some k => aRole k.attr == roleWrap || aRole k.attr == roleDerive
    | none => false))

/-- The command's output would be an ephemeral key (R201, R221). -/
def makesEphemeral (d : Desc) : Bool :=
  let op := d.opcode
  op == 0x0320 || op == 0x0341 || op == 0x0342 || op == 0x0168
    || ((op == 0x0401 || op == 0x0160 || op == 0x0409) && hEphem d.key0)

/-- Check 2 on a member that is not the slice's home (R362): a persistent key made or invalidated, or a key with a
nonzero LIMIT named, as far as admission can tell. -/
def State.homeForbids (s : State) (n : Nat) (d : Desc) : Bool :=
  let op := d.opcode
  let makes := op == 0x0400 || op == 0x0404 || op == 0x0330 || op == 0x0340 || op == 0x0359
    || ((op == 0x0401 || op == 0x0160 || op == 0x0409) && !hEphem d.key0)
  let limited (h : Nat) : Bool := h != 0 && match s.heldAttr h with
    | some k => aLimit k.attr != 0
    | none => false
  s.notHome n && (makes || (op == 0x0403 && !hEphem d.key0) || limited d.key0 || limited d.key1)

/-- The draw of the slice's new EK_s waits (R221). -/
def State.ekMissing (s : State) (n : Nat) : Bool := (s.slice n).ekWait || s.rng.waiting.any (fun e => e.2 == .ephemeral n)

/-- Checks 1 to 6 of R73; the code of the first that fails. -/
def State.earlyChecks (s : State) (n : Nat) (d : Desc) (cost : Cost) : Option Nat :=
  let bad (h which : Nat) : Bool := h != 0 && match s.heldAttr h with
    | some k => !keyUse d which k.attr
    | none => false
  if s.on R.TRV_STS_UPDATE then some ccUpdateHold
  else if s.stateForbids d || policyForbids d (s.policyOf n) || s.homeForbids n d then some ccPolicyDenied
  else if s.net.lapsed.contains n && (d.key0 != 0 || d.key1 != 0) then some ccPolicyDenied
  else if s.needsCustodian n d then some ccQuorumRequired
  else
    match (if d.key0 = 0 then none else s.revCheck n d.key0), (if d.key1 = 0 then none else s.revCheck n d.key1) with
    | some c, _ => some c
    | none, some c => some c
    | none, none =>
      if bad d.key0 0 || bad d.key1 1 then some ccKeyAttrDenied
      else if s.on R.TRV_STS_AUDIT_FULL && (match auditSev d (s.policyOf n) with | some v => decide (2 ≤ v) | none => false) then
        some ccAuditFull
      else if (s.on R.TRV_STS_ENTROPY && cost.rnd != 0) || (s.ekMissing n && makesEphemeral d) then some ccEntropyHold
      else none

/-! ## Checks 7 to 9 and the retry-after (R73, R76) -/

/-- The earliest promise among admitted commands, less the present frame, capped at 255; 0 when there is none. -/
def State.earliest (s : State) (p : Cmd → Bool) : Nat :=
  match ((s.trv.cmds.filter (fun c => !c.isHeld && p c)).map (·.promise)).min? with
  | some m => min 255 (m - s.frameNo)
  | none => 0

/-- Check 8: an entry for one more command of slice `n`; the retry-after when there is none. Where both causes hold the full table's
stands: R76 ranks them nowhere (assumption 83). -/
def State.entryCheck (s : State) (n : Nat) : Option Nat :=
  if s.entries + 1 + s.keptBack 0 resEntry n 16384 > 16384 then some (s.earliest (fun _ => true))
  else if s.inflightOf n + 1 > s.get R.TRV_SLICE_SHARE_CAP n * 16384 / 256 then
    some (s.earliest (fun c => c.slice == n))
  else none

/-- The port a slice uses is in a credit stall that refuses new descriptors (R53). -/
def State.stalled (s : State) (n : Nat) : Bool := if (s.slice n).port = 0 then s.hif.lostA else s.hif.lostB

/-- What Traverse decides of a command. -/
inductive Verdict where
  | refuse (code aux : Nat)
  /-- NOT_ADMITTED by check 7, 8 or 9 (R78) -/
  | wait (aux : Nat)
  | accept (cost : Cost) (delay : Nat)

/-- Checks 1 to 9 of R73 on a command observed or released in the present frame; `entry` when it holds its entry. -/
def State.decide_ (s : State) (n : Nat) (d : Desc) (entry : Bool) : Verdict :=
  let cost := s.price n d (auditSev d (s.policyOf n)).isSome
  match s.earlyChecks n d cost with
  | some code => .refuse code 0
  | none =>
    if s.on R.TRV_STS_BROWNOUT then .wait 0
    else if s.stalled n then .wait 16
    else
      match (if entry then none else s.entryCheck n) with
      | some aux => .wait aux
      | none =>
        match s.firstFit cost (spanOf d) (dmaxOf d) s.frameNo n (s.slice n).port with
        | some k => .accept cost k
        | none => .wait (s.retryAfter cost (spanOf d) (dmaxOf d) s.frameNo n (s.slice n).port)

/-! ## Continuation handles (R57, R169, R170) -/

/-- A continuation descriptor's handle names a valid entry of the slice and generation. -/
def State.contOk (s : State) (n : Nat) (d : Desc) : Bool :=
  let h := d.paramN 104 8
  let sl := s.slice n
  d.cls == 0x2A && bits h 63 54 == n && bits h 53 46 == sl.gen && bits h 41 32 == 0
    && (match sl.cont.find? (fun e => e.1 == bits h 45 42) with
      | some e => e.2.1 == bits h 31 0
      | none => false)

/-! ## Admission (R77, R205) -/

/-- The usage value of a key with a usage leaf, assigned in admission order (R205). -/
def State.assignUse (s : State) (h : Nat) : Nat × State :=
  if h = 0 ∨ (s.leafOf .usage h).isNone then (0, s) else s.assign .usage h

/-- The invocation value of an encryption in GCM or CTR mode (R133, R134). -/
def State.assignInv (s : State) (d : Desc) : Nat × State :=
  if d.opcode = 0x0203 ∧ d.pb 104 = 0 then s.assign .gcm d.key0
  else if d.opcode = 0x0202 ∧ d.pb 104 = 0 then s.assign .ctr d.key0
  else (0, s)

/-- The promise frame, or in an order group the effective one (R77, R81). -/
def State.promiseFrame (s : State) (c : Cmd) : Nat :=
  let p := s.frameNo + promiseOf c.desc
  let g := Desc.group c.desc
  if g = 0 then p
  else s.trv.cmds.foldl (fun m e =>
    if !e.isHeld && e.slice == c.slice && e.gen == c.gen && Desc.group e.desc == g then max m e.promise else m) p

/-- An entry becomes an admitted command with its reservations, counter values and promise; a key named twice gives one usage
value (R205). -/
def State.admitCmd (s : State) (c : Cmd) (cost : Cost) (k : Nat) : State :=
  let d : Desc := c.desc
  let n := c.slice
  let f := s.frameNo
  let (u0, s1) := s.assignUse d.key0
  let (u1, s2) := if d.key1 = d.key0 then (u0, s1) else s1.assignUse d.key1
  let (iv, s3) := s2.assignInv d
  let se := Tab.get {} s.sessions n
  let c1 : Cmd := { c with
    st := .active, seq := s.trv.nextSeq, f := f, d := k, p := promiseOf d, s := spanOf d, cost := cost,
    promise := s.promiseFrame c, rndLeft := cost.rnd, policy := s.policyOf n,
    custodian := s.holds n roleKC, sessId := se.id,
    custodians := (se.signIns.filter (fun x => x.role == roleKC)).map (fun x => (x.officer, x.tk)),
    rev := s.revView n, use0 := u0, use1 := u1, inv := iv, fix := if iv = 0 then [] else s.fix,
    base := f + k, step := 0, due := f + k + spanOf d + 1,
    key0 := if d.opcode = 0x0403 then s.heldAttr d.key0 else none }
  let s4 := (s3.putCmd c1).bookAll cost (spanOf d) (f + k) n (s.slice n).port
  let s5 := { s4 with trv := { s4.trv with nextSeq := s.trv.nextSeq + 1 } }
  let s6 := if d.continue_ then
      s5.modSlice n (fun x => { x with cont := x.cont.del (bits (d.paramN 104 8) 45 42) })
    else s5
  s6.bump R.TRV_CNT_ADMIT_COUNT

/-- A new entry of the in-flight table, held or about to be admitted. -/
def State.newEntry (s : State) (n ring slot : Nat) (d : Desc) : Cmd × State :=
  let c : Cmd := { id := s.trv.nextId, slice := n, gen := d.gen, ring := ring, slot := slot, desc := d, st := .held,
                   obs := s.frameNo, dep := d.depCount, release := s.frameNo + d.notBefore }
  (c, { s with trv := { s.trv with nextId := s.trv.nextId + 1, cmds := s.trv.cmds ++ [c] } })

/-- Whether an opcode and its options are licensed by GLB_CAP (R47, R256). -/
def State.licensed (s : State) (d : Desc) : Bool :=
  s.classPresent d.cls && ((d.opcode != 0x0138 && d.opcode != 0x0170) || s.on R.GLB_CAP1_SEAL)

/-- A descriptor that passed R47 to step 2 breaks step 3 (R47, R56, R57). -/
def State.malformed (s : State) (n ring : Nat) (d : Desc) : Bool :=
  let size := (Slice.ring (s.slice n) ring).size
  !d.resvOk || (opcodeClass d.opcode).isNone || opcodeClass d.opcode != some d.cls || !s.licensed d
    || d.succs.any (fun i => decide (size ≤ i))
    || (List.range 4).any (fun b => d.bufLen b == 0 && d.bufAddr b != 0)
    || (d.resumable && !isBulk d)
    || (d.continue_ && !s.contOk n d)

/-- One descriptor observed: R47, then a hold, an admission or a refusal (R72, R73, R78). -/
def State.observe (s : State) (n ring slot : Nat) (d : Desc) : State :=
  if d.statusAddr % 32 ≠ 0 then
    (s.modSlice n (fun x => { x with badDesc := (x.badDesc + 1) % 2 ^ 32 })).hifErr R.HIF_ERR_STS_BAD_DESC n ring
  else if d.gen ≠ (s.slice n).gen then
    (s.modSlice n (fun x => { x with staleDrops := (x.staleDrops + 1) % 2 ^ 32 })).hifErr R.HIF_ERR_STS_STALE n ring
  else if s.malformed n ring d then s.refuse n ring d ccFormatInvalid 0
  else if (List.range 4).any (fun b => decide (16777216 < d.bufLen b)) then s.refuse n ring d ccLengthLimit 0
  else
    let turnAway (code aux : Nat) : State := (s.bump R.TRV_CNT_REFUSE_COUNT).refuse n ring d code aux
    if d.depCount ≠ 0 ∨ d.notBefore ≠ 0 then
      match s.entryCheck n with
      | some aux => turnAway ccNotAdmitted aux
      | none => (s.newEntry n ring slot d).2
    else
      match s.decide_ n d false with
      | .refuse code aux => turnAway code aux
      | .wait aux => turnAway ccNotAdmitted aux
      | .accept cost k =>
        let (c, t) := s.newEntry n ring slot d
        t.admitCmd c cost k

/-! ## Observation (R28, R72, R401) -/

/-- Every descriptor from the head up to count `t` is held. -/
def Ring.holdsTo (r : Ring) (t : Nat) : Bool :=
  (List.range ((t + 65536 - r.head) % 65536)).all (fun i => r.held.any (fun e => e.1 == (r.head + i) % 65536))

/-- Descriptors held without a gap from the head on, at most `m`. -/
def Ring.heldRun (r : Ring) : Nat → Nat → Nat
  | 0, i => i
  | m + 1, i => if r.held.any (fun e => e.1 == (r.head + i) % 65536) then Ring.heldRun r m (i + 1) else i

/-- The doorbells observable at this boundary: the last one whose descriptors are all held, or before a failed
fetch the descriptors held (R28, R401). -/
def Ring.atBoundary (r : Ring) : Ring :=
  match r.failed with
  | some f =>
    { r with ready := (r.head + Ring.heldRun r ((f + 65536 - r.head) % 65536) 0) % 65536, bells := [], belled := false }
  | none =>
    match (r.bells.zipIdx.filter (fun e => r.holdsTo e.1)).getLast? with
    | some (t, i) => { r with ready := t, bells := r.bells.drop (i + 1), belled := false }
    | none => { r with belled := false }

/-- A ring has descriptors to observe. -/
def Ring.waiting (r : Ring) : Bool := r.en && !r.fault && r.head != r.ready

/-- The next ring to take from, at or after ring `i` (R72). -/
def Slice.nextRing (sl : Slice) (i : Nat) : Option Nat :=
  ((List.range 16).map (fun k => (i + k) % 16)).find? (fun r => (sl.ring r).waiting)

/-- One descriptor of slice `n` taken from ring `r`. -/
def State.takeOne (s : State) (n r : Nat) : State :=
  let rg := (s.slice n).ring r
  let d := Tab.get (fill 128 0) rg.held rg.head
  let t := s.modSlice n (fun x => x.modRing r (fun g => { g with
    head := (g.head + 1) % 65536, held := g.held.del g.head }))
  t.observe n r (rg.head % rg.size) d

/-- Observation under way: the state, descriptors left of the 2,048, and the next ring of each slice. -/
structure Obs where
  s : State
  left : Nat
  next : Tab Nat

/-- One descriptor of a slice observed, if it has one and the budget lasts. -/
def Obs.one (o : Obs) (n : Nat) : Obs :=
  if o.left = 0 then o
  else
    match (o.s.slice n).nextRing (Tab.get (o.s.frameNo % 16) o.next n) with
    | none => o
    | some r => { s := o.s.takeOne n r, left := o.left - 1, next := o.next.ins n ((r + 1) % 16) }

/-- `k` descriptors of a slice. -/
def Obs.many (n : Nat) : Nat → Obs → Obs
  | 0, o => o
  | k + 1, o => Obs.many n k (o.one n)

/-- A slice is READY with descriptors waiting. -/
def State.slicePending (s : State) (n : Nat) : Bool :=
  (s.slice n).st == .ready && ((s.slice n).nextRing 0).isSome

/-- The rounds of pass 2. -/
def Obs.rounds (ns : List Nat) : Nat → Obs → Obs
  | 0, o => o
  | k + 1, o =>
    if o.left = 0 ∨ ns.all (fun n => !o.s.slicePending n) then o
    else Obs.rounds ns k (ns.foldl (fun p n => p.one n) o)

/-- Slices in the order of a boundary: from FRAME_NO mod 1,024 upward, wrapping. -/
def State.sliceOrder (s : State) : List Nat :=
  let k := s.frameNo % 1024
  s.sliceNos.filter (fun n => decide (k ≤ n)) ++ s.sliceNos.filter (fun n => decide (n < k))

/-- A ring whose failed descriptor is next enters fault (R401), in a slice of any state; where nothing is observed, at the
boundary after the failure. A ring whose earlier descriptors the limit of R28 leaves enters fault once they are observed
(assumption 67). -/
def State.ringFaults (s : State) : State :=
  let stopped := !s.inService || s.on R.TRV_CTL_OBS_STOP || s.on R.TRV_STS_FATAL
  s.sliceNos.foldl (fun t n =>
    (List.range 16).foldl (fun u r =>
      let rg := (u.slice n).ring r
      if rg.failed.isSome ∧ !rg.fault ∧ (rg.head = rg.ready ∨ stopped ∨ (u.slice n).st ≠ .ready) then
        (u.modSlice n (fun x => x.modRing r (fun g => { g with
          fault := true, failed := none, held := [] }))).hifErr R.HIF_ERR_STS_RING_FAULT n r
      else u) t) s

/-- Observation at the boundary that begins the present frame (R72). BACKLOG tells of descriptors the limit left over, and
reads 0 while nothing is observed (assumption 67). -/
def State.observeAll (s : State) : State :=
  let s0 := { s with hif := { s.hif with slices := s.hif.slices.mapv {} (fun x =>
    { x with rings := x.rings.mapv {} Ring.atBoundary }) } }
  if !s0.inService || s0.on R.TRV_CTL_OBS_STOP || s0.on R.TRV_STS_FATAL then
    s0.ringFaults.set R.TRV_STS_BACKLOG 0 0
  else
    let ns := s0.sliceOrder.filter s0.slicePending
    let o0 : Obs := { s := s0, left := 2048, next := [] }
    let o1 := ns.foldl (fun o n => Obs.many n (min o.left (8 * s0.get R.TRV_SLICE_SHARE_GUAR n)) o) o0
    let o2 := Obs.rounds ns 2048 o1
    let s1 := o2.s.ringFaults
    if ns.any s1.slicePending then (s1.set R.TRV_STS_BACKLOG 0 1).trvErr R.TRV_ERR_STS_BACKLOG
    else s1.set R.TRV_STS_BACKLOG 0 0

/-! ## Held work (R78, R80) -/

/-- A held command whose delay has passed and whose predecessors have finished is released. -/
def State.releaseReady (s : State) (c : Cmd) : Bool :=
  c.st == .held && c.dep == 0 && decide (c.release ≤ s.frameNo)

/-- A released command priced and checked in the present frame (R78). While UPDATE is set it stays released. -/
def State.reprice (s : State) (id : Nat) : State :=
  match s.cmd? id with
  | none => s
  | some c =>
    if c.st ≠ .released ∨ s.on R.TRV_STS_UPDATE ∨ s.on R.TRV_STS_FATAL then s
    else if Desc.continue_ c.desc && !s.contOk c.slice c.desc then s.refuseCmd c ccFormatInvalid 0
    else
      match s.decide_ c.slice c.desc true with
      | .refuse code aux => s.refuseCmd c code aux
      | .wait aux =>
        if c.tries + 1 ≥ 65 then s.refuseCmd c ccNotAdmitted aux else s.putCmd { c with tries := c.tries + 1 }
      | .accept cost k => s.admitCmd c cost k

/-- HELD_RELEASE between two boundaries: a held command whose delay will have passed at the next boundary, and whose
predecessors have finished, is released for it; that boundary's event 4 prices it (R9, R78). -/
def State.releaseOne (s : State) (id : Nat) : State :=
  match s.cmd? id with
  | none => s
  | some c =>
    if c.st = .held ∧ c.dep = 0 ∧ c.release ≤ s.frameNo + 1 then s.putCmd { c with st := .released, release := s.frameNo + 1 }
    else s

/-- An element put in order before the first one it precedes. -/
def insertBy {α : Type} (lt : α → α → Bool) (x : α) : List α → List α
  | [] => [x]
  | y :: ys => if lt x y then x :: y :: ys else y :: insertBy lt x ys

/-- A list in order; equal elements keep their places. -/
def sortBy {α : Type} (lt : α → α → Bool) (l : List α) : List α := l.foldl (fun acc x => insertBy lt x acc) []

/-- Event 4: releases, in order of release, then of observation (R78). What is released is decided as the event begins: a
command whose DEP_COUNT a refusal of this event brings to 0 is released at the next boundary (assumption 67). -/
def State.releaseAll (s : State) : State :=
  let t := s.modCmds (fun cs => cs.map (fun c =>
    if s.releaseReady c then { c with st := .released, release := s.frameNo } else c))
  let ids := (sortBy (fun (a b : Cmd) => decide (a.release < b.release) || (a.release == b.release && decide (a.id < b.id)))
    (t.trv.cmds.filter (fun c => c.st == .released))).map (·.id)
  ids.foldl (fun u id => u.reprice id) t

/-- The frame from which a held command's wait for its predecessors is counted (R80). -/
def Cmd.waitFrom (c : Cmd) : Nat := if Desc.notBefore c.desc > 4096 then c.obs + Desc.notBefore c.desc else c.obs

/-- A held command whose dependences have not resolved in 4,096 frames is refused (R80). -/
def State.expireOne (s : State) (id : Nat) : State :=
  match s.cmd? id with
  | none => s
  | some c =>
    if c.st = .held ∧ c.dep ≠ 0 ∧ c.waitFrom + 4096 ≤ s.frameNo then
      (s.refuseCmd c ccNotAdmitted 0).trvErr R.TRV_ERR_STS_HOLD_EXPIRE
    else s

def State.expireHolds (s : State) : State :=
  (s.trv.cmds.map (·.id)).foldl (fun t id => t.expireOne id) s

/-! ## The commands of the table -/

/-- HELD_RELEASE (R78). -/
def execHeldRelease (cmd : Nat) (s : State) : Host.Outcome State Fault Refusal := ok (s.releaseOne cmd)

/-- HOLD_EXPIRE (R80). -/
def execHoldExpire (cmd : Nat) (s : State) : Host.Outcome State Fault Refusal := ok (s.expireOne cmd)

end Sys2Proof.Machine
end

