-- ==== Sys2Proof/Machine/KeyPhase.lean ====
section
/-! DEFINITION. The frame of a command: the key phase (R69, R193 to R198, R205), the grants of a boundary with the
recomputations (R25, R26, R30, R31, R71, R151), the end of a frame, and the write phase (R49, R77). -/

namespace Sys2Proof.Machine

/-! ## The key phase -/

def Cmd.keyAt (c : Cmd) (i : Nat) : Option KeyRec := if i = 0 then c.key0 else c.key1
def Cmd.setKey (c : Cmd) (i : Nat) (k : KeyRec) : Cmd := if i = 0 then { c with key0 := some k } else { c with key1 := some k }
def Desc.keyN (d : Desc) (i : Nat) : Nat := if i = 0 then d.key0 else d.key1

/-- The opcode pages the head of a long key only (R210). -/
def headOnly (d : Desc) : Bool := d.opcode == 0x0402 || d.opcode == 0x0403

/-- A key's place in least-recently-used order renewed. -/
def State.krcTouch (s : State) (k : KeyRec) : State :=
  { s with ks := { s.ks with krc := s.ks.krc.filter (fun x => x.handle != k.handle) ++ [k] } }

/-- Reservations of one key that is not paged given back (R30, R193). -/
def State.keyUnused (s : State) (dose : Bool) : State :=
  let t := (s.toPool s.frameNo resKp 1).toPool s.frameNo resCl 4
  if dose then t.toPool t.frameNo resDose 1 else t

/-- Keys that the key phase has still to page: their units are taken for it (R69, R193). -/
def Cmd.pagedKeys (c : Cmd) : Nat :=
  ((List.range c.cost.k).filter (fun i => Desc.keyN c.desc i != 0 && (c.keyAt i).isNone)).length

/-- The key phase of one key begins: the KRC, the second tier, else a host read (R193). -/
def State.pageStart (s : State) (c : Cmd) (i : Nat) : Cmd × State :=
  let h := Desc.keyN c.desc i
  if i ≥ c.cost.k then (c, s)
  else if h = 0 ∨ (c.keyAt i).isSome then (c, if c.repeating then s else s.keyUnused true)
  else
    match s.inKrc h with
    | some k =>
      let t := s.krcTouch k
      (c.setKey i k, (if c.repeating then t else t.keyUnused false).bump R.KS_CNT_HIT_COUNT)
    | none =>
      match s.inTier h with
      | some k => ({ c.setKey i k with opened := c.opened ++ [i] }, s)
      | none => ({ c with want := c.want ++ [4 + i] }, s)

/-- The inputs that the key phase reads: every input buffer, of BUF[0] in a bulk command the first step's part
(R54). -/
def Cmd.inputTargets (c : Cmd) : List Nat :=
  (List.range 4).filterMap (fun b =>
    if Desc.bufLen c.desc b = 0 ∨ Desc.isOut c.desc b then none
    else if b = 0 ∧ isBulk c.desc then some 8 else some b)

/-- Lanes that serve blocks in the present frame: those present, but for those whose forced mask reseed waits (R221). -/
def State.lanesUp (s : State) : Nat :=
  maskOf (fun l => s.on R.CL_LANE_STS_PRESENT l && !s.rng.forced.contains l) 32

/-- Lanes chosen by a free value: one, or any among those given (R122; assumption 69). -/
def pickLanes (v up : Nat) (one : Bool) : Nat :=
  let ls := setBits 32 up
  if one ∨ v &&& up = 0 then (match ls[v % max 1 ls.length]? with | some l => 2 ^ l | none => 0) else v &&& up

/-- The lanes a command may run on: in a repeat another than the one whose mask generator voided it (R126). -/
def State.lanesFor (s : State) (c : Cmd) : Nat :=
  match c.avoid with
  | some l => maskOf (fun i => bit s.lanesUp i && i != l) 32
  | none => s.lanesUp

/-- Keys that a running key phase opens on a lane: second-tier copies and host blobs (R193). -/
def Cmd.coldUnits (c : Cmd) : Nat := (c.opened ++ c.want.filter (fun t => t == 4 || t == 5)).length

/-- The keys of a command that a repeated key phase pages: those that neither the command nor the KRC holds (R71, R193). -/
def State.coldKeys (s : State) (c : Cmd) : Nat :=
  ((List.range c.cost.k).filter (fun i =>
    Desc.keyN c.desc i != 0 && (c.keyAt i).isNone && (s.inKrc (Desc.keyN c.desc i)).isNone)).length

/-- The key phase of a command begins in the present frame, with the paging units of `n` keys; its blocks run on a lane that a free
value chooses (R122). -/
def State.keyPhaseStart (s : State) (c : Cmd) (n : Nat) : State :=
  let (v, s0) := s.fresh
  let (c1, s1) := s0.pageStart { c with units := n } 0
  let (c2, s2) := s1.pageStart c1 1
  s2.putCmd { c2 with
    want := c2.want ++ c2.inputTargets, granted := true, ran := false, starved := false
    lanes := if c2.coldUnits ≠ 0 then pickLanes v (s2.lanesFor c2) true else 0, hashes := 0 }

/-- A second-tier line read for a command in its key phase is poisoned: T2_ERR, and the key is paged from its host blob
in the same key phase (R291). -/
def State.tierPoison (s : State) (id : Nat) : State :=
  match s.cmd? id with
  | none => s.ksFault R.KS_ERR_STS_T2_ERR 0 0
  | some c =>
    let t := s.ksFault R.KS_ERR_STS_T2_ERR c.slice 0
    match c.opened with
    | [] => t
    | i :: rest =>
      if c.st ≠ .active ∨ c.step ≠ 0 then t
      else
        let h := Desc.keyN c.desc i
        let u := { t with ks := { t.ks with tier2 := t.ks.tier2.filter (fun k => k.handle != h) } }
        let c1 := if i = 0 then { c with key0 := none } else { c with key1 := none }
        u.putCmd { c1 with opened := rest, tierFail := true, want := c1.want ++ [4 + i] }

/-- The host blob that stands for a failed second-tier page has not come in the frame. -/
def Cmd.pageLate (c : Cmd) : Bool := c.tierFail && (c.want.contains 4 || c.want.contains 5)

/-- The energy of a key phase, metered for the command: a free value, at most the Dose unit of each key it holds one for; the rest of
those units goes to the unused pool (R33, R342). -/
def State.pageEnergy (s : State) (c : Cmd) : Cmd × State :=
  let (v, t) := s.fresh
  let nj := v % (100 * c.units + 1)
  let (c1, u) := t.meter c nj
  ({ c1 with units := 0 }, u.toPool u.frameNo resDose (c.units - ceilDiv nj 100))

/-- A detected memory error under R31 in a key phase: it repeats in the next frame, drawing on R30, and the execution steps follow it
(R291). One in a repeated key phase ends the command with `code`. A key whose second-tier copy was to be opened is paged again. -/
def State.pageAgain (s : State) (c : Cmd) (code : Nat) : State :=
  let (c0, s0) := s.pageEnergy c
  if c.repeats ≥ 1 then s0.integrity c0 code (s0.frameNo + 1)
  else
    let c1 := { c0 with
      key0 := if c.opened.contains 0 then none else c0.key0, key1 := if c.opened.contains 1 then none else c0.key1
      repeats := 1, repeating := true, tierFail := false, granted := false, ran := true, want := [], failed := [], inputs := []
      opened := [], tokens := 0, ahead := 0, base := c.base + 1, due := c.due + 1 }
    (if isBulk c.desc then s0 else s0.releaseRest c).putCmd c1

/-- What the key store learns from a key it pages (R187). -/
def State.learnPaged (s : State) (k : KeyRec) : State :=
  let n := hSlice k.handle
  let t := if s.ks.known.any (fun x => x.handle == k.handle) then s
    else s.learn k.handle k.pidx k.pgen (s.depthOf n k.pidx k.pgen) 0 (slotsOf k.mlen)
  if Tab.get 0 (t.domain n).gens (hIndex k.handle) = 0 then
    t.modDomain n (fun x => { x with gens := Tab.put 0 x.gens (hIndex k.handle) (hGen k.handle) })
  else t

/-- The key phase of one key ends: the second tier's copy or the host blob opened with the checks of R194, the
attribute check deferred from admission (R193). A key found in the KRC is paged by neither. In a repeat a page that fails gives
SLOT_INTEGRITY (R71), and so does a lost epoch leaf (R207). What KEY_INVALIDATE, or a long key of KEY_REWRAP, opens is not placed in the KRC (R210). -/
def State.pageEnd (s : State) (c : Cmd) (i : Nat) : Cmd × State :=
  let d : Desc := c.desc
  let h := d.keyN i
  if i ≥ c.cost.k ∨ h = 0 ∨ c.code ≠ ccOk then (c, s)
  else
    let fit (ok : Bool) (c : Cmd) : Cmd := if ok then c else { c with code := ccKeyAttrDenied }
    let bad (code : Nat) : Cmd := { c with code := if c.repeating then ccSlotIntegrity else code }
    let placed (t : State) (k : KeyRec) : State :=
      if d.opcode = 0x0403 ∨ (headOnly d ∧ k.mlen > 32) then t else t.krcPlace k
    match c.keyAt i with
    | some k =>
      if !c.opened.contains i then (fit (keyUse d i k.attr) c, s)
      else
        let (live, s0) := s.pageLeaf h
        if !live then (bad ccSlotIntegrity, s0)
        else if !hEphem h ∧ !s0.inWindow (hSlice h) k.epoch then (bad ccKeyRevoked, s0)
        else (fit (keyUse d i k.attr && keyAlg d i k.attr k.alg) c,
          ((placed s0 k).countBlocks 4 0).bump R.KS_CNT_T2_COUNT)
    | none =>
      match (if c.failed.contains (4 + i) then none else c.inputs.find? (fun e => e.1 == 4 + i)) with
      | none => (bad ccDmaFault, s)
      | some (_, b) =>
        let (live, s0) := s.pageLeaf h
        if !live then (bad ccSlotIntegrity, s0)
        else match s0.openBlob h c.rev (headOnly d) b with
        | .error code => (bad code, s0)
        | .ok k =>
          let s1 := ((s0.learnPaged k).countBlocks 4 0).bump R.KS_CNT_HOST_COUNT
          (fit (keyUse d i k.attr && keyAlg d i k.attr k.alg) (c.setKey i k), placed s1 k)

/-- The counter windows of a command raised over its values (R205 to R207). -/
def State.raiseWindows (s : State) (c : Cmd) : Cmd × State :=
  let d : Desc := c.desc
  let one (acc : Cmd × State) (e : LeafKind × Nat × Nat × Nat × Nat) : Cmd × State :=
    if e.2.2.1 = 0 then acc
    else
      match acc.2.cover_ e.1 e.2.1 e.2.2.1 e.2.2.2.1 e.2.2.2.2 with
      | (.ok, t) => (acc.1, t)
      | (.exhausted, t) => ({ acc.1 with exhausted := true }, t)
      | (.lost, t) => ({ acc.1 with code := if acc.1.code = ccOk then ccSlotIntegrity else acc.1.code }, t)
  [(LeafKind.usage, d.key0, c.use0, 256, aLimit c.attr0), (LeafKind.usage, d.key1, c.use1, 256, aLimit c.attr1),
   (if d.opcode = 0x0203 then LeafKind.gcm else LeafKind.ctr, d.key0, c.inv, 4096, 0xFFFFFFFF)].foldl one (c, s)

/-- Cipher-lane blocks that the key turned out not to need, released in the execution frames (R68, R30). -/
def State.releaseUnneeded (s : State) (c : Cmd) : Cmd × State :=
  if isRoutine c.desc ∨ c.key0.isNone ∨ c.repeating ∧ !isBulk c.desc then (c, s)
  else
    let need := (execVector c.desc (some c.alg0)).cl
    if need ≥ c.cost.cl then (c, s)
    else
      let t := (List.range c.s).foldl (fun (u : State) i =>
        u.toPool (c.f + c.d + i + 1) resCl (share c.cost.cl c.s (i + 1) - share need c.s (i + 1))) s
      ({ c with cost := { c.cost with cl := need } }, t)

/-- A read outstanding at the end of the frame has failed (R54). -/
def Cmd.timeouts (c : Cmd) : Cmd := { c with failed := c.failed ++ c.want, want := [] }

/-- The key phase of a command ends with its frame: keys, then inputs; a failure ends the command before its first
execution step (R89, R93, R194). A repeated key phase that fails is an outcome of R71. -/
def State.keyPhaseEnd (s : State) (c : Cmd) : State :=
  let c0 := c.timeouts
  let (c1, s1) := s.pageEnd c0 0
  let (c2, s2) := s1.pageEnd c1 1
  let (c3, s3) := s2.raiseWindows c2
  let c4 := if c3.code = ccOk ∧ c3.failed.any (fun t => decide (t < 4 ∨ 8 ≤ t)) then { c3 with code := ccDmaFault } else c3
  let (c5, s6) := s3.pageEnergy c4
  if c5.code ≠ ccOk then
    let c6 := { c5 with stop := true, granted := false, step := 1 }
    let t := (s6.putCmd c6).releaseFrom { c6 with cost := c5.costLeft } (s6.frameNo + 1)
    if c5.repeating ∧ c5.code = ccSlotIntegrity then t.trvErr R.TRV_ERR_STS_RECOMP_FAIL else t
  else
    let (c6, s7) := s6.releaseUnneeded c5
    s7.putCmd { c6 with granted := false, step := 1 }

/-! ## Grants (R25, R26, R30, R31, R71) -/

/-- What a repeating step must take from the unused pool and the reserve. -/
def State.repeatNeeds (s : State) (c : Cmd) : List (Nat × Nat) :=
  (stepNeeds c c.step).map (fun e => (e.1, e.2 - s.heldNow c e.1))

/-- What a repeating command holds of its own in the present frame and does not use there, released (R30). -/
def State.freeOwn (s : State) (c : Cmd) : State :=
  (s.ownLeft c).foldl (fun t e => t.toPool t.frameNo e.1 e.2) s

/-- The frames left up to F+P are fewer than the repeat still needs (R31). -/
def State.cannotFinish (s : State) (c : Cmd) : Bool :=
  decide (c.f + c.p + 1 < s.frameNo + (c.s + 1 - c.step) + 1)

/-- The work of a command is one chain, which always runs on one lane (R122); a recipe takes one lane as well. -/
def oneLane (d : Desc) : Bool :=
  !(d.opcode == 0x0200 || d.opcode == 0x0202 || d.opcode == 0x0203 || d.opcode == 0x0204 || d.opcode == 0x0281
    || (d.opcode == 0x0201 && d.pb 104 == 1))

/-- Lane and hash blocks that the step granted will spend, as far as they are known: none where `opBlocks` gives none. -/
def Cmd.willSpend (c : Cmd) : Nat × Nat :=
  let priced := (share c.cost.cl c.s c.step, share c.cost.hl c.s c.step)
  if isBulk c.desc then priced
  else match opBlocks c with
    | some (a, b) => (min priced.1 (share a c.s c.step), min priced.2 (share b c.s c.step))
    | none => priced

/-- The TU and the lanes that serve the step granted: free values (R121, R122). -/
def State.assignUnits (s : State) (c : Cmd) : Cmd × State :=
  let (v, s1) := s.fresh
  let (w, s2) := s1.fresh
  let (x, s3) := s2.fresh
  let tus := (List.range 64).filter (fun u => s.on R.TU_UNIT_STS_PRESENT u)
  let up := maskOf (fun l => s.on R.HL_LANE_STS_PRESENT l) 32
  ({ c with
      tu := tus.getD (v % max 1 tus.length) 0
      lanes := if c.willSpend.1 = 0 then 0 else pickLanes w (s.lanesFor c) (oneLane c.desc)
      hashes := if c.willSpend.2 = 0 then 0 else pickLanes x up (oneLane c.desc) }, s3)

/-- A step granted: its tokens, its units, the slots of a routine that begins, and the next chunk of a bulk command read (R26,
R54, R150). -/
def State.grantStep (s : State) (c : Cmd) : State :=
  let more := isBulk c.desc && decide (c.step < c.s)
  let (c1, t) := s.assignUnits c
  let u := if isRoutine c.desc && c.step == 1 then t.slotsTake c else t
  u.putCmd { c1 with granted := true, ran := false, starved := false,
                     tokens := share c.cost.dose c.s c.step - c.ahead,
                     want := if more then c.want ++ [8 * (c.step + 1)] else c.want }

/-- The random bytes that a granted step of a repeat draws afresh: what the same step drew in the first attempt, void or not; a step
that had not run draws from the command's outstanding bytes (R34). -/
def Cmd.drawsAgain (c : Cmd) : Nat := if c.drawsAfresh ∧ !isBulk c.desc then c.drew.getD (c.step - 1) 0 else 0

/-- A command in a repeat that waits for the next boundary (R30). -/
def State.repeatWaits (s : State) (c : Cmd) : State :=
  (s.freeOwn c).putCmd { c with base := c.base + 1, due := c.due + 1 }

/-- A step of a repeat: granted when the pool and the reserve hold what it needs, and the reserve of random bytes what
it draws again; else it waits a frame (R30, R221). A re-page that had waited and the first repeated step may share a frame: the
spec does not say how a late re-page shifts the repeat (assumption 67). -/
def State.grantRepeat (s : State) (c : Cmd) : State :=
  if s.cannotFinish c then s.integrity c ccIntegrityFault s.frameNo
  else
    let (s1, c1, bad) := if c.repage.isEmpty then (s, c, false) else s.repages c c.repage
    if bad then s1.integrity c1 ccSlotIntegrity s1.frameNo
    else
      let draws := c1.drawsAgain
      if !c1.repage.isEmpty ∨ s1.rng.fill < s1.outstanding + s1.trv.rndSpent + draws then s1.repeatWaits c1
      else
        match s1.takeAll (s1.repeatNeeds c1) with
        | none => s1.repeatWaits c1
        | some t =>
          let first := isBulk c1.desc || (c1.step == 1 && !c1.drew.isEmpty)
          let u := if first then t.bump R.TRV_CNT_RECOMP_COUNT else t
          { u with trv := { u.trv with rndSpent := u.trv.rndSpent + draws } }.grantStep c1

/-- A repeated key phase: granted when the pool and the reserve hold what its pages need, a unit for each key (R30, R31, R193). Its recomputation is
counted here, for a bulk command with each slipped step (R86). -/
def State.grantPage (s : State) (c : Cmd) : State :=
  if s.cannotFinish c then s.integrity c ccIntegrityFault s.frameNo
  else
    let s0 := s.freeOwn c
    let n := s.coldKeys c
    match s0.takeAll [(resKp, n), (resCl, 4 * n), (resDose, n)] with
    | none => s0.putCmd { c with base := c.base + 1, due := c.due + 1 }
    | some t => (if isBulk c.desc then t else t.bump R.TRV_CNT_RECOMP_COUNT).keyPhaseStart c n

/-- A command whose next step falls in the present frame. -/
def State.dueStep (s : State) (c : Cmd) : Bool :=
  c.st == .active && !c.stop && decide (1 ≤ c.step ∧ c.step ≤ c.s) && s.frameNo == c.base + c.step

/-- Commands in the order of promise, then admission (R71, R151). -/
def State.inOrder (s : State) (p : Cmd → Bool) : List Nat :=
  (sortBy (fun (a b : Cmd) => decide (a.promise < b.promise) || (a.promise == b.promise && decide (a.seq < b.seq)))
    (s.trv.cmds.filter p)).map (·.id)

/-- The order of R151: granted steps in the order of promise and admission, then the granted steps of repeats. -/
def State.routineOrder (s : State) : List Nat :=
  let on (r : Bool) (c : Cmd) : Bool := c.st == .active && c.granted && decide (1 ≤ c.step) && c.repeating == r
  s.inOrder (on false) ++ s.inOrder (on true)

/-- A bulk command without a step: its checks run alone, and LENGTH_LIMIT stands when they pass (R92, R130). -/
def State.emptyBulk (s : State) (c : Cmd) : State :=
  let code := (specOf (Desc.opcode c.desc)).check s c
  s.putCmd { c with code := if code = ccOk then ccLengthLimit else code, stop := true }

/-- A lane whose forced reseed waits serves no block (R221): the other lanes take its part of the frame's blocks, which draws on
the recompute reserve of cipher-lane blocks. A step, or a key phase, whose blocks the reserve does not cover cannot finish in its
frame, nor can one when no lane is left. -/
def State.laneShort (s : State) : State :=
  let up := (setBits 32 s.lanesUp).length
  let all := (List.range 32).countP (fun l => s.on R.CL_LANE_STS_PRESENT l)
  if up = all then s
  else
    (s.inOrder (fun c => c.st == .active && c.granted)).foldl (fun t id =>
      match t.cmd? id with
      | none => t
      | some c =>
        let blocks := if c.step = 0 then 4 * c.coldUnits else share c.cost.cl c.s c.step
        let need := ceilDiv (blocks * (all - up)) all
        if blocks = 0 ∨ (up ≠ 0 ∧ need ≤ t.reserveLeft resCl) then
          { t with trv := { t.trv with rspent := Tab.upd 0 t.trv.rspent resCl (· + need) } }
        else t.putCmd { c with starved := true }) s

/-- The grants of the boundary that begins the present frame: reserved steps, then the repeats in the order of R71, then key
phases; then the schedule of the tiles and lattice units (R151). -/
def State.grants (s : State) : State :=
  let s1 := (s.inOrder (fun c => s.dueStep c && !c.repeating)).foldl (fun t id =>
    match t.cmd? id with | some c => t.grantStep c | none => t) s
  let page (c : Cmd) : Bool := c.st == .active && c.step == 0 && c.base == s1.frameNo
  let s2 := (s1.inOrder (fun c => (s1.dueStep c || page c) && c.repeating)).foldl (fun t id =>
    match t.cmd? id with | some c => if c.step = 0 then t.grantPage c else t.grantRepeat c | none => t) s1
  let s3 := (s2.inOrder (fun c => page c && !c.repeating)).foldl (fun t id =>
    match t.cmd? id with | some c => t.keyPhaseStart c c.pagedKeys | none => t) s2
  let s4 := (s3.inOrder (fun c => c.st == .active && c.step == 1 && c.s == 0 && !c.stop)).foldl (fun t id =>
    match t.cmd? id with | some c => t.emptyBulk c | none => t) s3
  let s5 := s4.laneShort
  { s5 with tiles := { s5.tiles with plan := tilePlan (s5.routineOrder.filterMap s5.cmd?) } }

/-! ## What the units report (R121, R147, R148, R151, R179, R180) -/

/-- The granted commands of a unit kind. -/
def State.unitOps (s : State) (u : Unit_) : List Cmd :=
  s.trv.cmds.filter (fun c => c.st == .active && c.granted && decide (1 ≤ c.step) && unitOf c.desc == u)

/-- BUSY and OPCODE of each TU or lane, from the units assigned to the granted steps and key phases; of several that share a unit in the
frame the last in order shows (assumption 69). -/
def State.reportServed (s : State) (count : Nat) (present busy opc : Field) (alg : Option (Field × (Cmd → Nat)))
    (serves : Cmd → Nat → Bool) : State :=
  let cs := (s.inOrder (fun c => c.st == .active && c.granted)).filterMap s.cmd?
  (List.range count).foldl (fun t u =>
    if !t.on present u then t
    else
      match (cs.filter (fun c => serves c u)).getLast? with
      | none => (t.set busy u 0).set opc u 0
      | some c =>
        let t1 := (t.set busy u 1).set opc u (Desc.opcode c.desc)
        match alg with | some (f, g) => t1.set f u (g c) | none => t1) s

/-- The eighths of a frame laid end to end: the opcode of each (R151). -/
def State.laidEighths (s : State) (lattice : Bool) : List Nat :=
  (s.routineOrder.filterMap s.cmd?).flatMap (fun c =>
    (tileEntries lattice c).flatMap (fun e => List.replicate e.2.2 (Desc.opcode c.desc)))

/-- BUSY and OPCODE of each row or lattice unit. -/
def State.reportRows (s : State) (count : Nat) (present busy opc : Field) (es : List Nat) : State :=
  (List.range count).foldl (fun t r =>
    if !t.on present r then t
    else
      let row := (es.drop (8 * r)).take 8
      (t.put1 busy (!row.isEmpty) r).set opc r (row.getLast?.getD 0)) s

/-- ALG of CL_LANE_STS: the algorithm of the last block. A key phase and the key store's opcodes end with AES, and so do the recipes that
seal a blob last; a translation ends with a block under KEY1, as the verification of a PIN does. The order of the blocks within a recipe
is the image's (assumption 83). -/
def laneAlg (c : Cmd) : Nat :=
  let op := Desc.opcode c.desc
  let of_ (alg : Nat) : Nat := if isTdes alg then 1 else if alg = 0x18 then 2 else 0
  if c.step = 0 ∨ 0x0400 ≤ op ∨ op = 0x0160 ∨ op = 0x0162 ∨ op = 0x0168 then 0
  else if op = 0x0204 then 3
  else if Desc.key1 c.desc ≠ 0 ∧ op ≠ 0x0161 then of_ c.alg1
  else of_ c.alg0

/-- ALG of HL_LANE_STS: the hash of a bulk command, else that of the opcode. -/
def hashAlg (c : Cmd) : Nat :=
  let d : Desc := c.desc
  if d.cls = 0x11 then d.pb 104
  else match d.opcode with
    | 0x0300 | 0x0301 | 0x0302 | 0x0303 | 0x0308 => d.pb 105
    | 0x0312 | 0x0313 | 0x0410 => 0x03
    | 0x0318 | 0x0319 => if c.alg0 = 0x48 then 0x04 else 0x22
    | 0x0350 | 0x0351 | 0x0358 => 0x04
    | _ => 0x02

def State.reportUnits (s : State) : State :=
  let s1 := s.reportServed 64 R.TU_UNIT_STS_PRESENT R.TU_UNIT_STS_BUSY R.TU_UNIT_STS_OPCODE none
    (fun c u => decide (1 ≤ c.step) && c.cost.tu != 0 && c.tu == u)
  let s2 := s1.reportServed 32 R.CL_LANE_STS_PRESENT R.CL_LANE_STS_BUSY R.CL_LANE_STS_OPCODE
    (some (R.CL_LANE_STS_ALG, laneAlg)) (fun c u => bit c.lanes u)
  let s3 := s2.reportServed 32 R.HL_LANE_STS_PRESENT R.HL_LANE_STS_BUSY R.HL_LANE_STS_OPCODE
    (some (R.HL_LANE_STS_ALG, hashAlg)) (fun c u => bit c.hashes u)
  let s4 := s3.reportRows 32 R.PK_TILE_STS_PRESENT R.PK_TILE_STS_BUSY R.PK_TILE_STS_OPCODE (s3.laidEighths false)
  s4.reportRows 16 R.LU_UNIT_STS_PRESENT R.LU_UNIT_STS_BUSY R.LU_UNIT_STS_OPCODE (s4.laidEighths true)

/-! ## The end of a frame -/

/-- A recipe or routine word that failed in one copy is repaired from the other (R90, R153). -/
def State.storeFixed (s : State) (c : Cmd) : State :=
  let op := Desc.opcode c.desc
  match unitOf c.desc with
  | .tu => s.tuErr R.TU_ERR_STS_RECIPE_FIX op c.tu
  | .pk => s.pkErr R.PK_ERR_STS_ROUTINE_FIX op (s.tileOf c.id false)
  | .lu => s.luErr R.LU_ERR_STS_ROUTINE_FIX op (s.tileOf c.id true)
  | _ => s

/-- A word that failed in both copies: the recipe or routine is lost, with every opcode that runs it (R161), and the command ends with INTEGRITY_FAULT. -/
def State.storeLost_ (s : State) (c : Cmd) : State :=
  let op := Desc.opcode c.desc
  let add (st : Store) (w : Nat) : Store := { st with lost := if st.lost.contains w then st.lost else st.lost ++ [w] }
  let t := match unitOf c.desc with
    | .tu => ({ s with tuStore := add s.tuStore op }).tuErr R.TU_ERR_STS_RECIPE_LOST op c.tu
    | .pk => ({ s with pkStore := add s.pkStore (routineOf false op) }).pkErr R.PK_ERR_STS_ROUTINE_LOST op (s.tileOf c.id false)
    | .lu => ({ s with luStore := add s.luStore (routineOf true op) }).luErr R.LU_ERR_STS_ROUTINE_LOST op (s.tileOf c.id true)
    | _ => s
  match t.cmd? c.id with
  | some x => t.putCmd { x with code := if x.code = ccOk then ccIntegrityFault else x.code, outs := [] }
  | none => t

/-- What the environment says of a command's step or key phase; a lane that does not serve it, and a hash lane where it uses none, do not
void it. -/
def stepErrOf (env : FrameEnv) (c : Cmd) : StepErr :=
  match env.krcErrors.find? (fun e => e.1 == c.id) with
  | some (_, w, b) => .krc w b
  | none =>
    match env.maskStuck.find? (fun e => e.2 == c.id && decide (e.1 < 32) && bit c.lanes e.1) with
    | some (l, _) => .mask l
    | none => if env.stageErrors.contains c.id && c.hashes != 0 then .stage else if env.errors.contains c.id then .memory else .none

/-- The step of a command granted in the frame that ends, run now if no command of the table has run it. -/
def State.finishStep (s : State) (env : FrameEnv) (id : Nat) : State :=
  match s.cmd? id with
  | none => s
  | some c =>
    if !c.granted ∨ c.step = 0 then s
    else
      let s1 := if env.storeFix.contains id then s.storeFixed c else s
      let s2 := if env.storeLost.contains id then s1.storeLost_ c else s1
      if env.wrapGuard.contains id then
        let s3 := s2.clErr R.CL_ERR_STS_WRAP_GUARD (laneOf c.lanes) (Desc.opcode c.desc)
        match s3.cmd? id with
        | some x =>
          let (nj, s4) := s3.voidEnergy x
          let (y, s5) := s4.closeStep x nj
          ((s5.slotsClear id).putCmd { y.fail ccIntegrityFault with granted := false, ran := true, stop := true }).releaseFrom x
            (s5.frameNo + 1)
        | none => s3
      else
        let op := Desc.opcode c.desc
        s2.runStep op (specOf op) id (stepErrOf env c)

/-- A bulk command whose next chunk did not arrive ends with DMA_FAULT; the step that has just run writes nothing
(R54). -/
def State.chunkFault (s : State) (id : Nat) : State :=
  match s.cmd? id with
  | none => s
  | some c =>
    let c1 := c.timeouts
    if c1.st ≠ .active ∨ c1.step = 0 then s
    else if isBulk c1.desc ∧ c1.code = ccOk ∧ c1.failed.any (fun t => decide (8 ≤ t)) ∧ c1.step ≤ c1.s then
      let c2 := { c1 with code := ccDmaFault, outs := [], stop := true }
      (s.putCmd c2).releaseFrom c2 (s.frameNo + 1)
    else s.putCmd c1

/-- The key phase of a command ends: one that an error or a late host blob voids repeats (R31, R126, R291), where a re-page that
fails gives SLOT_INTEGRITY (R71). -/
def State.endPage (s : State) (env : FrameEnv) (c : Cmd) : State :=
  match stepErrOf env c with
  | .memory => s.pageAgain c ccIntegrityFault
  | .mask l => (s.maskStuckOn l (Desc.opcode c.desc)).pageAgain { c with avoid := some l } ccIntegrityFault
  | _ => if c.starved then s.pageAgain c ccIntegrityFault else if c.pageLate then s.pageAgain c ccSlotIntegrity else s.keyPhaseEnd c

/-- Mask generators that stuck on lanes where no step or key phase of the frame runs (R126): the reseed is forced all the same, and
the error names no opcode. -/
def State.idleMasks (s : State) (env : FrameEnv) : State :=
  let busy (e : Nat × Nat) : Bool :=
    match s.cmd? e.2 with | some c => c.st == .active && c.granted && stepErrOf env c == .mask e.1 | none => false
  (env.maskStuck.filter (fun e => decide (e.1 < 32) && !busy e)).foldl (fun t e => t.maskStuckOn e.1 0) s

/-- The end of the present frame for every admitted command. -/
def State.endSteps (s : State) (env : FrameEnv) : State :=
  let s0 := s.idleMasks env
  let s1 := (s0.inOrder (fun c => c.st == .active && c.granted && decide (1 ≤ c.step))).foldl
    (fun t id => t.finishStep env id) s0
  let s2 := (s1.inOrder (fun c => c.st == .active && decide (1 ≤ c.step))).foldl (fun t id => t.chunkFault id) s1
  (s2.inOrder (fun c => c.st == .active && c.granted && c.step == 0)).foldl (fun t id =>
    match t.cmd? id with | some c => t.endPage env c | none => t) s2

/-! ## The write phase (R49, R56, R77) -/

/-- The output of a bulk step that ran well, written in the frame after it. -/
def State.writeBulk (s : State) (c : Cmd) : State :=
  let s1 := c.outs.foldl (fun t o => t.postResult c (Desc.bufAddr c.desc o.1 + o.2.1) o.2.2) s
  s1.putCmd { c with
    outs := [], stepsDone := c.step - 1,
    pages := dedup (c.pages ++ c.outs.flatMap (fun o => pagesOf (Desc.bufAddr c.desc o.1 + o.2.1) o.2.2.length)),
    aux := c.aux + c.outs.foldl (fun n o => n + o.2.2.length) 0 }

/-- The keys a command holds (R195). -/
def Cmd.heldKeys (c : Cmd) : List Nat := [c.key0, c.key1].filterMap (fun k => k.map (·.handle))

/-- The keys that commands held in `before` and none holds now leave the KRC if they were invalidated meanwhile (R200). -/
def State.releaseAfter (s : State) (before : List Cmd) : State :=
  let hs := before.flatMap Cmd.heldKeys
  if hs.isEmpty then s else s.sliceNos.foldl (fun t n => t.releaseKeys n hs) s

/-- Writes of the frame that begins: output of bulk steps, then the commands whose write phase it is. -/
def State.writes (s : State) : State :=
  let s1 := (s.inOrder (fun c => c.st == .active && isBulk c.desc && c.code == ccOk && decide (1 < c.step))).foldl
    (fun t id => match t.cmd? id with | some c => t.writeBulk c | none => t) s
  let s2 := (s1.inOrder (fun c => c.st == .active && c.due == s1.frameNo && decide (1 ≤ c.step))).foldl (fun t id =>
    match t.cmd? id with | some c => t.writeOut c | none => t) s1
  s2.releaseAfter s1.trv.cmds

end Sys2Proof.Machine
end

