-- ==== Sys2Proof/Machine/Slices.lean ====
section
/-! DEFINITION. Doorbells and fetches (R27, R40, R44, R401), input reads (R54), slice operations and the slice context
block (R41, R42, R58, R59), log acknowledgement (R60), and the host ports (R36 to R39, R53, R55). -/

namespace Sys2Proof.Machine

/-! ## Doorbells and descriptor fetches -/

/-- A doorbell word that reached ring `r` of slice `n` (R44). One of a disabled slice counts as BAD_DB whatever its
generation (R59). The resv bits of the word are not looked at (R13; assumption 66). -/
def State.doorbell (s : State) (n r word : Nat) : State :=
  let sl := s.slice n
  let rg := sl.ring r
  let tail := bits word 15 0
  if sl.st = .disabled then s.hifErr R.HIF_ERR_STS_BAD_DB n r
  else if bits word 39 32 ≠ sl.gen then
    (s.modSlice n (fun x => { x with staleDrops := (x.staleDrops + 1) % 2 ^ 32 })).hifErr R.HIF_ERR_STS_STALE n r
  else if !rg.en || rg.fault || (sl.st == .resetting && sl.op.isSome) then
    s.hifErr R.HIF_ERR_STS_BAD_DB n r
  else if (tail + 65536 - rg.head) % 65536 > rg.size then
    (s.modSlice n (fun x => x.modRing r (fun g => { g with fault := true, held := [], failed := none }))).hifErr
      R.HIF_ERR_STS_RING_FAULT n r
  else if tail = rg.tail then s
  else
    s.modSlice n (fun x => x.modRing r (fun g => { g with
      tail := tail, belled := true
      bells := (if g.belled then g.bells.dropLast else g.bells) ++ [tail] }))

/-- A write into BAR2 (R40, R62). -/
def State.bar2Write (s : State) (off width value : Nat) : State :=
  let n := off / 0x1000
  let o := off % 0x1000
  if s.hif.dropDoorbells ∨ off ≥ 0x400000 then s
  else if width ≠ 8 ∨ o % 8 ≠ 0 ∨ o ≥ 128 then s.hifErr R.HIF_ERR_STS_BAD_DB n 0
  else s.doorbell n (o / 8) value

/-- A read of a doorbell page returns zero (R40). -/
def State.bar2Read (_s : State) (_off _width : Nat) : Nat := 0

/-- Reads for slice `n` are made on its home port, and complete while that port's DMA runs (R36, R37). -/
def State.sliceReads (s : State) (n : Nat) : Bool := s.dmaOn (s.slice n).port

/-- Descriptor `k` of a ring is announced and not yet observed. -/
def Ring.awaits (r : Ring) (k : Nat) : Bool :=
  r.en && !r.fault && decide ((k + 65536 - r.head) % 65536 < (r.tail + 65536 - r.head) % 65536)

/-- A descriptor fetch that completed (R401), on the home port of the slice. -/
def State.fetchDone (s : State) (n r k : Nat) (data : Bytes) : State :=
  if s.sliceReads n ∧ ((s.slice n).ring r).awaits k then
    s.modSlice n (fun x => x.modRing r (fun g => { g with held := g.held.ins k (fitTo 128 data) }))
  else s

/-- A descriptor fetch that failed or timed out (R401); the earliest failure in ring order counts. -/
def State.fetchFail (s : State) (n r k : Nat) : State :=
  if ((s.slice n).ring r).awaits k then
    s.modSlice n (fun x => x.modRing r (fun g => { g with failed := match g.failed with
      | none => some k
      | some j => if (k + 65536 - g.head) % 65536 < (j + 65536 - g.head) % 65536 then some k else some j }))
  else s

/-! ## Input reads -/

/-- A read of an admitted command that completed: `data` is the whole target, all its 4 KB pieces (R23, R47; assumption 66).
One it does not wait for is discarded (R54). -/
def State.dmaDone (s : State) (id target : Nat) (data : Bytes) : State :=
  match s.cmd? id with
  | none => s
  | some c =>
    if s.sliceReads c.slice ∧ c.want.contains target then
      let n := if target < 4 then Desc.bufLen c.desc target else data.length
      s.putCmd { c with want := c.want.filter (· != target), inputs := c.inputs.ins target (fitTo n data) }
    else s

/-- A read that failed or timed out (R54). -/
def State.dmaFail (s : State) (id target : Nat) : State :=
  match s.cmd? id with
  | none => s
  | some c =>
    if c.want.contains target then
      s.putCmd { c with want := c.want.filter (· != target), failed := c.failed ++ [target] }
    else s

/-! ## Slice operations (R58, R59) -/

/-- HIF_SLICE_CMD_STS.ERR. -/
def State.sliceErr (s : State) (e : Nat) : State := s.set R.HIF_SLICE_CMD_STS_ERR 0 e

/-- An operation on the slice has not finished taking effect: ERR 0x04 (R59). -/
def State.sliceBusy (s : State) (n : Nat) : Bool :=
  let sl := s.slice n
  sl.st == .resetting || sl.op.isSome
    || (sl.st == .disabled && match sl.until2 with | some b => decide (s.frameNo < b) | none => false)

/-- An operation taken for its boundary (R58, R59). A RESET or DISABLE asks for the new EK_s (R221). -/
def State.beginOp (s : State) (n : Nat) (op : SliceOp) : State :=
  let t := s.modSlice n (fun x => { x with
    op := some op, st := if op = .reset ∨ op = .disable then .resetting else x.st })
  if op = .reset ∨ op = .disable then
    t.setWaiting (t.rng.waiting ++ [(32, .ephemeral n)])
  else t

/-- A slice operation other than LOAD accepted or rejected (R58, R59). -/
def State.sliceCmd (s : State) (n : Nat) (op : SliceOp) : State :=
  let sl := s.slice n
  if s.on R.HIF_SLICE_CMD_STS_BUSY then s
  else if s.sliceBusy n ∨ s.hif.staged.any (fun e => e.1 == n) then s.sliceErr 4
  else if sl.st = .disabled then s.sliceErr 5
  else (s.sliceErr 0).beginOp n op

/-- The operation codes of SLICE_OP records. -/
def opReset : Nat := 2
def opDisable : Nat := 5

/-- What a reset or disable does at its boundary: the old generation ends, its commands' slots are cleared (R58, R59, R157, R169,
R205, R244). -/
def State.sliceVoid (s : State) (n : Nat) (disable : Bool) : State :=
  let s1 := (s.trv.cmds.filter (fun c => c.slice == n)).foldl (fun t c =>
    let u := if c.st == .active then t.releaseFrom { c with cost := c.costLeft } t.frameNo else t
    (u.slotsClear c.id).dropCmd c.id) s
  let s2 := s1.modSlice n (fun x => { x with
    gen := (x.gen + 1) % 256, cont := [], intr := false, op := none,
    st := if disable then .disabled else .resetting,
    until2 := some (s.frameNo + 2),
    ekWait := s.rng.waiting.any (fun e => e.2 == .ephemeral n),
    rings := x.rings.map (fun e => (e.1, { e.2 with
      head := 0, tail := 0, ready := 0, held := [], bells := [], belled := false, fault := false, failed := none })) })
  let gone (k : KeyRec) : Bool := hSlice k.handle == n && hEphem k.handle
  let s3 := { s2 with ks := { s2.ks with
    krc := s2.ks.krc.filter (fun k => !gone k), tier2 := s2.ks.tier2.filter (fun k => !gone k)
    accums := if disable then s2.ks.accums.filter (fun a => a.slice != n) else s2.ks.accums } }
  let s4 := (s3.ks.windows.filter (fun w => hSlice w.handle == n)).foldl (fun t w => t.abandon w true) s3
  s4.record 0x0201 1 n (if disable then opDisable else opReset) ((s4.slice n).gen)

/-- Event 2 for one slice: the accepted operation takes effect (R58, R59). RESUME of a READY slice, and QUIESCE of one that is
QUIESCING or QUIESCED, are accepted and change nothing (assumption 66). -/
def State.sliceEvent (s : State) (n : Nat) : State :=
  match (s.slice n).op with
  | some .reset => s.sliceVoid n false
  | some .disable => s.sliceVoid n true
  | some .quiesce => s.modSlice n (fun x => { x with op := none, st := if x.st = .ready then .quiescing else x.st })
  | some .resume =>
    s.modSlice n (fun x => { x with op := none, st := if x.st = .quiescing ∨ x.st = .quiesced then .ready else x.st })
  | none =>
    match (s.slice n).st, (s.slice n).until2 with
    | .resetting, some b => if b ≤ s.frameNo then s.modSlice n (fun x => { x with st := .ready, until2 := none }) else s
    | _, some b => if b ≤ s.frameNo then s.modSlice n (fun x => { x with until2 := none }) else s
    | _, none => s

/-- A QUIESCING slice with nothing in flight becomes QUIESCED (R59). -/
def State.quiesceDone (s : State) (n : Nat) : State :=
  if (s.slice n).st = .quiescing ∧ s.inflightOf n = 0 then s.modSlice n (fun x => { x with st := .quiesced }) else s

/-- Slice operations and quiesce completions of the boundary. -/
def State.sliceEvents (s : State) : State :=
  s.sliceNos.foldl (fun t n => if (t.slice n).op.isSome then t.sliceEvent n else (t.sliceEvent n).quiesceDone n) s

/-! ## LOAD (R41, R42) -/

/-- A slice context block read against R41. -/
def parseCtx (b : Bytes) : Option SliceCtx :=
  let ctl := fieldLE b 0 4
  let pasid := fieldLE b 4 4
  let logSize := fieldLE b 0x18 1
  let logBase := fieldLE b 0x10 8
  let ringEn := fieldLE b 8 2
  let rings := (List.range 16).map (fun r => fieldLE b (0x20 + 16 * r) 8)
  if b.length ≠ 512 ∨ ctl / 16 ≠ 0 ∨ pasid / 2 ^ 20 ≠ 0 ∨ (bit ctl 0 ∧ pasid = 0) ∨ !zeroAt b 0xB 5 ∨ !zeroAt b 0x19 7
      ∨ !zeroAt b 0x120 224 ∨ logBase % 4096 ≠ 0 ∨ logSize < 8 ∨ 16 < logSize
      ∨ rings.any (fun w => bits w 11 3 != 0 || decide (6 < bits w 2 0))
      ∨ (List.range 16).any (fun r => !zeroAt b (0x2A + 16 * r) 6) then none
  else some {
    enable := bit ctl 0, home := b2n (bit ctl 1), intrEn := bit ctl 2, logEn := bit ctl 3, pasid := pasid,
    ringEn := ringEn, initGen := fieldLE b 0xA 1, logBase := logBase, logSize := logSize,
    rings := rings.zipIdx.map (fun e => (e.1 / 4096 * 4096, bits e.1 2 0, fieldLE b (0x28 + 16 * e.2) 2)) }

/-- A LOAD of a READY slice may change INTR_EN and the log fields only (R42). -/
def sameForReady (a b : SliceCtx) : Bool :=
  { a with intrEn := b.intrEn, logEn := b.logEn, logBase := b.logBase, logSize := b.logSize } == b

/-- The staged set has changed since the last CHECK began (R376). -/
def State.touchStaged (s : State) : State := { s with glb := { s.glb with clean := false } }

/-- HIF_SLICE_CMD with OP = LOAD: the block read begins, or the LOAD is rejected (R42, R59, R64). Where both ERR 6 and ERR 4
apply, R42 and R59 give no order and the model reports 6 (assumption 66). -/
def State.sliceLoad (s : State) (n : Nat) : State :=
  if s.on R.HIF_SLICE_CMD_STS_BUSY then s
  else if s.on R.GLB_CFG_STS_BUSY then (s.sliceErr 6).set R.GLB_CFG_STS_LATE 0 1
  else if s.sliceBusy n then s.sliceErr 4
  else
    let t := s.set R.HIF_SLICE_CMD_STS_BUSY 0 1
    { t with hif := { t.hif with loading := some n } }

/-- The block read has ended: the LOAD is staged or rejected (R42, R64). -/
def State.ctxRead (s : State) (block : Option Bytes) : State :=
  match s.hif.loading with
  | none => s
  | some n =>
    let t := ({ s with hif := { s.hif with loading := none } }).set R.HIF_SLICE_CMD_STS_BUSY 0 0
    match block with
    | none => t.sliceErr 2
    | some b =>
      if !s.dmaOn s.adminPort then s
      else match parseCtx b with
      | none => t.sliceErr 3
      | some c =>
        let sl := t.slice n
        if t.on R.GLB_CFG_STS_BUSY then (t.sliceErr 6).set R.GLB_CFG_STS_LATE 0 1
        else if t.sliceBusy n then t.sliceErr 4
        else if sl.st = .ready ∧ !sameForReady c sl.ctx then t.sliceErr 3
        else ({ t with hif := { t.hif with staged := t.hif.staged.ins n c } }.touchStaged).sliceErr 0

/-- The rings of a block as LOAD sets them (R41). -/
def ringsOf (c : SliceCtx) : Tab Ring :=
  (c.rings.zipIdx.map (fun e =>
    (e.2, ({ en := bit c.ringEn e.2, base := e.1.1, size := 64 * 2 ^ e.1.2.1, head := e.1.2.2, tail := e.1.2.2,
             ready := e.1.2.2 } : Ring)))).filter (fun e => e.2 != ({} : Ring))

/-- One staged block takes effect at a commit (R41, R42, R45, R60, R61, R169). On a QUIESCING or QUIESCED slice it clears a
ring's fault, with TAIL at HEAD, as R44 says of a reloaded slice (assumption 66). ENABLE 0 there acts as DISABLE, which
draws EK_s anew (R42, R181). -/
def State.applyLoad (s : State) (n : Nat) (c : SliceCtx) : State :=
  let sl := s.slice n
  let restart := c.logEn && (!sl.ctx.logEn || sl.st == .disabled)
  let common (x : Slice) : Slice := { x with
    ctx := c, staleDrops := 0, badDesc := 0, contSeq := 0,
    logCount := if restart then 0 else x.logCount, logAck := if restart then 0 else x.logAck,
    logOvf := if restart then false else x.logOvf }
  let t := s.set R.PK_SLICE_CONT_EVICTED n 0
  if sl.st = .disabled then
    t.modSlice n (fun x => if c.enable then { common x with
        st := .ready, gen := c.initGen, port := c.home, rings := ringsOf c, cont := [], until2 := none }
      else common x)
  else if sl.st = .ready then t.modSlice n common
  else if c.enable then
    t.modSlice n (fun x => { common x with
      port := c.home
      rings := (ringsOf c).map (fun e =>
        let old := x.ring e.1
        (e.1, if old.en ∧ !old.fault then { e.2 with head := old.head, tail := old.tail, ready := old.ready,
                                                     held := old.held, bells := old.bells, failed := old.failed }
              else { e.2 with head := old.head, tail := old.head, ready := old.head })) })
  else ((t.modSlice n common).beginOp n .disable).sliceVoid n true

/-- Every staged LOAD takes effect (event 1 of R9). -/
def State.applyLoads (s : State) : State :=
  let t := s.hif.staged.foldl (fun u e => u.applyLoad e.1 e.2) s
  { t with hif := { t.hif with staged := [] } }

/-- HIF_LOG_ACK (R60). -/
def State.logAcked (s : State) (n count : Nat) : State := s.modSlice n (fun x => { x with logAck := count % 2 ^ 32 })

/-! ## Ports (R36 to R39, R53, R369) -/

/-- A reset requested; a cold one wins over a warm one (R372). -/
def State.askReset (s : State) (warm : Bool) (cause : Nat) (drain : Bool) : State :=
  match s.glb.rst with
  | some r => if r.warm && !warm then { s with glb := { s.glb with rst := some ⟨warm, cause, drain⟩ } } else s
  | none => { s with glb := { s.glb with rst := some ⟨warm, cause, drain⟩ } }

/-- A row of the table announces an event of R9 whose condition holds: the next boundary performs it, as it does without the row. -/
def State.mark (s : State) (m : Mark) (due : Bool) : State :=
  if due && !s.glb.marks.contains m then { s with glb := { s.glb with marks := s.glb.marks ++ [m] } } else s

/-- Function Level Reset (R39): of function 1, RESET of every slice whose home port is now that port, without a write of
HIF_SLICE_CMD. -/
def State.flr (s : State) (port fn : Nat) : State :=
  if fn = 0 then s.askReset true 9 false
  else s.sliceNos.foldl (fun t n =>
    let sl := t.slice n
    if sl.port = port ∧ (sl.st = .ready ∨ sl.st = .quiescing ∨ sl.st = .quiesced) then t.beginOp n .reset else t) s

def linkField (port : Nat) : Field := if port = 0 then R.HIF_PORT_STS_LINK_A else R.HIF_PORT_STS_LINK_B

/-- The link of a port is lost: a move to the other port in joined mode while that one is up, else a warm reset
(R38). RATE reads 0 (R64); FLIT and WIDTH keep what was last trained (assumption 66). -/
def State.linkLoss (s : State) (port : Nat) (cause : Nat) : State :=
  let t := (s.set (linkField port) 0 0).set (if port = 0 then R.HIF_PORT_STS_RATE_A else R.HIF_PORT_STS_RATE_B) 0 0
  if t.get R.HIF_PORT_CTL_MODE = 2 then
    if t.linkUp (1 - port) then { t with hif := { t.hif with moving := some port } } else t.askReset true cause false
  else if t.portInReset port then t else t.askReset true cause false

/-- The move of R38 at the boundary: slices of the lost port, and its writes that were not transmitted, in order. -/
def State.movePort (s : State) : State :=
  match s.hif.moving with
  | none => s
  | some p =>
    let q := 1 - p
    let waiting := (s.hif.txq.filter (fun w => w.port == p)).map (fun w => { w with port := q })
    let t := { s with hif := { s.hif with
      moving := none, txq := s.hif.txq.filter (fun w => w.port != p),
      slices := s.hif.slices.mapv {} (fun x => if x.port = p then { x with port := q } else x) } }
    waiting.foldl (fun u w => u.post w) t

def stallField (port : Nat) : Field := if port = 0 then R.HIF_PORT_STS_STALL_A else R.HIF_PORT_STS_STALL_B

/-- 64 frames without posted-write credit (R53): descriptors are refused from the next boundary. -/
def State.portStall (s0 : State) (port : Nat) : State :=
  let s := { s0 with hif := (if port = 0 then { s0.hif with creditA := false, dryA := max 64 s0.hif.dryA, lostA := true }
    else { s0.hif with creditB := false, dryB := max 64 s0.hif.dryB, lostB := true }) }
  if s.on (stallField port) then s
  else
    let t := (s.set (stallField port) 0 1).hifErr
      (if port = 0 then R.HIF_ERR_STS_STALL_A else R.HIF_ERR_STS_STALL_B) 0 0
    t.record 0x0202 2 devScope port

/-- The stall ends (R53): credits have returned, queued writes leave in order. -/
def State.portStallEnd (s : State) (port : Nat) : State :=
  let t := (s.set (stallField port) 0 0)
  let u := { t with hif := (if port = 0 then { t.hif with creditA := true, dryA := 0, lostA := false }
    else { t.hif with creditB := true, dryB := 0, lostB := false }) }
  u.drainPort port

/-- The credit account of a port at a boundary (R53): `credit` when credit was available at some moment of the frame
that ends. -/
def State.creditFrame (s : State) (port : Nat) (credit : Bool) : State :=
  if credit then s.portStallEnd port
  else
    let dry := (if port = 0 then s.hif.dryA else s.hif.dryB) + 1
    let stalled := decide (64 ≤ dry)
    let t := { s with hif := (if port = 0 then { s.hif with creditA := false, dryA := dry, lostA := stalled }
      else { s.hif with creditB := false, dryB := dry, lostB := stalled }) }
    if stalled then t.portStall port else t

/-- A host port has completed link training (R369); the writes that waited for it leave. -/
def State.hostLink (s : State) (port width rate : Nat) (flit : Bool) : State :=
  if s.portInReset port then s
  else
    let t := if port = 0 then
        (((s.set R.HIF_PORT_STS_LINK_A 0 1).set R.HIF_PORT_STS_WIDTH_A 0 width).set R.HIF_PORT_STS_RATE_A 0 rate).put1
          R.HIF_PORT_STS_FLIT_A flit
      else
        (((s.set R.HIF_PORT_STS_LINK_B 0 1).set R.HIF_PORT_STS_WIDTH_B 0 width).set R.HIF_PORT_STS_RATE_B 0 rate).put1
          R.HIF_PORT_STS_FLIT_B flit
    t.drainPort port

/-- A function moved between D0 and D3hot (R36). -/
def State.powerState (s : State) (port fn : Nat) (d3 : Bool) : State :=
  ({ s with hif := { s.hif with d3 := Tab.put false s.hif.d3 (port * 2 + fn % 2) d3 } }).drainPort port

/-- A vector unmasked: its pending message leaves (R55). -/
def State.unmask (s : State) (fn vec : Nat) : State :=
  let k := fn * 1024 + vec
  let t := { s with hif := { s.hif with unmasked := Tab.put false s.hif.unmasked k true, pba := Tab.put false s.hif.pba k false } }
  if Tab.get false s.hif.pba k then t.msix fn vec (if fn = 1 then (t.slice vec).port else t.adminPort) else t

/-- A dword of the MSI-X table of a function written by the host (R39, R55, R385): address, data, or the mask bit. -/
def State.msixWrite (s : State) (fn i v : Nat) : State :=
  if i / 4 < pcieVectors fn then
    if i % 4 = 3 then
      (if bit v 0 then { s with hif := { s.hif with unmasked := Tab.put false s.hif.unmasked (fn * 1024 + i / 4) false } }
       else s.unmask fn (i / 4))
    else { s with hif := { s.hif with msixTab := Tab.put 0 s.hif.msixTab (4 * (fn * 1024 + i / 4) + i % 4) (v % 2 ^ 32) } }
  else s

/-! ## The commands of the table -/

def portOf (b : Bool) : Nat := if b then 1 else 0

def execDoorbellWrite (off width value : Nat) (s : State) : Host.Outcome State Fault Refusal :=
  ok (s.bar2Write off width value)
def execDescriptorFetchDone (slice ring number : Nat) (data : Bytes) (s : State) : Host.Outcome State Fault Refusal :=
  ok (s.fetchDone slice ring number data)
def execDescriptorFetchFail (slice ring number : Nat) (s : State) : Host.Outcome State Fault Refusal :=
  ok (s.fetchFail slice ring number)
def execDmaReadDone (cmd target : Nat) (data : Bytes) (s : State) : Host.Outcome State Fault Refusal :=
  ok (s.dmaDone cmd target data)
def execDmaReadFault (cmd target : Nat) (s : State) : Host.Outcome State Fault Refusal := ok (s.dmaFail cmd target)
def execSliceLoad (slice : Nat) (s : State) : Host.Outcome State Fault Refusal := ok (s.ifWritable 0x010010 (s.sliceLoad slice))
def execSliceContextReadDone (block : Option Bytes) (s : State) : Host.Outcome State Fault Refusal := ok (s.ctxRead block)
def execSliceReset (slice : Nat) (s : State) : Host.Outcome State Fault Refusal :=
  ok (s.ifWritable 0x010010 (s.sliceCmd slice .reset))
def execSliceQuiesce (slice : Nat) (s : State) : Host.Outcome State Fault Refusal :=
  ok (s.ifWritable 0x010010 (s.sliceCmd slice .quiesce))
def execSliceQuiesceComplete (slice : Nat) (s : State) : Host.Outcome State Fault Refusal := ok (s.quiesceDone slice)
def execSliceResume (slice : Nat) (s : State) : Host.Outcome State Fault Refusal :=
  ok (s.ifWritable 0x010010 (s.sliceCmd slice .resume))
def execSliceDisable (slice : Nat) (s : State) : Host.Outcome State Fault Refusal :=
  ok (s.ifWritable 0x010010 (s.sliceCmd slice .disable))
def execLogAck (slice count : Nat) (s : State) : Host.Outcome State Fault Refusal :=
  ok (s.ifWritable 0x010018 (s.logAcked slice count))
def execFunctionLevelReset (portB : Bool) (fn : Nat) (s : State) : Host.Outcome State Fault Refusal :=
  ok (s.flr (portOf portB) fn)
def execPortLinkLoss (portB : Bool) (s : State) : Host.Outcome State Fault Refusal := ok (s.linkLoss (portOf portB) 0xA)
def execPortStall (portB : Bool) (s : State) : Host.Outcome State Fault Refusal := ok (s.portStall (portOf portB))
def execPortStallEnd (portB : Bool) (s : State) : Host.Outcome State Fault Refusal := ok (s.portStallEnd (portOf portB))
def execHostLinkUp (portB : Bool) (width rate : Nat) (flit : Bool) (s : State) : Host.Outcome State Fault Refusal :=
  ok (s.hostLink (portOf portB) width rate flit)
def execPciePowerState (portB : Bool) (fn : Nat) (d3 : Bool) (s : State) : Host.Outcome State Fault Refusal :=
  ok (s.powerState (portOf portB) fn d3)
def execVectorUnmask (fn : Nat) (vector : VectorIn) (s : State) : Host.Outcome State Fault Refusal :=
  ok ((vector.table.foldl (fun t e => t.msixWrite fn e.1 e.2) s).unmask fn vector.vector)

end Sys2Proof.Machine
end

