-- ==== Sys2Proof/Machine/Fatal.lean ====
section
/-! DEFINITION. Fatal events (R62, R84): a tamper response, a fatal RNG alarm and a clock failure in service break
every promise. -/

namespace Sys2Proof.Machine

/-- Bytes of result writes of a command still in the transmit queue (R62). -/
def State.unsent (s : State) (id : Nat) : Nat :=
  s.hif.txq.foldl (fun n p => if p.kind = .result ∧ p.cmd = id then n + p.data.length else n) 0

/-- Pages of the result writes of a command that were sent. -/
def State.sentPages (s : State) (id : Nat) : List Nat :=
  dedup ((s.hif.sent.filter (fun p => p.kind == .result && p.cmd == id)).flatMap (fun p => pagesOf p.addr p.data.length))

/-- The energy of what a command runs when a fatal event is detected: a step, or its key phase (R62). -/
def State.partEnergy (s : State) (c : Cmd) : Nat × State :=
  if c.st ≠ .active ∨ !c.granted then (0, s)
  else if c.step = 0 then let (v, t) := s.fresh; (v % (100 * c.units + 1), t)
  else s.voidEnergy c

/-- Execution steps that finished before a fatal event (R62): of a bulk command those that ran, its output written or not. -/
def Cmd.stepsRun (c : Cmd) : Nat := if isBulk c.desc ∧ c.code = ccOk then c.step - 1 else c.stepsDone

/-- The commands that get a fatal status word, in its order: by slice, the admitted ones in order of admission, then the held ones in
order of observation (R62, R84). -/
def State.doomed (s : State) : List Cmd :=
  (sortBy (fun (a b : Nat) => decide (a < b)) s.sliceNos).flatMap (fun n =>
    let mine := s.trv.cmds.filter (fun c => c.slice == n)
    sortBy (fun (a b : Cmd) => decide (a.seq < b.seq)) (mine.filter (fun c => !c.isHeld)) ++ mine.filter (·.isHeld))

/-- What the fatal status word of a command will say of its work (R62): what it runs counts with its energy and not as done; of its
result writes those count that were sent. -/
def State.fatalWord (s : State) (c : Cmd) : FatalWord × State :=
  let (nj, t) := s.partEnergy c
  let (c1, t1) := t.meter c nj
  ({ cmd := c1, aux := c.aux - t1.unsent c.id, pages := t1.sentPages c.id }, t1)

/-- The words of several commands. -/
def State.fatalWords : List Cmd → State → List FatalWord × State
  | [], s => ([], s)
  | c :: cs, s =>
    let (w, t) := s.fatalWord c
    let (ws, u) := State.fatalWords cs t
    (w :: ws, u)

/-- A word queued (R62): an admitted command first writes its audit record (R35, R95, R400), as a flush writes (R307); the log entries
precede the word. -/
def State.queueWord (s : State) (w : FatalWord) : State :=
  let c := { w.cmd with code := s.trv.fatalCode }
  let flushing := s.fb.flushing
  let t := if c.isHeld || c.recorded then s else s.fatalRecords.auditRecord c true
  let t := { t with fb := { t.fb with flushing := flushing } }
  t.queueStatus c.slice c.desc c.id w.pages
    (statusBytes 1 (Desc.gen c.desc) c.code c.energyUnits t.frameNo c.stepsRun c.s w.aux 0)

/-- The home port of a slice can take its words: it has a link, and after a clock failure it passes its monitor (R62, R336). -/
def State.wordsPass (s : State) (n : Nat) : Bool :=
  s.linkUp (s.slice n).port && (s.trv.fatalCode != ccFatalClock || bit (s.get R.CLK_MON_STS_OK) (6 + (s.slice n).port))

/-- The words of one slice queued, then its MSI-X message at once, which also stands for one due for an earlier word (R55, R62). -/
def State.queueSlice (s : State) (ws : List FatalWord) (n : Nat) : State :=
  if !s.wordsPass n then s
  else
    let t := (ws.filter (fun w => w.cmd.slice == n)).foldl (fun u w => u.queueWord w) s
    let msg := (t.slice n).intr
    let u := t.modSlice n (fun x => { x with intr := false })
    if msg && (u.slice n).ctx.intrEn then u.msix 1 n (u.slice n).port else u

/-- The words that wait are queued, slice by slice. -/
def State.queueWords (s : State) : State :=
  if s.trv.words = [] then s
  else
    let t := ((s.trv.words.map (·.cmd.slice)).eraseDups).foldl (fun u n => u.queueSlice s.trv.words n) s
    { t with trv := { t.trv with words := [] } }

/-- A fatal event (R62, R84): result writes not yet sent are withdrawn, every in-flight command is to get its status word,
all reservations go and the slots are cleared (R157), nothing more is observed until reset. The words of a tamper
response are queued at once; those of another event at the next boundary, at most 10 µs later, so that a tamper response
before it turns them to FATAL_TAMPER (R262, assumption 86). -/
def State.breakPromises (s : State) (code : Nat) : State :=
  if s.on R.TRV_STS_FATAL then
    (if code = ccFatalTamper then ({ s with trv := { s.trv with fatalCode := code } }).queueWords else s)
  else
    let s0 := s.trv.cmds.foldl (fun t c => t.slotsClear c.id) s
    let (ws, s1) := State.fatalWords s0.doomed s0
    let s2 := { s1 with
      hif := { s1.hif with txq := s1.hif.txq.filter (fun (p : Post) => p.kind != PostKind.result), dropDoorbells := true }
      trv := { s1.trv with cmds := [], cal := [], pool := [], rspent := [], words := ws, fatalCode := code }
      tiles := {} }
    let s3 := s2.set R.TRV_STS_FATAL 0 1
    if code = ccFatalTamper then s3.queueWords else s3

end Sys2Proof.Machine
end

