-- ==== Sys2Proof/Machine/Rng.lean ====
section
/-! DEFINITION. The random number generator (R215 to R227): noise cells and their tests, the conditioner, expanders and
their reseeds, the reserve and the pool, health hold, fatal alarm, and the raw-bit port. -/

namespace Sys2Proof.Machine

/-! ## What the registers report (R227) -/

/-- The state of cell `c`; a cell not listed is off. -/
def Rng.cell (r : Rng) (c : Nat) : CellSt := r.cells.getD c .off

/-- Cell `c` changed. -/
def State.setCell (s : State) (c : Nat) (x : CellSt) : State :=
  { s with rng := { s.rng with cells := (List.range 8).map (fun i => if i = c then x else s.rng.cell i) } }

def Rng.exp (r : Rng) (x : Nat) : Expander := r.exps.getD x {}

def State.setExp (s : State) (x : Nat) (e : Expander) : State :=
  { s with rng := { s.rng with exps := (List.range 4).map (fun i => if i = x then e else s.rng.exp i) } }

/-- An expander produces. -/
def Expander.run (e : Expander) : Bool := e.refill && !e.aged

/-- CSTATE of a cell. -/
def cellCode : CellSt → Nat
  | .off => 0
  | .stopped _ | .restart _ | .passed => 1
  | .inUse => 2
  | .tapped => 3

/-- The cells enabled and not tapped are all in use. -/
def State.cellsWell (s : State) : Bool :=
  (List.range 8).all (fun c => !bit (s.get R.RNG_CTL_CELL_EN) c || s.rng.cell c == .inUse || s.rng.cell c == .tapped)

/-- Counted failures in the window of 1,000 frames whose last is frame `f` (R224). -/
def Rng.failsAt (r : Rng) (f : Nat) : Nat := (r.fails.filter (fun g => decide (f < g + 1000))).length

/-- Counted failures in the window of 1,000 frames that ends now (R224). -/
def State.recentFails (s : State) : Nat := s.rng.failsAt s.frameNo

/-- The registers that show the state of cells and expanders, brought up to date. -/
def State.rngSync (s : State) : State :=
  let s1 := (List.range 8).foldl (fun t c => t.set R.RNG_CELL_STS_CSTATE c (cellCode (t.rng.cell c))) s
  let s2 := (List.range 4).foldl (fun t x =>
    (t.put1 R.RNG_EXP_STS_RUN (t.rng.exp x).run x).set R.RNG_EXP_STS_AGE x (t.rng.exp x).age) s1
  let use := maskOf (fun c => s2.rng.cell c == .inUse) 8
  let run := maskOf (fun x => (s2.rng.exp x).run) 4
  ((s2.set R.RNG_STS_IN_USE 0 use).set R.RNG_STS_EXP_RUN 0 run).set R.RNG_STS_FAIL_WIN 0 (min 8 s2.recentFails)

/-! RNG_STS.STATE. -/
def rngWarmup : Nat := 1
def rngService : Nat := 2
def rngHold : Nat := 3
def rngFatal : Nat := 4

def State.rngState (s : State) : Nat := s.get R.RNG_STS_STATE

/-- The RNG serves draws. -/
def State.rngServes (s : State) : Bool := s.rngState == rngService || s.rngState == rngHold

/-! ## CTR_DRBG (R219; SP 800-90A with AES-256 and the derivation function) -/

/-- The derivation function to 48 bytes. -/
def drbgDf (input : Bytes) : Bytes :=
  let body := toBE 4 input.length ++ toBE 4 48 ++ input ++ [0x80#8]
  let m := fitTo (16 * ceilDiv body.length 16) body
  let enc (k b : Bytes) : Bytes := fitTo 16 (Config.aesEnc k b)
  let bcc (i : Nat) : Bytes :=
    (blocks (m.length + 16) 16 (toBE 4 i ++ fill 12 0 ++ m)).foldl (fun h b => enc (toBE 32 0x0102030405060708090A0B0C0D0E0F101112131415161718191A1B1C1D1E1F)
      (xorBytes h b)) (fill 16 0)
  let temp := bcc 0 ++ bcc 1 ++ bcc 2
  let k := temp.take 32
  let x1 := enc k (temp.drop 32)
  let x2 := enc k x1
  x1 ++ x2 ++ enc k x2

/-- The update of a working state with 48 bytes. -/
def Expander.update (e : Expander) (data : Bytes) : Expander :=
  let temp := xorBytes ({ key := e.key, v := e.v, off := 0, len := 48 } : RndSeg).bytes data
  { e with key := temp.take 32, v := ofBE (temp.drop 32) }

/-- Instantiation: entropy input, nonce, personalization string. -/
def Expander.instantiate (entropy nonce pers : Bytes) : Expander :=
  ({ key := fill 32 0, v := 0, refill := true, fresh := true } : Expander).update (drbgDf (entropy ++ nonce ++ pers))

/-- Among these output blocks, after the block before them, two neighbours are equal (R219). -/
def blockRepeats (last : Bytes) (bs : List Bytes) : Bool := ((last :: bs).zip bs).any (fun p => p.1 == p.2)

/-- A request of `n` bytes: the run of output, and the state after the update that follows. Each output block is compared with
the block before it (R219). -/
def Expander.request (e : Expander) (n : Nat) : RndSeg × Expander :=
  let k := ceilDiv n 16
  let v := (e.v + k) % 2 ^ 128
  let out := blocks k 16 ({ key := e.key, v := e.v, off := 0, len := 16 * k } : RndSeg).bytes
  ({ key := e.key, v := e.v, off := 0, len := n },
    { ({ e with v := v }).update (fill 48 0) with last := out.getLast?.getD e.last, rep := e.rep || blockRepeats e.last out })

/-- `n` bytes of output from the expanders that run, each with at most `budget` bytes left in the frame. The order of their
requests in the stores is a free value, a request being as long as it may (assumption 75). -/
def State.produce : Nat → State → Nat → List (Nat × Nat) → List RndSeg × State
  | 0, s, _, _ => ([], s)
  | fuel + 1, s, n, budget =>
    let able := budget.filter (fun e => e.2 != 0)
    if n = 0 then ([], s)
    else
      let (k, s1) := s.fresh
      match able[k % max 1 able.length]? with
      | none => ([], s1)
      | some (x, left) =>
        let m := min n (min left 65536)
        let (g, e) := (s1.rng.exp x).request m
        let (gs, t) := State.produce fuel (s1.setExp x e) (n - m) (budget.map (fun b => if b.1 = x then (x, left - m) else b))
        (g :: gs, t)

/-- `n` bytes written into the stores: the pool first, then the reserve (R220). -/
def State.storeFill (s : State) (n per : Nat) : State :=
  let runs := (List.range 4).filter (fun x => (s.rng.exp x).run)
  let (gs, t) := State.produce 32 s n (runs.map (fun x => (x, per)))
  let (a, b) := segTake (32768 - s.rng.pool) gs
  { t with rng := { t.rng with admin := t.rng.admin ++ a, reserve := t.rng.reserve ++ b } }

/-! ## Fatal alarm (R224) -/

/-- A fatal alarm: everything is zeroized, and the fatal event of R62 is raised. In WARMUP the device stays out of
SERVICE_READY (R223). -/
def State.rngAlarm (s : State) : State :=
  if s.rngState = rngFatal then s
  else
    let warm := s.rngState = rngWarmup
    let s1 := { s with rng := { s.rng with
      exps := [], queue := [], last := [], closed := [], reserve := [], admin := [] } }
    let s2 := (s1.set R.RNG_STS_STATE 0 rngFatal).rngErr [6] false 0
    let s3 := s2.fatalRecords.recordAs false true 0x0602 3 devScope (s2.storedAt 0x09000C) 0 0 0
    let s4 := (s3.breakPromises ccFatalRng).flush 3
    let s5 := if warm then (s4.set R.GLB_STS_FAIL 0 4).set R.GLB_STS_STAGE 0 8 else s4
    s5.rngSync

/-- The conditioner or an expander repeated its output (R218, R219). -/
def State.rngRepeat (s : State) (unit : Nat) : State := (s.rngErr [4] true unit).rngAlarm

/-! ## Cell failures (R217) -/

/-- Bytes the expanders wrote in the frame that ends: all that room allows from those that run; up to a failure within it, a
free part of that (R217, R220). -/
def State.refill (s : State) (part : Bool) : State :=
  if !s.rngServes then s
  else
    let out := ((List.range 4).filter (fun x => (s.rng.exp x).run)).length * 160000
    let most := min out ((32768 - s.rng.pool) + (262144 - s.rng.fill))
    let (v, s1) := if part then let (x, t) := s.fresh; (x % (most + 1), t) else (most, s)
    s1.storeFill v 160000

/-- A health hold that begins at the boundary of frame `f` or later, for an event of a cell or an expander; of two requests the
earlier stands (R224). -/
def State.askHold (s : State) (f : Nat) (exp : Bool) (unit : Nat) : State :=
  match s.rng.holdReq with
  | some (g, _, _) => if g ≤ f then s else { s with rng := { s.rng with holdReq := some (f, exp, unit) } }
  | none => { s with rng := { s.rng with holdReq := some (f, exp, unit) } }

/-- A counted failure of cell `c` in frame `f`: its blocks go, refill stops, and it is stopped for the next frame (R217). -/
def State.countedFail (s : State) (c f : Nat) : State :=
  let warm := s.rngState = rngWarmup
  let s1 := ((s.bump R.RNG_CELL_FAIL_COUNT 1 c).bump R.RNG_CNT_FAIL_COUNT).setCell c (.stopped (f + 2))
  let s2 := { s1 with rng := { s1.rng with
    exps := (List.range 4).map (fun x => { s1.rng.exp x with refill := false })
    closed := s1.rng.closed.filter (fun e => e.1 != c)
    runs := s1.rng.runs.del c
    fails := s1.rng.fails ++ [f]
    warmFails := if warm then s1.rng.warmFails + 1 else s1.rng.warmFails } }
  let s3 := if warm then s2 else s2.askHold (f + 1) false c
  let s4 := if (if warm then decide (8 ≤ s3.rng.warmFails) else decide (8 ≤ s3.rng.failsAt f)) then s3.rngAlarm else s3
  s4.rngSync

/-- A cell failed the tests in the mask (bits of RNG_ERR_STS) in frame `f`. Tests that catch the failure of the same frame again
set their bits only (R217). -/
def State.cellFailAt (s : State) (c tests f : Nat) : State :=
  let t := s.rngErr (setBits 4 tests) false c
  if 8 ≤ c then s
  else
    match s.rng.cell c with
    | .off => s
    | .stopped k => if k = s.frameNo + 2 then t else s
    | .tapped => t.bump R.RNG_CELL_FAIL_COUNT 1 c
    | _ => t.countedFail c f

/-- A failure within the present frame: refill stops at its cycle. -/
def State.cellFail (s : State) (c tests : Nat) : State :=
  match s.rng.cell c with
  | .restart _ | .passed | .inUse => (if 8 ≤ c then s else s.refill true).cellFailAt c tests s.frameNo
  | _ => s.cellFailAt c tests s.frameNo

/-- The run of equal bits at the end, continued from a run before them, and the longest that ends in these bits (R216). -/
def runOn (start : Bool × Nat) (bs : List Bool) : (Bool × Nat) × Nat :=
  bs.foldl (fun (acc : (Bool × Nat) × Nat) x =>
    let r : Bool × Nat := if x = acc.1.1 then (x, acc.1.2 + 1) else (x, 1)
    (r, max acc.2 r.2)) (start, 0)

/-- The bits of a raw block, first bit first. -/
def blockBits (b : BitVec 1024) : List Bool := (List.range 1024).map (fun i => b.getLsbD i)

/-- The equal bits at the end of a cell's last raw block. -/
def Rng.runOf (r : Rng) (c : Nat) : Bool × Nat := let e := Tab.get (0, 0) r.runs c; (e.1 != 0, e.2)

/-- The tests of R216 that a raw block of cell `c` fails: repetition count, adaptive proportion. -/
def State.blockTests (s : State) (c : Nat) (b : BitVec 1024) : Nat :=
  let bs := blockBits b
  b2n (decide (81 ≤ (runOn (s.rng.runOf c) bs).2)) + 2 * b2n (decide (828 ≤ (bs.filter (· == bs.headD false)).length))

/-- The run at the end of a raw block kept for the next one of the cell. -/
def State.keepRun (s : State) (c : Nat) (b : BitVec 1024) : State :=
  let r := (runOn (s.rng.runOf c) (blockBits b)).1
  { s with rng := { s.rng with runs := Tab.put (0, 0) s.rng.runs c (b2n r.1, r.2) } }

/-- The bytes of a raw block, first bit in bit 0 of byte 0. -/
def blockBytes (b : BitVec 1024) : Bytes := toLE 128 b.toNat

/-- A released block conditioned: the output is compared with the one before it, then queued (R218). -/
def State.condition (s : State) (b : BitVec 1024) : State :=
  let out := hashOf 0x02 32 (blockBytes b)
  if out = s.rng.last then s.rngRepeat 0
  else
    let q := s.rng.queue ++ [out]
    { s with rng := { s.rng with last := out, queue := if 16 < q.length then q.drop 1 else q } }

/-- A released block: in WARMUP the first 1,024 after the restart runs of every cell are counted, and the ones after them make
the outputs that instantiate the expanders (R216, R223). -/
def State.release (s : State) (b : BitVec 1024) : State :=
  if s.rngState = rngWarmup ∧ s.rng.blocks < 1024 then
    { s with rng := { s.rng with blocks := if s.rng.warmRan then s.rng.blocks + 1 else s.rng.blocks } }
  else if s.rngState = rngFatal then s
  else s.condition b

/-! ## The raw-bit port (R226) -/

/-- A tap that begins or ends, or a dropped tap write. -/
def State.rngEventRecord (s : State) : State := s.record 0x0605 2 devScope (s.storedAt 0x09000C)

/-- The tap ends; the cell returns through a restart run, after the frame in which its oscillators are stopped. -/
def State.tapEnd (s : State) : State :=
  match s.rng.tap with
  | none => { s with rng := { s.rng with tapReq := none } }
  | some c =>
    let t := s.setCell c (match s.rng.tapStop with | some k => .stopped k | none => .restart 0)
    (({ t with rng := { t.rng with tap := none, tapReq := none, tapStop := none, runs := t.rng.runs.del c } }.set R.RNG_RAW_STS_ACTIVE 0 0).rngEventRecord).rngSync

/-- A write of RNG_RAW_CTL (R226). -/
def State.rawCtl (s : State) (value : Nat) : State :=
  let c := bits value 3 1
  let put (t : State) : State :=
    (((t.set R.RNG_RAW_CTL_EN 0 (bits value 0 0)).set R.RNG_RAW_CTL_CELL 0 c).set R.RNG_RAW_CTL_RESTART 0 (bits value 4 4)).set
      R.RNG_RAW_CTL_RESTART_LEN 0 (bits value 31 16)
  if bit value 0 then
    let others := (List.range 8).filter (fun i => i != c && s.rng.cell i == .inUse)
    if decide (others.length < 4) || !bit (s.get R.RNG_CTL_CELL_EN) c || (s.get R.LC_STATE_CODE == 3 && !s.holds devSession roleSO)
    then s.rngEventRecord
    else
      let t := put s
      let from_ := if bit value 4 && !s.on R.RNG_RAW_CTL_RESTART then s.rng.tapBits else s.rng.tapFrom
      if t.rng.tap = some c then { t with rng := { t.rng with tapReq := none, tapFrom := from_ } }
      else { t with rng := { t.rng with tapReq := some c } }
  else (put s).tapEnd

/-- The requested tap takes effect at a boundary; a cell whose oscillators are stopped stays so for that frame (R217, R226). -/
def State.tapBegin (s : State) : State :=
  match s.rng.tapReq with
  | none => s
  | some c =>
    let t := (s.tapEnd).setCell c .tapped
    let u := { t with rng := { t.rng with
      tap := some c, tapReq := none, tapLeft := t.get R.RNG_RAW_LEN_BYTES, tapBits := 0, tapFrom := 0
      tapStop := match s.tapEnd.rng.cell c with | .stopped k => some k | _ => none
      closed := t.rng.closed.filter (fun e => e.1 != c) } }
    ((((u.set R.RNG_RAW_STS_ACTIVE 0 1).set R.RNG_RAW_STS_DONE 0 0).set R.RNG_RAW_STS_ERR 0 0).rngEventRecord).rngSync

/-- RNG_RAW_LEN bytes have been written (R226). -/
def State.tapDone (s : State) : State :=
  if s.rng.tap.isSome ∧ s.rng.tapLeft = 0 then s.set R.RNG_RAW_STS_DONE 0 1 else s

/-- A raw-bit write failed (R226). -/
def State.tapFail (s : State) : State :=
  if s.rng.tap.isSome then ((s.set R.RNG_RAW_STS_ERR 0 1).set R.RNG_RAW_CTL_EN 0 0).tapEnd else s

/-- The raw bits of the tapped cell copied to the host. -/
def State.tapCopy (s : State) (b : BitVec 1024) : State :=
  let n := min 128 s.rng.tapLeft
  if n = 0 then s
  else
    let addr := s.get R.RNG_RAW_ADDR_ADDR * 4096 + (s.get R.RNG_RAW_LEN_BYTES - s.rng.tapLeft)
    let t := s.postAdmin addr ((blockBytes b).take n)
    ({ t with rng := { t.rng with tapLeft := t.rng.tapLeft - n } }).tapDone

/-- With RESTART set, RESTART_LEN raw bits since the last restart stand within `ahead` bits of the closed blocks: the tapped cell
restarts at that bit: its oscillators are stopped for the next frame, and the bits of its restart run go on being copied (R217, R226). -/
def State.tapRestartBy (s : State) (ahead : Nat) : State :=
  let n := s.get R.RNG_RAW_CTL_RESTART_LEN
  if s.rng.tap.isSome && s.on R.RNG_RAW_CTL_RESTART && s.rng.tapStop.isNone && decide (0 < n)
      && decide (s.rng.tapFrom + n ≤ s.rng.tapBits + ahead) then
    { s with rng := { s.rng with tapFrom := s.rng.tapFrom + n, tapStop := some (s.frameNo + 2) } }
  else s

/-- A restart within the block in progress, of which up to 1,023 bits stand (the command TAP_RESTART). -/
def State.tapAgain (s : State) : State := s.tapRestartBy 1023

/-- Restarts that the closed blocks have passed, at the latest with the block; of several in one block the last stands (assumption 84). -/
def State.tapCatchUp (s : State) : State :=
  let n := s.get R.RNG_RAW_CTL_RESTART_LEN
  let late := if n = 0 then 0 else (s.rng.tapBits - s.rng.tapFrom) / n - 1
  (if s.rng.tapStop.isNone then { s with rng := { s.rng with tapFrom := s.rng.tapFrom + n * late } } else s).tapRestartBy 0

/-- A raw block of a cell has closed (R216 to R218, R223): one that passed its tests waits for the frame tests of its cell. -/
def State.blockClosed (s : State) (c : Nat) (b : BitVec 1024) : State :=
  let fails := s.blockTests c b
  let t := s.keepRun c b
  match s.rng.cell c with
  | .inUse =>
    if fails ≠ 0 then s.cellFail c fails else { t with rng := { t.rng with closed := t.rng.closed ++ [(c, b)] } }
  | .restart n => if fails ≠ 0 then s.cellFail c fails else t.setCell c (.restart (n + 1))
  | .passed => if fails ≠ 0 then s.cellFail c fails else t
  | .tapped =>
    if s.rng.tapStop = some (s.frameNo + 1) then s
    else
      let u := t.tapCopy b
      let v := ({ u with rng := { u.rng with tapBits := u.rng.tapBits + 1024 } }).tapCatchUp
      if fails ≠ 0 then v.cellFail c fails else v
  | _ => s

/-- A cell has passed its restart run of 4 raw blocks; the next boundary returns it to use (R217), also where no such command
comes. -/
def State.restartDone (s : State) (c : Nat) : State :=
  match s.rng.cell c with
  | .restart n => if 4 ≤ n then (s.setCell c .passed).rngSync else s
  | _ => s

/-! ## The frame of the RNG -/

/-- The pairs of the non-locking test (R216). -/
def lockPairs : List (Nat × Nat) := [(1, 1), (1, 2), (2, 1), (2, 3), (3, 2), (3, 4), (4, 3)]

/-- The oscillators of a cell ran through the frame that ends. -/
def State.cellRan (s : State) (c : Nat) : Bool :=
  match s.rng.cell c with
  | .restart _ | .passed | .inUse => true
  | .stopped k => k == s.frameNo + 2
  | .tapped => s.rng.tapStop != some (s.frameNo + 1)
  | .off => false

/-- The frame tests of a cell over the frame that ends, and COUNT_A and COUNT_B. A failure found at the boundary belongs to
the frame that begins (R217). -/
def State.cellFrame (s : State) (c a b : Nat) : State :=
  let s1 := (s.set R.RNG_CELL_STS_COUNT_A c a).set R.RNG_CELL_STS_COUNT_B c b
  let forget (t : State) : State := { t with rng := { t.rng with lockRun := Tab.keep (fun k => decide (k / 8 ≠ c)) t.rng.lockRun } }
  if !s.cellRan c then forget s1
  else
    let live := decide (a < 2000 ∨ 8000 < a ∨ b < 2000 ∨ 8000 < b)
    let near (p q : Nat) : Bool := decide (q * a ≤ p * b + 2 ∧ p * b ≤ q * a + 2)
    let s2 := lockPairs.zipIdx.foldl (fun (t : State) e =>
      let k := c * 8 + e.2
      let old := (Tab.get (0, 0) t.rng.lockRun k).2
      { t with rng := { t.rng with
        lockRun := Tab.put (0, 0) t.rng.lockRun k (if near e.1.1 e.1.2 then (1, old + 1) else (0, 0)) } }) s1
    let lock := (List.range 7).any (fun i => decide (16 ≤ (Tab.get (0, 0) s2.rng.lockRun (c * 8 + i)).2))
    let tests : Nat := (if live then 4 else 0) + (if lock then 8 else 0)
    if tests = 0 then s2 else s2.cellFailAt c tests (s.frameNo + 1)

/-- An expander that repeated an output block in the frame that ends raises the alarm (R219). -/
def State.repeatCheck (s : State) : State :=
  match (List.range 4).find? (fun x => (s.rng.exp x).rep) with
  | some x => s.rngRepeat x
  | none => s

/-- The refill, the repeat test, the frame tests and the release of blocks at the end of a frame (R216, R218 to R220). -/
def State.rngEndFrame (s : State) (counts : List (Nat × Nat)) : State :=
  let s1 := counts.zipIdx.foldl (fun t e => t.cellFrame e.2 e.1.1 e.1.2) (s.refill false).repeatCheck
  let out := s1.rng.closed.filter (fun e => s1.rng.cell e.1 == .inUse)
  out.foldl (fun t e => t.release e.2) { s1 with rng := { s1.rng with closed := [] } }

/-- With every enabled cell in use, the restart runs of WARMUP are done (R223). -/
def State.warmCells (s : State) : State :=
  if s.rngState = rngWarmup ∧ s.cellsWell then { s with rng := { s.rng with warmRan := true } } else s

/-- Cells at a boundary: a stopped one restarts, one that passed its run of 4 blocks returns to use. -/
def State.cellsBoundary (s : State) : State :=
  let t := (List.range 8).foldl (fun t c => match t.rng.cell c with
    | .stopped k => if k ≤ t.frameNo then t.setCell c (.restart 0) else t
    | .passed => t.setCell c .inUse
    | .restart n => if 4 ≤ n then t.setCell c .inUse else t
    | _ => t) s
  let t := t.warmCells
  match t.rng.tapStop with
  | some k => if k ≤ t.frameNo then { t with rng := { t.rng with tapStop := none } } else t
  | none => t

/-- Step 1 of R222: the reseeds of an even or odd frame, and the age limit (R219). A reseed ends an age stop; refill stopped by a
counted failure resumes with it once every enabled, untapped cell is in use (R224). -/
def State.reseeds (s : State) : State :=
  let well := s.cellsWell
  (List.range 4).foldl (fun t x =>
    let e := t.rng.exp x
    let turn := decide (x / 2 = t.frameNo % 2)
    match (if turn then t.rng.queue else []) with
    | out :: q =>
      (({ t with rng := { t.rng with queue := q } }).setExp x
        { e.update (drbgDf out) with refill := well || e.refill, aged := false, age := 0, fresh := well || e.fresh }).bump
          R.RNG_CNT_RESEED_COUNT
    | [] =>
      let age := min 16 (e.age + 1)
      let u := t.setExp x { e with age := age, aged := e.aged || age == 16 }
      if age = 16 ∧ !e.aged then u.askHold t.frameNo true x else u) s

/-- An expander whose age has reached 16 is stopped by the age limit (the command EXPANDER_AGE_STOP); step 1 of R222 does so
without it. -/
def State.ageStop (s : State) (x : Nat) : State :=
  if 4 ≤ x ∨ (s.rng.exp x).age < 16 then s
  else
    let t := s.setExp x { s.rng.exp x with aged := true }
    (if s.rngServes then t.askHold t.frameNo true x else t).rngSync

/-- Forced mask reseeds, 48 bytes a lane, from the bytes above the outstanding ones (R126, R221). -/
def State.forcedReseeds : List Nat → State → State
  | [], s => s
  | l :: ls, s =>
    if s.outstanding + 48 ≤ s.rng.fill then
      let (b, t) := s.drawReserve 48
      State.forcedReseeds ls { t with rng := { t.rng with
        forced := t.rng.forced.filter (· != l), masks := t.rng.masks.ins l { seed := b } } }
    else s

/-- Step 3 of R222: the mask refresh draw reseeds the generator of each lane with its 48 bytes, or is skipped, and each goes on
from its present state (R29, R74, R125). -/
def State.maskDraw (s : State) : State :=
  if s.rng.fill < s.outstanding + 16384 + 1536 then
    { s with rng := { s.rng with masks := s.rng.masks.map (fun (e : Nat × MaskGen) => (e.1, { e.2 with frames := e.2.frames + 1 })) } }.bump
      R.CL_CNT_MASK_SKIP_COUNT
  else
    let (b, t) := s.drawReserve 1536
    { t with rng := { t.rng with masks := (blocks 32 48 b).zipIdx.map (fun (e : Bytes × Nat) => (e.2, ({ seed := e.1 } : MaskGen))) } }

/-- Step 4 of R222: fill and pool level are reported. -/
def State.rngReport (s : State) : State :=
  (s.set R.RNG_RES_STS_FILL 0 s.rng.fill).set R.RNG_POOL_STS_LEVEL 0 s.rng.pool

/-- The health hold begins (R224). -/
def State.holdBegin (s : State) : State :=
  match s.rng.holdReq with
  | none => s
  | some (f, exp, unit) =>
    if s.frameNo < f then s
    else
      let t := { s with rng := { s.rng with holdReq := none } }
      if s.rngState = rngService then ((t.set R.RNG_STS_STATE 0 rngHold).rngErr [5] exp unit).rngEventRecord else t

/-- The health hold ends at a boundary with every cell in use, every expander reseeded since, and none stopped
(R224). -/
def State.holdEnd (s : State) : State :=
  if s.rngState = rngHold ∧ s.cellsWell ∧ (List.range 4).all (fun x => (s.rng.exp x).fresh && (s.rng.exp x).run) then
    s.set R.RNG_STS_STATE 0 rngService
  else s

/-- Failures older than the window of 1,000 frames are forgotten; a frame without well cells makes every expander
stale. -/
def State.rngTidy (s : State) : State :=
  { s with rng := { s.rng with
    fails := s.rng.fails.filter (fun f => decide (s.frameNo < f + 1000))
    exps := (List.range 4).map (fun x => if s.cellsWell then s.rng.exp x else { s.rng.exp x with fresh := false }) } }

/-! ## The end of WARMUP (R223, R225) -/

/-- The known-answer tests failed: a bit and a record for each part, and the device is held (R225). -/
def State.rngKatFail (s : State) (condFails : Bool) (expFails : Nat) : State :=
  let parts := (if condFails then [0] else []) ++ (setBits 4 expFails).map (· + 1)
  let t := ((s.put1 R.RNG_KAT_STS_COND condFails).set R.RNG_KAT_STS_EXP 0 expFails).rngErr [7] true ((parts.headD 1) - 1)
  let u := parts.foldl (fun v p => v.record 0x0402 3 devScope 0x090000 p) t
  (u.set R.GLB_STS_FAIL 0 5).set R.GLB_STS_STAGE 0 8

/-- Step 4 of R223: six conditioned outputs instantiate the expanders: an entropy input each, and two outputs for the four
nonces. -/
def State.instantiateAll (s : State) : State :=
  let o := (s.rng.queue.take 6).flatten
  { s with rng := { s.rng with
    queue := s.rng.queue.drop 6
    exps := (List.range 4).map (fun x =>
      Expander.instantiate (cut o (32 * x) 32) (cut o (128 + 16 * x) 16) (s.deviceId ++ toLE 1 x)) } }

/-- The start-up draws, from the pool: the keys of R88, R169 and R181, BOOT of a member (R356), and the EK_s of the slices in
order; those for which the pool is too small wait (R221, R223). -/
def State.startDraws (s : State) : State :=
  let (a, s1) := s.drawPool 160
  let (boot, s2) := if s.on R.NET_STS_MEMBER then s1.drawPool 16 else ([], s1)
  let n := min 1024 (s2.rng.pool / 32)
  let segs := (segTake (32 * n) s2.rng.admin).1
  let s3 := (s2.drawPool (32 * n)).2
  let t := { s3 with
    net := { s3.net with boot := boot }
    ks := { s3.ks with
      ekSegs := segs, krcKey := cut a 0 32, tierKey := cut a 32 32, tuCarry := cut a 64 32,
      laneCarry := cut a 96 32, contKey := cut a 128 32 } }
  t.setWaiting (t.rng.waiting ++ ((List.range (1024 - n)).map (fun i => (32, AdminOp.ephemeral (n + i)))))

/-- The steps of R223 that WARMUP waits for have been taken: 1,024 blocks have passed, blocks after them gave the six conditioned
outputs, every enabled cell is in use, and no known-answer test has failed (R223, R225). -/
def State.warmupReady (s : State) : Bool :=
  s.rngState == rngWarmup && decide (1024 ≤ s.rng.blocks) && s.cellsWell && decide (6 ≤ s.rng.queue.length)
    && s.get R.RNG_KAT_STS_COND == 0 && s.get R.RNG_KAT_STS_EXP == 0

/-- The RNG leaves WARMUP (R223, R225): after 1,024 passed blocks, with its known-answer tests passed, the expanders are
instantiated, the pool is filled, then the reserve, and the keys of start-up are drawn. -/
def State.warmupDone (s : State) (condFails : Bool) (expFails : Nat) : State :=
  if !s.warmupReady then s
  else if condFails ∨ expFails % 16 ≠ 0 then s.rngKatFail condFails (expFails % 16)
  else
    let t := (s.instantiateAll.storeFill 294912 294912).startDraws
    ((t.set R.RNG_STS_KAT_DONE 0 1).set R.RNG_STS_STATE 0 rngService).rngSync

/-- RNG_CTL.CELL_EN committed: an enabled cell starts with a restart run, a disabled one stops (R227). -/
def State.cellsEnabled (s : State) : State :=
  ((List.range 8).foldl (fun t c =>
    if bit (t.get R.RNG_CTL_CELL_EN) c then (if t.rng.cell c = .off then t.setCell c (.restart 0) else t)
    else
      let u := t.setCell c .off
      { u with rng := { u.rng with closed := u.rng.closed.filter (fun e => e.1 != c), runs := u.rng.runs.del c } }) s).rngSync

/-! ## The commands of the table -/

def execRawBlockClose (cell : Nat) (bits : BitVec 1024) (s : State) : Host.Outcome State Fault Refusal :=
  ok (s.blockClosed cell bits)
def execCellHealthFail (cell tests : Nat) (s : State) : Host.Outcome State Fault Refusal := ok (s.cellFail cell tests)
def execRestartRunDone (cell : Nat) (s : State) : Host.Outcome State Fault Refusal := ok (s.restartDone cell)
def execHealthHoldEnd (s : State) : Host.Outcome State Fault Refusal := ok s.holdEnd
def execExpanderAgeStop (exp : Nat) (s : State) : Host.Outcome State Fault Refusal := ok (s.ageStop exp)
def execRngWarmupDone (katCond : Bool) (katExp : Nat) (s : State) : Host.Outcome State Fault Refusal :=
  ok (s.warmupDone katCond katExp)
def execRawTapDone (s : State) : Host.Outcome State Fault Refusal := ok s.tapDone
def execRawTapDmaFail (s : State) : Host.Outcome State Fault Refusal := ok s.tapFail
def execExpanderRepeat (exp : Nat) (s : State) : Host.Outcome State Fault Refusal := ok (s.rngRepeat exp)
def execTapRestart (s : State) : Host.Outcome State Fault Refusal := ok s.tapAgain

end Sys2Proof.Machine
end

