-- ==== Sys2Proof/Machine/KeyDomains.lean ====
section
/-! DEFINITION. Datum, the slice key domains and the identity keys (R182 to R186, R214), what becomes of invalidated
keys (R199, R200), and the timeouts of the key store (R169, R203, R211). -/

namespace Sys2Proof.Machine

/-! ## KS_CMD_STS (R214) -/

/-- A command rejected with this code, or accepted and finished with 0. -/
def State.ksReply (s : State) (err : Nat) : State := (s.set R.KS_CMD_STS_BUSY 0 0).set R.KS_CMD_STS_ERR 0 err

/-- A command accepted: BUSY until it takes effect. -/
def State.ksAccept (s : State) : State := (s.set R.KS_CMD_STS_BUSY 0 1).set R.KS_CMD_STS_ERR 0 0

/-- An administrative draw of `n` bytes asked for (R221). -/
def State.askDraw (s : State) (n : Nat) (op : AdminOp) : State :=
  s.setWaiting (s.rng.waiting ++ [(n, op)])

/-- A nonzero error code that the spec does not name. -/
def State.freeErr (s : State) : Nat × State := let (v, t) := s.fresh; (v % 255 + 1, t)

/-- A rejection for a cause to which KS_CMD_STS gives no code. -/
def State.ksFreeReject (s : State) : State := let (e, t) := s.freeErr; t.ksReply e

/-! ## Leaves of a domain -/

/-- A leaf of this kind and owner released, then a fresh one allocated with value `v`: another number when one is
free (R184). -/
def State.newLeaf (s : State) (k : LeafKind) (n v : Nat) : State :=
  let old := s.leafOf k n
  match s.allocLeaf k n (n + 2 ^ 64) v with
  | some t =>
    let u := match old with | some i => { t with ks := { t.ks with leaves := t.ks.leaves.del i } } | none => t
    { u with ks := { u.ks with leaves := u.ks.leaves.map (fun e =>
        if e.2.owner = n + 2 ^ 64 then (e.1, { e.2 with owner := n }) else e) } }
  | none =>
    let t := s.dropLeaf k n
    (t.allocLeaf k n n v).getD t

/-! ## Datum (R182) -/

/-- KS_DATUM_CMD with OP = GENERATE. -/
def State.datumGenerate (s : State) : State :=
  if s.on R.KS_CMD_STS_BUSY then s
  else if !s.holds devSession roleSO then (s.ksReply 2).writeDropped 0x080008
  else if s.get R.LC_STATE_CODE ≠ 3 then s.ksReply 8
  else if s.rngState ≠ rngService then s.ksFreeReject
  else s.ksAccept.askDraw 32 .datum

/-- A write of KS_DATUM_CMD. While the clamp is set it is dropped and recorded, whatever its OP, halted or not (R263). -/
def State.datumWrite (s : State) (op : Nat) : State :=
  if s.on R.TMP_STS_CLAMP ∧ 2 ≤ s.stage ∧ s.stage ≠ 0xB then s.writeDropped 0x080008
  else s.ifWritable 0x080008 (if op = 1 then s.datumGenerate else if s.on R.KS_CMD_STS_BUSY then s else s.ksReply 1)

/-- Every slice domain erased, the revocation list and every counter leaf of the tree (R182, R236); the version floor stands outside it (R320).
The erased seal-epoch leaf reads 0, and seals go on with it; their count restarts where that is another seal epoch (R191). -/
def State.eraseDomains (s : State) : State :=
  let s1 := s.ks.windows.foldl (fun t w => t.abandon w) s
  { s1 with ks := { s1.ks with
      domains := s1.ks.domains.mapv {} (fun d => { d with
        present := false, root := [], floor := 0, freed := [], cursor := 1, cursorEnd := 1, bumps := []
        dying := d.dying.map (fun y => { y with freed := true }) })
      revoked := []
      windows := []
      known := []
      accums := []
      image := s1.ks.image.filter (fun e => e.1 == 1)
      nodesStale := (s1.ks.nodesStale ++ s1.ks.leaves.flatMap (fun e => nodesAbove e.1)).eraseDups
      sealEpoch := 0
      sealCount := if s1.ks.sealEpoch = 0 then s1.ks.sealCount else 0
      leaves := s1.ks.leaves.filterMap (fun (e : Nat × Leaf) =>
        if e.2.kind = .seal then some (e.1, { e.2.at_ 0 with sa := 0, sb := 0, sc := 0 }) else none) } }

/-! ## Domain commands (R184) -/

/-- KS_DOMAIN_CMD with this OP for slice `n`; elsewhere than at the home member it is dropped (R362). -/
def State.domainCmd (s : State) (op n : Nat) : State :=
  let d := s.domain n
  let e := s.epochOf n
  if s.notHome n then (s.netErr R.NET_ERR_STS_NOT_HOME 0 (s.get R.NET_STS_ID) n).record 0x0804 2 n
  else if s.on R.KS_CMD_STS_BUSY then s
  else if op = 0 ∨ 5 < op then s.ksReply 1
  else if !s.holds n roleSO then (s.ksReply 2).writeDropped 0x08000C
  else if op = 1 ∧ d.present then s.ksReply 3
  else if (op = 2 ∧ e - d.floor = 3) ∨ (op = 3 ∧ d.present ∧ d.floor = e) then s.ksReply 4
  else if op = 2 ∧ e = 2 ^ 48 - 1 then s.ksReply 5
  else if (op ≠ 1 ∧ !d.present) ∨ !s.on R.KS_STS_DATUM then s.ksReply 6
  else if s.ks.ctRo then s.ksReply 7
  else if op = 1 ∧ 31744 < s.ks.leaves.length + 1 + 2 then s.ksFreeReject
  else
    let t := s.ksAccept
    match op with
    | 1 => t.askDraw 32 (.domainCreate n)
    | 4 => t.askDraw 32 (.domainRekey n)
    | 5 => t.askDraw 32 (.domainDestroy n)
    | _ => { t with ks := { t.ks with cmd := some (op, n) } }

/-- A domain command that took effect: BUSY clears, the record follows, and a home member announces it (R184, R363). -/
def State.domainDone (s : State) (op n : Nat) : State :=
  let t := (s.ksReply 0).record 0x0301 2 n op (s.epochOf n)
  { t with net := { t.net with changed := if t.net.changed.contains n then t.net.changed else t.net.changed ++ [n] } }

/-- A new domain root on new leaves, EPOCH and FLOOR 1, cursor 1 (CREATE and REKEY). -/
def State.newRoot (s : State) (n : Nat) (root : Bytes) (gen0 : Nat) : State :=
  let t := (s.newLeaf .epoch n 1).newLeaf .cursor n 1
  let u := t.sealItem (16 + n) t.srk root
  u.modDomain n (fun x => { x with
    present := true, root := root, floor := 1, gen0 := gen0, cursor := 1, cursorEnd := 1, freed := [], bumps := [] })

/-- REKEY: every key of the domain is revoked (R184). Indices of keys invalidated before it are not freed any more: the cursor starts
anew below them (R186). -/
def State.rekeyDomain (s : State) (n : Nat) (root : Bytes) : State :=
  let old := (s.ks.krc.filter (fun k => hSlice k.handle == n)).map (·.handle)
  let t := s.newRoot n root (((s.domain n).gen0 + 1) % 65536)
  let t1 := t.setRevoked (t.ks.revoked.filter (fun e => hSlice e.1 != n))
  let u := { t1 with ks := { t1.ks with known := t1.ks.known.filter (fun k => hSlice k.handle != n) } }
  u.modDomain n (fun x => { x with dying := x.dying.map (fun y => { y with freed := true }) ++ [{ index := 0, slots := 0, frame := s.frameNo, handles := old }] })

/-- DESTROY: as REKEY, then the root is erased. -/
def State.destroyDomain (s : State) (n : Nat) (root : Bytes) : State :=
  let t := (s.rekeyDomain n root).modDomain n (fun x => { x with present := false, root := [], floor := 0 })
  let u := (t.dropLeaf .epoch n).dropLeaf .cursor n
  { u with ks := { u.ks with image := u.ks.image.del (16 + n) } }

/-- The identity keys from their draw (R183), for which R221 names no store: the model takes the pool (assumption 76). -/
def State.idMade (s : State) (draw : Bytes) : State :=
  let ec := Config.keyPair 0x41 0 (draw.take 48)
  let pq := Config.keyPair 0x5A 0 (draw.drop 48)
  let w := { s with ks := { s.ks with
    idEc := fitTo 48 ec.1, idEcPub := fitTo 97 ec.2, idPq := fitTo 4896 pq.1, idPqPub := fitTo 2592 pq.2 } }
  ((w.sealItem 1 w.idSealKey (w.ks.idEc ++ w.ks.idPq)).set R.KS_STS_ID_PRESENT 0 1).ksReply 0

/-- ADVANCE or RAISE_FLOOR at event 2 of the boundary (R184). A lost epoch leaf requires REKEY (R207):
the command is rejected with a code the spec does not name. -/
def State.ksEvent (s : State) : State :=
  match s.ks.cmd with
  | none => s
  | some (op, n) =>
    let t := { s with ks := { s.ks with cmd := none } }
    if !(t.needLeaf .epoch n).1 then (t.needLeaf .epoch n).2.ksFreeReject
    else if op = 2 then
      let t := (t.needLeaf .epoch n).2
      (match t.leafOf .epoch n with
        | some l => t.raiseLeaf l (t.epochOf n + 1)
        | none => t).domainDone 2 n
    else
      let u := t.modDomain n (fun x => { x with floor := x.floor + 1 })
      let fl := (u.domain n).floor
      (u.setRevoked (u.ks.revoked.filter (fun e => hSlice e.1 != n || decide (fl ≤ e.2)))).domainDone 3 n

/-- What an administrative draw of the key store gives, at the boundary that serves it (R181, R182, R184, R221). -/
def State.ksDrawn (s : State) (op : AdminOp) (bytes : Bytes) : State :=
  match op with
  | .datum =>
    let t := s.eraseDomains
    ((({ t with
      ks := { t.ks with datum := bytes }
      tmp := { t.tmp with bbOver := t.tmp.bbOver.filter (fun e => decide (36 ≤ e.1)) } }).set R.KS_STS_DATUM 0 1).ksReply 0).record 0x0302 3 devScope
  | .domainCreate n => (s.newRoot n bytes 1).domainDone 1 n
  | .domainRekey n => (s.rekeyDomain n bytes).domainDone 4 n
  | .domainDestroy n => (s.destroyDomain n bytes).domainDone 5 n
  | .identity => s.idMade bytes
  | .ephemeral n => (s.modDomain n (fun x => { x with ek := bytes })).modSlice n (fun x => { x with ekWait := false })
  | _ => s

/-! ## Identity keys (R183, R214) -/

/-- KS_ID_CMD with OP = GENERATE. -/
def State.idGenerate (s : State) : State :=
  if s.on R.KS_CMD_STS_BUSY then s
  else if !s.holds devSession roleSO then (s.ksReply 2).writeDropped 0x080014
  else if s.get R.LC_STATE_CODE ≠ 2 then s.ksReply 8
  else s.ksAccept.askDraw 80 .identity

/-- The identity item that KS_ID_SEL.ITEM selects. -/
def State.idItem (s : State) : Bytes :=
  match s.get R.KS_ID_SEL_ITEM with
  | 1 => s.ks.idEcPub | 2 => s.ks.idPqPub | 3 => s.ks.idEcCert | 4 => s.ks.idPqCert | _ => []

/-- A read of KS_ID_DATA: the word is returned (it stays in DATA) and WORD advances. -/
def State.idRead (s : State) : State :=
  let w := s.get R.KS_ID_SEL_WORD
  (s.set R.KS_ID_DATA_DATA 0 (fieldLE (fitTo 8 (cut s.idItem (8 * w) 8)) 0 8)).set R.KS_ID_SEL_WORD 0 (w + 1)

/-! ## Invalidated keys (R199, R200) -/

/-- Event 2: the generations of invalidated indices rise (R199); a home member announces it (R363). -/
def State.bumpDomain (s : State) (n : Nat) : State :=
  let d := s.domain n
  if d.bumps = [] then s
  else
    let t := s.modDomain n (fun x => { x with
      bumps := []
      gens := d.bumps.foldl (fun g b => Tab.put 0 g b.index (b.gen + 1)) x.gens
      dying := x.dying ++ d.bumps.map (fun b => { index := b.index, slots := b.slots, frame := s.frameNo, handles := [] }) })
    if d.bumps.any (fun b => decide (b.index < 0x800000)) then
      { t with net := { t.net with changed := if t.net.changed.contains n then t.net.changed else t.net.changed ++ [n] } }
    else t

/-- The KRC holds an entry that an invalidation still has to remove: of the index itself, or of the handles named. -/
def State.dyingEntry (s : State) (n : Nat) (e : Dying) (k : KeyRec) : Bool :=
  hSlice k.handle == n && (e.handles.contains k.handle
    || (e.index != 0 && hIndex k.handle == e.index && hGen k.handle != Tab.get 0 (s.domain n).gens e.index))

/-- An invalidated index becomes free once its entries are gone; one at generation 0xFFFF is retired (R185, R200). Its
record stays until the KRC holds no descendant of it either. -/
def State.freeIndex (s : State) (n idx : Nat) : State :=
  match (s.domain n).dying.find? (fun e => e.index == idx && !e.freed) with
  | none => s
  | some e =>
    if s.ks.krc.any (s.dyingEntry n e) then s
    else s.modDomain n (fun x => { x with
      dying := if s.ks.krc.any (s.bumpedEntry n) then x.dying.map (fun y => if y = e then { y with freed := true } else y)
        else x.dying.filter (fun y => y != e)
      freed := x.freed ++ ((List.range e.slots).map (· + idx)).filter (fun i =>
        decide (i < 0x800000) && decide (Tab.get 0 x.gens i < 0xFFFF) && !x.freed.contains i) })

/-- Unheld entries of an invalidated key and its descendants leave the KRC within 16 frames of the bump; when in
them is free (R200). -/
def State.evictDying (s : State) (n : Nat) (e : Dying) : State :=
  let (v, t) := s.fresh
  if v % 2 = 0 ∧ s.frameNo < e.frame + 16 then t
  else
    (t.ks.krc.filter (fun k => (t.dyingEntry n e k || (e.index != 0 && t.bumpedEntry n k)) && !t.isHeldKey k.handle)).foldl
      (fun u k => u.evict k false) t

/-- The records of freed indices go once the KRC holds no entry of an invalidated ancestor any more. -/
def State.dyingDone (s : State) (n : Nat) : State :=
  if s.ks.krc.any (s.bumpedEntry n) ∨ (s.domain n).dying.all (fun y => !y.freed) then s
  else s.modDomain n (fun x => { x with dying := x.dying.filter (fun y => !y.freed) })

/-- The key domains at event 2 of a boundary: indices freed, bumps, evictions. -/
def State.domainEvents (s : State) : State :=
  s.ks.domains.foldl (fun t e =>
    let n := e.1
    let t1 := ((t.domain n).dying.map (·.index)).foldl (fun u i => u.freeIndex n i) t
    let t2 := t1.bumpDomain n
    ((t2.domain n).dying.foldl (fun u y => u.evictDying n y) t2).dyingDone n) s

/-! ## Timeouts -/

/-- A continuation entry not consumed within 65,536 frames is freed (R169). -/
def State.contExpire (s : State) (n i : Nat) : State :=
  match ((s.slice n).cont.find? (fun e => e.1 == i)) with
  | some (_, _, _, f) => if f + 65536 ≤ s.frameNo then s.modSlice n (fun x => { x with cont := x.cont.del i }) else s
  | none => s

/-- 256 frames have passed without the next component (R211). -/
def State.componentExpire (s : State) (n : Nat) : State :=
  if s.ks.accums.any (fun a => a.slice == n && decide (a.frame + 256 ≤ s.frameNo)) then s.dropAccum n else s

/-- The timeouts of the key store that fall due at a boundary. -/
def State.ksTimeouts (s : State) : State :=
  let s1 := s.sliceNos.foldl (fun t n => ((t.slice n).cont.map (·.1)).foldl (fun u i => u.contExpire n i) t) s
  let s2 := (s1.ks.accums.map (·.slice)).foldl (fun t n => t.componentExpire n) s1
  if s2.ks.nodesAt + 4096 ≤ s2.frameNo then s2.nodesWritten else s2

/-! ## The commands of the table -/

def execIndexFreed (slice index : Nat) (s : State) : Host.Outcome State Fault Refusal := ok (s.freeIndex slice index)
def execCtNodeWriteback (s : State) : Host.Outcome State Fault Refusal := ok s.nodesWritten
def execContExpiry (slice entry : Nat) (s : State) : Host.Outcome State Fault Refusal := ok (s.contExpire slice entry)
def execComponentTimeout (slice : Nat) (s : State) : Host.Outcome State Fault Refusal := ok (s.componentExpire slice)
def execDatumGenerate (s : State) : Host.Outcome State Fault Refusal := ok (s.datumWrite 1)
def execDomainCreate (slice : Nat) (s : State) : Host.Outcome State Fault Refusal :=
  ok (s.ifWritable 0x08000C (s.domainCmd 1 slice))
def execDomainAdvance (slice : Nat) (s : State) : Host.Outcome State Fault Refusal :=
  ok (s.ifWritable 0x08000C (s.domainCmd 2 slice))
def execRaiseFloor (slice : Nat) (s : State) : Host.Outcome State Fault Refusal :=
  ok (s.ifWritable 0x08000C (s.domainCmd 3 slice))
def execDomainRekey (slice : Nat) (s : State) : Host.Outcome State Fault Refusal :=
  ok (s.ifWritable 0x08000C (s.domainCmd 4 slice))
def execDomainDestroy (slice : Nat) (s : State) : Host.Outcome State Fault Refusal :=
  ok (s.ifWritable 0x08000C (s.domainCmd 5 slice))
def execIdGenerate (s : State) : Host.Outcome State Fault Refusal := ok (s.ifWritable 0x080014 s.idGenerate)
def execKsIdDataRead (s : State) : Host.Outcome State Fault Refusal := ok (s.ifWritable 0x080088 s.idRead)

end Sys2Proof.Machine
end

