-- ==== Sys2Proof/Machine/Tamper.lean ====
section
/-! DEFINITION. The end of a session (R244, R245), the tamper monitor and its response (R259 to R274). -/

namespace Sys2Proof.Machine

/-! ## Sessions end (R244, R245) -/

/-- The session of a scope. -/
def State.session (s : State) (scope : Nat) : Session := Tab.get {} s.sessions scope

/-- The session of a scope changed by `f`. -/
def State.modSession (s : State) (scope : Nat) (f : Session → Session) : State :=
  { s with sessions := Tab.upd {} s.sessions scope f }

/-- Staged shadows that the session covered return to the values in effect (R245, R377). -/
def State.discardCovered (s : State) (scope id : Nat) : State :=
  let keys := (s.cover.filter (fun e => e.2 == id + 1)).map Prod.fst
  if keys = [] then s
  else
    let t := { s with
      shadows := s.shadows.filter (fun e => !keys.contains e.1), cover := s.cover.filter (fun e => e.2 != id + 1) }
    (t.set R.GLB_CFG_STS_STALE 0 1).record 0x0503 2 scope id keys.length

/-- A session ends: scalar and transport keys are cleared, its accumulator and staged writes are discarded. -/
def State.endSession (s : State) (scope : Nat) : State :=
  let se := s.session scope
  if se.st = 0 then s
  else
    let t := { s with
      sessions := s.sessions.del scope
      ks := { s.ks with accums := s.ks.accums.filter (fun a => !(a.slice == scope && a.session == se.id)) } }
    ((t.lcEvt R.LC_EVT_STS_SESSION).record 0x0501 1 scope se.id 0).discardCovered scope se.id

/-- Every session whose scope satisfies `p` ends, in order of scope. -/
def State.endSessions (s : State) (p : Nat → Bool) : State :=
  ((s.sessions.map Prod.fst).filter p).foldl (fun t n => t.endSession n) s

/-! ## Events of the tamper monitor (R274) -/

/-- A cause or report seen: TMP_EVT_STS while powered, TMP_BAT_EVT always. -/
def State.tmpEvent (s : State) (b : Nat) : State :=
  let t := if s.glb.powered then s.event R.TMP_EVT_STS_EVT R.TMP_IRQ_EN_EN 5 (2 ^ b) else s
  t.set R.TMP_BAT_EVT_EVT 0 (t.get R.TMP_BAT_EVT_EVT ||| 2 ^ b)

/-- The first cause latched while TMP_BAT_EVT reads zero is described in TMP_EVT_INFO. -/
def State.tmpCapture (s : State) (b src : Nat) : State :=
  if s.get R.TMP_BAT_EVT_EVT ≠ 0 then s
  else ((s.put1 R.TMP_EVT_INFO_BATT (!s.glb.powered)).set R.TMP_EVT_INFO_FIRST 0 b).set R.TMP_EVT_INFO_SOURCE 0 src

/-! ## The response (R260 to R263) -/

/-- Stage 1: Datum and BBRAM cleared, the clamp set, TAMPER_OUT driven, TMP_CNT_RESP advanced. -/
def State.tamperStage1 (s : State) : State :=
  let b := s.bbClear
  let t := { b with tmp := { b.tmp with outLatch := true } }
  ((t.set R.KS_STS_DATUM 0 0).set R.TMP_STS_CLAMP 0 1).bump R.TMP_CNT_RESP_COUNT

/-- Every key store key that lives in volatile memory cleared. -/
def State.clearKeys (s : State) : State :=
  { s with ks := { s.ks with
      krc := [], tier2 := [], krcKey := [], tierKey := [], tuCarry := [], laneCarry := [], contKey := [], ekSegs := []
      windows := [], accums := []
      domains := s.ks.domains.mapv {} (fun d => { d with ek := [], root := [] }) } }

/-- Net link keys erased (R260, R367). -/
def State.clearLinkKeys (s : State) : State :=
  { s with net := { s.net with ports := s.net.ports.mapv {} (fun p => { p with key := none, next := none }) } }

/-- Every register field whose offset satisfies `p` at its reset value. -/
def State.clearRegs (s : State) (p : Nat → Bool) : State := { s with regs := s.regs.filter (fun e => !p (e.1 / 64)) }

/-- A keyed Net link at key ID 0 (R366, R367). -/
def NetPort.noKeys (x : NetPort) : NetPort :=
  { x with key := none, next := none, txSwitch := none, rxSwitch := none, sent := 0, rcvd := 0, markHops := none, routes := [] }

/-- What a member holds of its Net goes: NRK with the membership, the member table and the replication table (R348,
R366, R367); links that were UP are at key ID 0. -/
def State.loseMembership (s : State) : State :=
  let ports := [0, 1, 2, 3].filter (fun p => s.get R.NET_PORT_STS_STATE p == 3)
  let t := { s with net := { s.net with
    nrk := [], netId := [], boot := [], counter := 0, bench := 0, seen := [], slices := [], changed := [], lapsed := []
    joining := none, jobs := none, drawn := [], aligning := false, stepTo := none, digest := [], digestSeq := 0
    ports := s.net.ports.mapv {} NetPort.noKeys } }
  let t := { t with ks := { t.ks with image := t.ks.image.del 2 }, fb := { t.fb with toWitness := [] } }
  let u := (t.clearRegs (fun o => o == 0x130004 || decide (0x131000 ≤ o ∧ o < 0x132000) || decide (0x134000 ≤ o ∧ o < 0x13C000)))
  ports.foldl (fun v p => (v.set R.NET_PORT_STS_STATE p 2).set R.NET_PORT_STS_KEYID p 0) u

/-- A live link of the Net goes down with its keys, with the event and the record of a link that goes down (R352, R367). -/
def State.linkKilled (s : State) (p : Nat) : State :=
  let t := (s.set R.NET_PORT_STS_STATE p 4).set R.NET_PORT_STS_KEYID p 0
  (t.netErr R.NET_ERR_STS_LINK_DOWN p (t.get R.NET_PORT_STS_PEER p) 0).record 0x0804 2 devScope 1 p (t.get R.NET_PORT_STS_CAUSE p)

/-- Stage 2: the volatile secrets cleared, the links of the Net down and every session ended. -/
def State.tamperStage2 (s : State) : State :=
  let live := [0, 1, 2, 3].filter (fun p => s.get R.NET_PORT_STS_STATE p == 2 || s.get R.NET_PORT_STS_STATE p == 3)
  let t := live.foldl (fun v p => v.linkKilled p) s.clearKeys.clearLinkKeys
  let u := { t with
    rng := { t.rng with reserve := [], admin := [], queue := [], last := [], exps := [], closed := [], masks := [] }
    tiles := {}
    fab := { t.fab with
      allocs := [], ram := t.fab.ram.filter (fun c => decide (0x05600000 ≤ c.1)) } }
  (u.setWaiting []).endSessions (fun _ => true)

/-- The record of a tamper: the latched events, what TMP_EVT_INFO says, and whether it was found on battery. -/
def State.tamperRecord (s : State) (battery : Bool) : State :=
  s.recordAs false true 0x0601 3 devScope (s.get R.TMP_BAT_EVT_EVT) (s.storedAt 0x0C0010) 0 (b2n battery)

/-- Stage 3: the fatal event, the Fieldbook record and flush, vector 5, and the halt (R260, R263). -/
def State.tamperStage3 (s : State) : State :=
  let t := ((s.breakPromises ccFatalTamper).tamperRecord false).flush 2
  (t.set R.TMP_STS_HALT 0 1).raise 5

/-- A tamper response; on battery stage 1 alone. One under way is not restarted, and the causes of one battery check start one (R262). -/
def State.respond (s : State) : State :=
  if !s.glb.powered then
    if s.tmp.once = 2 then s
    else
      let t := s.tamperStage1
      { t with tmp := { t.tmp with battRecord := true, once := if t.tmp.once = 1 then 2 else 0 } }
  else if s.frameNo < s.tmp.respEnd then s
  else
    let t := s.tamperStage1
    ({ t with tmp := { t.tmp with respEnd := t.frameNo + 10 } }).fatalRecords.tamperStage2.tamperStage3

/-- The monitor is off in END and INVALID: it checks and clears nothing (R259). -/
def State.tmpOff (s : State) : Bool := s.get R.LC_STATE_CODE == 5 || s.get R.LC_STATE_CODE == 7

/-- A cause arises from `src`: nothing in END and INVALID; a response where causes are armed, else UNARMED (R259). -/
def State.cause (s : State) (b src : Nat) : State :=
  if s.tmpOff then s
  else
    let t := (s.tmpCapture b src).tmpEvent b
    let u := if s.glb.powered then t.set R.TMP_STS_ACTIVE 0 (t.get R.TMP_STS_ACTIVE ||| 2 ^ b) else t
    if u.armed then u.respond else u.tmpEvent 20

/-- A report, which starts no response. -/
def State.tmpReport (s : State) (b : Nat) : State :=
  if s.tmpOff then s else s.tmpEvent b

/-! ## Sensors -/

/-- A 2-bit group of a status field changed. -/
def put2 (v i x : Nat) : Nat := v - (v / 4 ^ i % 4) * 4 ^ i + (x % 4) * 4 ^ i

/-- A bit period is a mismatch of pair `p`: a sample differs from the driven bit (R264). -/
def meshMiss (b : MeshBit) (p : Nat) : Bool := bit b.up p != bit b.drv p || bit b.down p != bit b.drv p

/-- The state of pair `p` from its last periods, newest first (R264): OPEN when the samples differ; of equal ones SHORT_SUPPLY when 16
stay at one level, SHORT_PAIR when 16 follow another pair; OK without a mismatch, else the earlier state (assumption 86). -/
def meshState (old p : Nat) (l : List MeshBit) : Nat :=
  match l with
  | [] => old
  | b :: _ =>
    let same := l.length == 16 && l.all (fun x => bit x.up p == bit x.down p)
    if !l.any (fun x => meshMiss x p) then 0
    else if bit b.up p != bit b.down p then 1
    else if same && l.all (fun x => bit x.up p == bit b.up p) then 3
    else if same && (List.range 8).any (fun q => q != p && l.all (fun x => bit x.up p == bit x.drv q)) then 2
    else old

/-- A bit period of an enabled mesh pair: the second mismatch in a row is a MESH cause (R264). -/
def State.meshBit (s : State) (p : Nat) (b : MeshBit) : State :=
  if s.tmpOff ∨ 8 ≤ p ∨ !bit (s.get R.TMP_MESH_CFG_EN) p then s
  else
    let seen := (b :: Tab.get [] s.tmp.meshSeen p).take 16
    let run := if meshMiss b p then Tab.get 0 s.tmp.meshRun p + 1 else 0
    let t := { s with tmp := { s.tmp with meshSeen := Tab.put [] s.tmp.meshSeen p seen, meshRun := Tab.put 0 s.tmp.meshRun p run } }
    let u := t.set R.TMP_MESH_STS_PAIR 0 (put2 (t.get R.TMP_MESH_STS_PAIR) p (meshState (t.get R.TMP_MESH_STS_PAIR / 4 ^ p % 4) p seen))
    if run = 2 then u.cause 0 p else u

/-- Bit periods of one pair, oldest first. -/
def State.meshBits (s : State) (p : Nat) (bs : List MeshBit) : State := bs.foldl (fun t b => t.meshBit p b) s

/-- Every enabled pair returned its pattern. -/
def State.meshGood (s : State) : State :=
  if s.tmpOff then s
  else ({ s with tmp := { s.tmp with meshSeen := [], meshRun := [] } }).set R.TMP_MESH_STS_PAIR 0 0

/-- The configuration byte of a TS input (R266). -/
def State.tsByte (s : State) (i : Nat) : Nat := s.get R.TMP_TS_CFG_INPUT / 256 ^ i % 256

/-- An enabled TS input held abnormal, or OPEN, for DEB samples (R266). -/
def State.tsAbnormal (s : State) (i : Nat) (opened : Bool) : State :=
  let b := s.tsByte i
  if s.tmpOff ∨ 4 ≤ i ∨ !bit b 0 then s
  else
    let st := if opened then 2 else if bit b 1 then 0 else 1
    let t := s.set R.TMP_TS_STS_INPUT 0 (put2 (s.get R.TMP_TS_STS_INPUT) i st)
    if opened ∧ !bit b 2 then t.tmpReport 16 else t.cause 1 i

/-- ZEROIZE_N low for 200 ns (R267). -/
def State.zeroizePin (s : State) : State :=
  (({ s with tmp := { s.tmp with zeroLow := true } }).set R.MGT_PIN_STS_ZEROIZE_N 0 0).cause 2 0

/-- A rail below its under-voltage threshold (R268): a cause while it is armed. Rails 0 to 6 are looked at while powered. -/
def State.railUv (s : State) (r : Nat) : State :=
  if s.tmpOff ∨ 8 ≤ r ∨ (r ≤ 6 ∧ !s.glb.powered) then s
  else
    let t := s.set R.TMP_RAIL_STS_UV 0 (s.get R.TMP_RAIL_STS_UV ||| 2 ^ r)
    if r = 7 ∨ s.tmp.uvArmed then t.cause 3 r else t

/-- A rail above its over-voltage threshold (R268). -/
def State.railOv (s : State) (r : Nat) : State :=
  if s.tmpOff ∨ 8 ≤ r ∨ (r ≤ 6 ∧ !s.glb.powered) then s else (s.set R.TMP_RAIL_STS_OV 0 (s.get R.TMP_RAIL_STS_OV ||| 2 ^ r)).cause 4 r

/-- A temperature in sixteenths of a degree lies beyond the limits of TEMP (R259). -/
def tempOutside (t : Int) : Bool := decide (t < -640 ∨ 1600 < t)

/-- A sample of a temperature sensor (R269); the second one in a row beyond the limits is a cause. -/
def State.tempSample (s : State) (i : Nat) (v : Int) : State :=
  if s.tmpOff then s else
  let t := s.set R.TMP_TEMP_TEMP i (v % 65536).toNat
  let before := t.tmp.tempOut.contains i
  let out := tempOutside v
  let u := { t with tmp := { t.tmp with
    tempOut := if out then (if before then t.tmp.tempOut else t.tmp.tempOut ++ [i]) else t.tmp.tempOut.filter (· != i) } }
  if out ∧ before then u.cause 5 i else u

/-- Two consecutive samples beyond the limits, the last of them given (the command TEMP). -/
def State.tempCause (s : State) (i : Nat) (celsius : Int) : State :=
  if s.tmpOff ∨ 5 ≤ i then s
  else
    let t := s.set R.TMP_TEMP_TEMP i (16 * celsius % 65536).toNat
    let out := tempOutside (16 * celsius)
    let u := { t with tmp := { t.tmp with
      tempOut := if !out then s.tmp.tempOut.filter (· != i) else if s.tmp.tempOut.contains i then s.tmp.tempOut
        else s.tmp.tempOut ++ [i] } }
    if out then u.cause 5 i else u

/-- A light sensor above threshold (R269). -/
def State.lightTrip (s : State) (i : Nat) : State :=
  if s.tmpOff ∨ 16 ≤ i ∨ (!s.glb.powered ∧ 2 ≤ i) then s
  else (s.set R.TMP_LIGHT_STS_TRIP 0 (s.get R.TMP_LIGHT_STS_TRIP ||| 2 ^ i)).cause 6 i

/-- A supply or clock glitch (R269), checked while powered. -/
def State.glitch (s : State) (src : Nat) : State := if s.glb.powered then s.cause 7 src else s

/-- TMP_RAIL_STS of rail 8, VBAT, against its thresholds (R268). -/
def State.vbatRail (s : State) (mv : Nat) : State :=
  (s.set R.TMP_RAIL_STS_UV 0 (s.get R.TMP_RAIL_STS_UV % 256 + 256 * b2n (decide (mv < 2300)))).set R.TMP_RAIL_STS_OV 0
    (s.get R.TMP_RAIL_STS_OV % 256 + 256 * b2n (decide (3900 < mv)))

/-- VBAT measured with main power absent: rail 8 shows it, and out of range it is a cause (R268). -/
def State.vbatCause (s : State) (mv : Nat) : State :=
  if s.tmpOff ∨ s.glb.powered then s
  else if 2300 ≤ mv ∧ mv ≤ 3900 then s.vbatRail mv
  else (s.vbatRail mv).cause 8 8

/-- VBAT read while powered (R270): outside 2.50 V to 3.60 V it is reported. -/
def State.vbatPowered (s : State) (mv : Nat) : State :=
  if s.tmpOff ∨ !s.glb.powered then s
  else
    let good := decide (2500 ≤ mv ∧ mv ≤ 3600)
    let t := (((s.vbatRail mv).set R.TMP_VBAT_MV 0 mv).set R.TMP_VBAT_REV 0 0).put1 R.TMP_STS_BAT_OK good
    if good then t else t.tmpReport 17

/-- VBAT reversed (R270): below its operating range too. With main power absent the battery domain then has no supply at all: Datum and the canary are lost. -/
def State.vbatReversed (s : State) : State :=
  if !s.glb.powered then { s.bbClear with tmp := { s.bbClear.tmp with canary := false } }
  else if s.tmpOff then s
  else
  (((((s.vbatRail 0).set R.TMP_VBAT_MV 0 0).set R.TMP_VBAT_REV 0 1).set R.TMP_STS_BAT_OK 0 0).tmpReport 17).tmpReport 18

/-- The clamp clears at the first mesh and TS check that finds no response cause (R263). -/
def State.clampClears (s : State) : State := (s.set R.TMP_STS_ACTIVE 0 0).set R.TMP_STS_CLAMP 0 0

/-- What a powered check that finds no response cause shows of the sensors: the mesh OK, every TS input normal but one that is OPEN
and does not respond, no light sensor tripped and rails 0 to 7 within their thresholds (R264, R266, R268, R269). -/
def State.sensorsQuiet (s : State) : State :=
  let now := s.get R.TMP_TS_STS_INPUT
  let ts := (List.range 4).foldl (fun v i =>
    let b := s.tsByte i
    put2 v i (if !bit b 0 then 3 else if now / 4 ^ i % 4 = 2 ∧ !bit b 2 then 2 else if bit b 1 then 1 else 0)) 0
  ((((s.meshGood.set R.TMP_TS_STS_INPUT 0 ts).set R.TMP_LIGHT_STS_TRIP 0 0).set R.TMP_RAIL_STS_UV 0
    (s.get R.TMP_RAIL_STS_UV / 256 * 256)).set R.TMP_RAIL_STS_OV 0 (s.get R.TMP_RAIL_STS_OV / 256 * 256))

/-- A powered check that finds no response cause (R263); while ZEROIZE_N is low one is present (R267). -/
def State.poweredCheck (s : State) : State :=
  if !s.glb.powered ∨ s.tmpOff ∨ s.tmp.zeroLow then s else s.sensorsQuiet.clampClears

/-- ZEROIZE_N at a moment: low, it is a cause when it falls; high, it lets the clamp go (R267). -/
def State.zeroizeLevel (s : State) (low : Bool) : State :=
  if low then (if s.tmp.zeroLow then s else s.zeroizePin)
  else ({ s with tmp := { s.tmp with zeroLow := false } }).set R.MGT_PIN_STS_ZEROIZE_N 0 1

/-- The samples for which a TS state must hold (R266). -/
def debSamples (b : Nat) : Nat := match bits b 4 3 with | 0 => 2 | 1 => 8 | 2 => 32 | _ => 128

/-- One TS sample of a battery check. -/
def State.tsSample (s : State) (i st : Nat) : State :=
  let b := s.tsByte i
  if 4 ≤ i ∨ !bit b 0 then s
  else
    let open_ := st == 2
    let bad := !open_ && (st != if bit b 1 then 1 else 0)
    let nb := if bad then Tab.get 0 s.tmp.tsBad i + 1 else 0
    let no := if open_ then Tab.get 0 s.tmp.tsOpen i + 1 else 0
    let t := ({ s with tmp := { s.tmp with tsBad := Tab.put 0 s.tmp.tsBad i nb, tsOpen := Tab.put 0 s.tmp.tsOpen i no } }).set
      R.TMP_TS_STS_INPUT 0 (put2 (s.get R.TMP_TS_STS_INPUT) i st)
    if no = debSamples b then t.tsAbnormal i true else if nb = debSamples b then t.tsAbnormal i false else t

/-- The state a battery check reads of a TS input. -/
def State.tsRead (s : State) (c : BatteryReadings) (i : Nat) : Nat :=
  match c.ts.find? (fun e => e.1 == i) with
  | some e => e.2
  | none => b2n (bit (s.tsByte i) 1)

/-- The mesh and the TS inputs show no response cause: no pair with two mismatches in a row, no input abnormal, or OPEN where that
responds, for its DEB samples (R264, R266). -/
def State.enclosureQuiet (s : State) : Bool :=
  (List.range 8).all (fun p => !bit (s.get R.TMP_MESH_CFG_EN) p || decide (Tab.get 0 s.tmp.meshRun p < 2))
    && (List.range 4).all (fun i =>
      let b := s.tsByte i
      !bit b 0 || (decide (Tab.get 0 s.tmp.tsBad i < debSamples b) && (!bit b 2 || decide (Tab.get 0 s.tmp.tsOpen i < debSamples b))))

/-- The check of every millisecond on battery (R264, R266, R268, R269), which starts one response at most (R262); one that finds no
response cause clears the clamp. -/
def State.batteryCheck (s : State) (c : BatteryReadings) : State :=
  if s.glb.powered ∨ s.tmpOff then s
  else if c.reversed then s.vbatReversed
  else
    let s0 := { s with tmp := { s.tmp with once := 1 } }
    let s1 := if c.mesh = [] then s0.meshGood else (List.range 8).foldl (fun t p => t.meshBits p c.mesh) s0
    let s2 := (List.range 4).foldl (fun t i => t.tsSample i (s.tsRead c i)) s1
    let lit := c.light.filter (fun i => decide (i < 2))
    let s3 := lit.foldl (fun t i => t.lightTrip i) (s2.set R.TMP_LIGHT_STS_TRIP 0 (s2.get R.TMP_LIGHT_STS_TRIP / 4 * 4))
    let hot := tempOutside c.temp && s3.tmp.tempOut.contains 4
    let s4 := s3.tempSample 4 c.temp
    let s5 := s4.vbatCause c.vbat
    let s6 := s5.zeroizeLevel c.zeroize
    let quiet := s6.enclosureQuiet && !c.zeroize && lit.isEmpty && !hot && decide (2300 ≤ c.vbat ∧ c.vbat ≤ 3900)
    let s7 := { s6 with tmp := { s6.tmp with once := 0 } }
    if quiet then s7.clampClears else s7

/-- What the tamper monitor samples every frame while powered (R267, R270, R274): ZEROIZE_N and VBAT. -/
def State.tamperPins (s : State) (env : FrameEnv) : State :=
  let t := s.zeroizeLevel env.zeroizeLow
  if env.vbatRev then t.vbatReversed else t.vbatPowered env.vbat

/-! ## The commands of the table -/

def execTmpMesh (run : MeshRun) (s : State) : Host.Outcome State Fault Refusal := ok (s.meshBits run.pair run.periods)
def execTmpTs (input : Nat) (opened : Bool) (s : State) : Host.Outcome State Fault Refusal := ok (s.tsAbnormal input opened)
def execTmpZeroize (s : State) : Host.Outcome State Fault Refusal := ok s.zeroizePin
def execTmpRailUv (rail : Nat) (s : State) : Host.Outcome State Fault Refusal := ok (s.railUv rail)
def execTmpRailOv (rail : Nat) (s : State) : Host.Outcome State Fault Refusal := ok (s.railOv rail)
def execTmpTemp (sensor : Nat) (celsius : Int) (s : State) : Host.Outcome State Fault Refusal :=
  ok (s.tempCause sensor celsius)
def execTmpLight (sensor : Nat) (s : State) : Host.Outcome State Fault Refusal := ok (s.lightTrip sensor)
def execTmpGlitch (source : Nat) (s : State) : Host.Outcome State Fault Refusal := ok (s.glitch source)
def execTmpVbat (mv : Nat) (s : State) : Host.Outcome State Fault Refusal := ok (s.vbatCause mv)
def execBatteryCheck (check : BatteryReadings) (s : State) : Host.Outcome State Fault Refusal := ok (s.batteryCheck check)
def execBatLow (mv : Nat) (s : State) : Host.Outcome State Fault Refusal := ok (s.vbatPowered mv)
def execBatRev (s : State) : Host.Outcome State Fault Refusal := ok s.vbatReversed
def execPoweredCheck (s : State) : Host.Outcome State Fault Refusal :=
  ok s.poweredCheck

end Sys2Proof.Machine
end

