-- ==== Sys2Proof/Machine/Lifecycle.lean ====
section
/-! DEFINITION. The lifecycle controller (R228 to R238), debug authorization (R248 to R253), OTP fields (R254, R255)
and capability fuses (R256). -/

namespace Sys2Proof.Machine

/-! ## Lifecycle words (R229 to R231) -/

/-- The word of each state, in path order. -/
def lcWords : List Nat :=
  [0x0000000000000000, 0x00000F00000000FF, 0x0000FF000000FFFF, 0x000FFF0000FFFFFF, 0x00FFFF00FFFFFFFF,
   0x0FFFFFFFFFFFFFFF]

def lcWord (code : Nat) : Nat := lcWords.getD code 0

/-- The permitted successors (R232). -/
def lcSuccessor (a b : Nat) : Bool :=
  (a == 0 && b == 1) || (a == 1 && b == 2) || (a == 2 && b == 3) || (a == 3 && b == 4) || (1 ≤ a && a ≤ 4 && b == 5)

/-- `a` has no bit that `b` lacks. -/
def subBits (a b : Nat) : Bool := a &&& b == a

/-- How a copy decodes (R230): (state, none), or pending B from A as (A, some B), or invalid. -/
def lcDecode (w : Nat) : Option (Nat × Option Nat) :=
  match (List.range 6).find? (fun i => lcWord i == w) with
  | some i => some (i, none)
  | none =>
    let a := ((List.range 6).filter (fun i => subBits (lcWord i) w)).getLastD 0
    match (List.range 6).find? (fun i => subBits w (lcWord i)) with
    | none => none
    | some b => if lcSuccessor a b then some (a, some b) else none

/-- The place of a copy on the path (R231): a pending one lies above A and below B. -/
def lcRank (d : Nat × Option Nat) : Nat := 10 * d.1 + d.2.getD 0

/-- The resolution of the copies (R231): the state entered, whether the zeroization of R237 runs first, and which
copies are valid. RETURN or END is entered here while a valid copy still lies behind it: the end of R234 was not reached. -/
def lcResolve (copies : List Nat) : Nat × Bool × Nat :=
  let ds := copies.map lcDecode
  let valid := (ds.zipIdx.foldl (fun m e => if e.1.isSome then m + 2 ^ e.2 else m) 0)
  let best := ds.foldl (fun (acc : Option (Nat × Option Nat)) d => match acc, d with
    | none, x => x
    | x, none => x
    | some x, some y => if lcRank x < lcRank y then some y else some x) none
  match best with
  | none => (7, false, valid)
  | some (a, none) => (a, (a == 4 || a == 5) && ds.any (fun d => match d with | some x => decide (lcRank x < 10 * a) | none => false), valid)
  | some (_, some b) => (b, b == 4 || b == 5, valid)

/-- The bits of `want` that `have_` lacks, most significant first, for programming a copy of a field. -/
def missingBits (field copy width want have_ : Nat) : List (Nat × Nat × Nat) :=
  (((List.range width).reverse).filter (fun i => bit want i && !bit have_ i)).map (fun i => (field, copy, i))

/-- Every valid copy programmed forward to the state entered, most significant bit first; a copy with a bit that fails stays as it
stands then (R231). `stuck` lists such bits: copy and bit. -/
def lcForward (copies : List Nat) (code : Nat) (stuck : List (Nat × Nat)) : List Nat :=
  copies.zipIdx.map (fun e =>
    if (lcDecode e.1).isNone then e.1
    else ((missingBits 0 e.2 60 (lcWord code) e.1).takeWhile (fun b => !stuck.contains (e.2, b.2.2))).foldl
      (fun w b => w ||| 2 ^ b.2.2) e.1)

/-- The bits a transition programs (R229, R234, R238): copy 0, 1, 2, each from the most significant bit down; only in
INVALID into invalid copies. -/
def State.lcBits (s : State) (target : Nat) : List (Nat × Nat × Nat) :=
  s.lc.copies.zipIdx.flatMap (fun e =>
    if (lcDecode e.1).isSome || s.get R.LC_STATE_CODE == 7 then missingBits 0 e.2 60 (lcWord target) e.1 else [])

/-! ## OTP fields (R254 to R256) -/

/-- Bytes of a field (R254); the tables as their owning chapters state (R332, R339, R340), and those no chapter owns as long as
LC_OTP_BUF (assumption 77). -/
def otpSize (code : Nat) : Nat :=
  if code = 1 ∨ code = 0x11 ∨ code = 0x12 then 16
  else if code = 0x10 then 4
  else if code = 5 ∨ code = 6 ∨ code = otpDeviceSecret then 32 else 48

/-- Programmed and undamaged. -/
def State.otpGood (s : State) (code : Nat) : Bool := (s.otpAt code).lock && !(s.otpAt code).damaged code

/-- The state in which a field is programmed (R254). -/
def otpState (code : Nat) : Nat := if code = 4 ∨ code = 5 then 2 else 1

/-- Fuse bits that name a unit or feature (R256). -/
def fuseMask : Nat := (2 ^ 180 - 1) + 15 * 2 ^ 192

/-- Units that fuses `v` leave: TUs, cipher lanes, hash lanes, PK tiles, lattice units (R256). -/
def fuseUnits (v : Nat) : List Nat :=
  [64 - popCount 64 v, 32 - popCount 32 (v / 2 ^ 64), 32 - popCount 32 (v / 2 ^ 96), 32 - popCount 32 (v / 2 ^ 128),
   16 - popCount 16 (v / 2 ^ 160)]

/-- The least number of each unit (R256). -/
def fuseMinimum (v : Nat) : Bool :=
  ((fuseUnits v).zip [4, 4, 4, 1, 1]).all (fun e => decide (e.2 ≤ e.1))

/-- LC_OTP_BUF as a number. -/
def State.otpBuf (s : State) : Nat :=
  (List.range 6).foldl (fun n i => n + s.get R.LC_OTP_BUF_DATA i * 2 ^ (64 * i)) 0

/-- LC_OTP_STS.ERR. -/
def State.otpErr (s : State) (e : Nat) : State := s.set R.LC_OTP_STS_ERR 0 e

/-- LC_OTP_CMD with OP = PROGRAM (R254). -/
def State.otpProgram (s : State) (code : Nat) : State :=
  let f := s.otpAt code
  let raw := s.otpBuf % 2 ^ (8 * otpSize code)
  let v := if code = 5 then raw &&& fuseMask else raw
  let w := 8 * otpSize code
  if s.on R.LC_OTP_STS_BUSY then s
  else if !otpCodes.contains code then s.otpErr 1
  else if s.get R.LC_STATE_CODE ≠ otpState code then s.otpErr 2
  else if code ≠ 5 ∧ (f.lock ∨ !subBits f.a v ∨ !subBits f.b v) then s.otpErr 3
  else if code = 5 ∧ !fuseMinimum (f.a ||| f.b ||| v) then s.otpErr 4
  else
    let todo := missingBits code 0 w v f.a ++ missingBits code 1 w v f.b ++ (if code = 5 then [] else [(code, 2, 0)])
    if todo = [] then (s.otpErr 0).lcEvt R.LC_EVT_STS_OTP_DONE
    else (({ s with lc := { s.lc with otpBits := todo, otpTries := 0 } }).otpErr 0).set R.LC_OTP_STS_BUSY 0 1

/-- What a READ of a field gives (R254, R255): zero for the secret bank; of a damaged field the reading R255 names, and
where it names none a free value. -/
def State.otpReading (s : State) (code : Nat) : Nat × State :=
  let f := s.otpAt code
  if code = 6 then (0, s)
  else if code = 5 then (f.a ||| f.b, s)
  else if !f.damaged code then (f.a, s)
  else if code = 1 then (2 ^ 128 - 1, s)
  else let (b, t) := s.randomBytes 48; (ofLE b, t)

/-- LC_OTP_CMD with OP = READ (R254). -/
def State.otpRead (s : State) (code : Nat) : State :=
  if s.on R.LC_OTP_STS_BUSY then s
  else if !otpCodes.contains code then s.otpErr 1
  else
    let (v, t) := s.otpReading code
    ((((List.range 6).foldl (fun u i => u.set R.LC_OTP_BUF_DATA i (v / 2 ^ (64 * i))) t)).otpErr 0).lcEvt
      R.LC_EVT_STS_OTP_DONE

/-- One OTP bit set. -/
def State.otpSetBit (s : State) (b : Nat × Nat × Nat) : State :=
  let (code, copy, i) := b
  if code = 0 then
    { s with lc := { s.lc with copies := s.lc.copies.zipIdx.map (fun e => if e.2 = copy then e.1 ||| 2 ^ i else e.1) } }
  else
    { s with otp := Tab.upd {} s.otp code (fun f =>
      if copy = 0 then { f with a := f.a ||| 2 ^ i } else if copy = 1 then { f with b := f.b ||| 2 ^ i }
      else { f with lock := true }) }

/-! ## Transitions (R232 to R235) -/

/-- The lifecycle record of a write (R233). -/
def State.lcRecord (s : State) (target : Nat) : State := s.record 0x0504 2 devScope target (s.get R.LC_STS_ERR)

/-- An update is under way, from START on (R324): VERIFY to WRITTEN, a START that waits or whose head sector is being checked, or one
that a boot resumed. -/
def State.updating (s : State) : Bool :=
  let u := s.get R.UPD_STS_STATE
  (1 ≤ u && u ≤ 5) || (match s.upd.cmd with | some (1, _) => true | _ => false)
    || s.upd.cand.isSome || (u == 6 && s.get R.UPD_PROGRESS_NEXT != 0)

/-- Number of officers of a role enrolled in a scope (R240). -/
def State.enrolled (s : State) (scope role : Nat) : Nat :=
  ((Tab.get [] s.lc.officers scope).filter (fun o => o.role == role)).length

/-- M of a role in a scope's policy (QU_POLICY). -/
def policyField (role : Nat) : Field :=
  match role with | 0 => R.QU_POLICY_M_SO | 1 => R.QU_POLICY_M_KC | 2 => R.QU_POLICY_M_AUD | _ => R.QU_POLICY_M_OPER

def State.policyM (s : State) (scope role : Nat) : Nat := s.get (policyField role) scope

/-- A policy is valid (R240). -/
def State.policyValid (s : State) (scope : Nat) (m : Nat → Nat) : Bool :=
  (List.range 4).all (fun r => decide (1 ≤ m r ∧ m r ≤ 8) && (s.enrolled scope r == 0 || decide (m r ≤ s.enrolled scope r)))

/-- The preconditions of R232 other than session, receipt and closed debug. -/
def State.lcPrecondition (s : State) (a b : Nat) : Bool :=
  if a = 1 ∧ b = 2 then
    let d := s.otpAt otpDeviceSecret
    s.otpGood 1 && s.otpGood 2 && s.otpGood 3 && s.otpGood 6 && s.rngState == rngService
      && (d == {} || s.otpGood otpDeviceSecret)
  else if a = 2 ∧ b = 3 then
    s.on R.KS_STS_ID_PRESENT && s.otpGood 4 && decide (1 ≤ s.enrolled devSession roleSO)
      && s.policyValid devSession (s.policyM devSession)
  else true

/-- The ERR code of an LC_TRANSITION write, the first failure in the order of the codes (R233). -/
def State.lcCheck (s : State) (value : Nat) : Nat :=
  let a := s.get R.LC_STATE_CODE
  let b := bits value 3 0
  if bits value 63 32 ≠ s.storedAt 0x0A0004 then 1
  else if !(lcSuccessor a b || (a == 7 && b == 5)) then 2
  else if a = 3 ∧ !s.holds devSession roleSO then 3
  else if a = 3 ∧ !s.on R.LC_STS_ZRCPT then 4
  else if !s.lcPrecondition a b then 5
  else if s.on R.LC_STS_BUSY ∨ s.updating then 6
  else if a = 2 ∧ b = 3 ∧ s.get R.LC_DBG_STS_OPEN ≠ 0 then 7
  else 0

/-- A write of LC_TRANSITION (R233): SEQ advances, an accepted one waits for its boundary, and each is recorded. -/
def State.lcTransition (s : State) (value : Nat) : State :=
  let e := s.lcCheck value
  let t := (s.bump R.LC_TOKEN_SEQ).set R.LC_STS_ERR 0 e
  let u := if e = 0 then
      (({ t with lc := { t.lc with target := some (bits value 3 0), begun := false } }).set R.LC_STATE_TARGET 0
        (bits value 3 0)).set R.LC_STS_BUSY 0 1
    else t
  u.lcRecord (bits value 3 0)

/-- LC_TRANSITION reaches the LC in INVALID too (R238). -/
def State.lcWritable (s : State) : Bool :=
  s.writable 0x0A0008 || (s.get R.LC_STATE_CODE == 7 && decide (1 ≤ s.stage))

/-- Event 2: an accepted transition or zeroization takes effect and drains (R234, R236). -/
def State.lcBegin (s : State) : State :=
  if (s.lc.target.isSome && !s.lc.begun) || (s.lc.zeroize && !s.lc.zeroBegun) then
    ({ s with lc := { s.lc with
        begun := s.lc.target.isSome, zeroBegun := s.lc.zeroize, refuse := true } }).set R.LC_STS_DRAIN 0 1
  else s

/-! ## Zeroization (R236, R237) -/

/-- What a tamper response clears, the staging buffers and slots among it, with the second tier (R236, R260); the session of the
device survives. -/
def State.zeroClears (s : State) : State :=
  let t := (s.bbClear.clearKeys).clearLinkKeys
  (({ t with
    rng := { t.rng with reserve := [], admin := [], queue := [], last := [], exps := [], closed := [], masks := [] }
    fab := { t.fab with
      allocs := [], ram := t.fab.ram.filter (fun c => decide (0x05600000 ≤ c.1)) }
    tiles := {} }).set R.KS_STS_DATUM 0 0)

/-- N of each role shown in QU_OFFICERS. -/
def State.countOfficers (s : State) (scope : Nat) : State :=
  (((s.set R.QU_OFFICERS_N_SO scope (s.enrolled scope 0)).set R.QU_OFFICERS_N_KC scope (s.enrolled scope 1)).set
    R.QU_OFFICERS_N_AUD scope (s.enrolled scope 2)).set R.QU_OFFICERS_N_OPER scope (s.enrolled scope 3)

/-- The officer set of a scope erased, with its policy. -/
def State.eraseOfficers (s : State) (scope : Nat) : State :=
  let t := { s with
    lc := { s.lc with officers := s.lc.officers.del scope }
    ks := { s.ks with image := s.ks.image.del (2048 + scope) } }
  (List.range 4).foldl (fun u r => u.set (policyField r) scope 0) (t.countOfficers scope)

/-- Slice officer sets erased and slice sessions ended (R236, R239, R244). -/
def State.eraseSliceOfficers (s : State) : State :=
  let stored := ((s.ks.image.map Prod.fst).filter (fun i => decide (2048 ≤ i))).map (· - 2048)
  let scopes := (s.lc.officers.map Prod.fst ++ stored).eraseDups.filter (fun n => decide (n < devSession))
  (scopes.foldl (fun t n => t.eraseOfficers n) s).endSessions
    (fun n => decide (n < devSession))

/-- The zeroization of R236: keys, domains, leaves and slice officers; then the receipt and the record. -/
def State.zeroization (s : State) : State :=
  let t := s.zeroClears.eraseDomains.eraseSliceOfficers.loseMembership
  ((t.set R.LC_STS_ZRCPT 0 1).record 0x0505 3 devScope).lcEvt R.LC_EVT_STS_ZEROIZED

/-- Entry to RETURN or END runs the zeroization first; RETURN erases the officers of the device too (R237). -/
def State.enterZeroized (s : State) (code : Nat) : State :=
  if code = 4 then (s.zeroization.endSessions (fun n => n == devSession)).eraseOfficers devSession
  else if code = 5 then s.zeroization
  else s

/-- A write of LC_ZEROIZE (R236). -/
def State.lcZeroize (s : State) (op : Nat) : State :=
  if op ≠ 5 then s.set R.LC_STS_ERR 0 2
  else if !s.holds devSession roleSO then (s.set R.LC_STS_ERR 0 3).writeDropped 0x0A0014
  else if s.get R.LC_STATE_CODE ≠ 3 then s.set R.LC_STS_ERR 0 5
  else if s.on R.LC_STS_BUSY ∨ s.updating then s.set R.LC_STS_ERR 0 6
  else (({ s with lc := { s.lc with zeroize := true, zeroBegun := false } }).set R.LC_STS_ERR 0 0).set R.LC_STS_BUSY 0 1

/-- The drain of a zeroization has ended (R236). -/
def State.zeroizeDue (s : State) : Bool := s.lc.zeroize && s.lc.zeroBegun && decide (s.trv.cmds = [])

/-- No command is in flight at a boundary after the drain began: zeroization runs (R236). -/
def State.zeroizeDrained (s : State) : State :=
  if s.zeroizeDue then
    let t := s.zeroization
    (({ t with lc := { t.lc with zeroize := false, zeroBegun := false } }).set R.LC_STS_DRAIN 0 0).set R.LC_STS_BUSY 0 0
  else s

/-- Programming of the lifecycle bits starts; with nothing left to program the transition is at its end. -/
def State.lcProgram (s : State) (secret : Option Bytes) : State :=
  match s.lc.target with
  | none => s
  | some b =>
    let sec := match secret with
      | some x => let v := ofLE x
                  missingBits otpDeviceSecret 0 256 v 0 ++ missingBits otpDeviceSecret 1 256 v 0 ++ [(otpDeviceSecret, 2, 0)]
      | none => []
    { s with lc := { s.lc with programming := true, bits := sec ++ s.lcBits b, tries := 0 } }

/-- The last bit of a transition has been programmed: zeroization where R237 asks for it, then a cold reset at the next
boundary (R234). -/
def State.lcFinish (s : State) : State :=
  match s.lc.target with
  | some b =>
    if s.lc.programming ∧ s.lc.bits = [] then
      ({ s with lc := { s.lc with programming := false } }.enterZeroized b).askReset false 3 false
    else s
  | none => s

/-- The drain of a transition has ended (R234). -/
def State.drainDue (s : State) : Bool :=
  s.lc.target.isSome && s.lc.begun && !s.lc.programming && decide (s.trv.cmds = []) && s.on R.LC_STS_DRAIN

/-- No command is in flight: programming starts, after the draw of a device secret where it is wanted (R232, R234). -/
def State.lcDrained (s : State) : State :=
  match s.lc.target with
  | some b =>
    if s.drainDue then
      let t := s.set R.LC_STS_DRAIN 0 0
      if b = 2 ∧ s.otpAt otpDeviceSecret = {} then t.askDraw 32 .deviceSecret else (t.lcProgram none).lcFinish
    else s
  | none => s

/-- One try at the first bit of a list: it is programmed and read back, or after four tries its copy is left (R234). -/
def tryBit (ok_ : Bool) (tries : Nat) (todo : List (Nat × Nat × Nat)) : List (Nat × Nat × Nat) × Nat × Bool :=
  match todo with
  | [] => ([], 0, false)
  | b :: rest =>
    if ok_ then (rest, 0, false)
    else if tries + 1 < 4 then (b :: rest, tries + 1, false)
    else (rest.filter (fun x => !(x.1 == b.1 && x.2.1 == b.2.1)), 0, true)

/-- One bit of OTP in this frame (R234, R235, R254): of a transition, else of LC_OTP_CMD. -/
def State.otpBit (s : State) (ok_ : Bool) : State :=
  if s.glb.pwrFail ∨ s.clk.fatal ∨ s.clk.safe.isSome ∨ s.lc.bitRan then s
  else
    match s.lc.bits, s.lc.otpBits with
    | b :: _, _ =>
      let (rest, tries, failed) := tryBit ok_ s.lc.tries s.lc.bits
      let t := if ok_ then s.otpSetBit b else s
      let u := { t with lc := { t.lc with bits := rest, tries := tries, bitRan := true } }
      (if failed then u.lcEvt R.LC_EVT_STS_OTP_FAIL else u).lcFinish
    | [], b :: _ =>
      let (rest, tries, failed) := tryBit ok_ s.lc.otpTries s.lc.otpBits
      let t := if ok_ then s.otpSetBit b else s
      let u := { t with lc := { t.lc with otpBits := rest, otpTries := tries, bitRan := true } }
      let v := if failed then u.lcEvt R.LC_EVT_STS_OTP_FAIL else u
      if rest = [] then (v.set R.LC_OTP_STS_BUSY 0 0).lcEvt R.LC_EVT_STS_OTP_DONE else v
    | [], [] => s

/-! ## Debug (R248 to R253) -/

/-- LC_DBG_STS.ERR, with nothing being served. -/
def State.dbgReply (s : State) (e : Nat) : State := (s.set R.LC_DBG_STS_BUSY 0 0).set R.LC_DBG_STS_ERR 0 e

/-- A challenge asked for (R249). -/
def State.dbgChallenge (s : State) (scopes : Nat) : State :=
  let lc := s.get R.LC_STATE_CODE
  if s.on R.LC_DBG_STS_BUSY then s
  else if lc = 5 ∨ lc = 7 then s.dbgReply 6
  else ((s.set R.LC_DBG_STS_BUSY 0 1).set R.LC_DBG_STS_ERR 0 0).askDraw 16 (.debug (scopes % 16))

/-- The challenge at the boundary that serves its draw (R249). -/
def State.dbgDrawn (s : State) (scopes : Nat) (nonce : Bytes) : State :=
  let digest := (List.range 6).flatMap (fun i => toLE 8 (s.get R.UPD_FW_DIGEST_DIGEST i))
  let ch := [0x4B#8, 0x56#8, 0x44#8, 0x43#8] ++ toLE 1 (s.get R.LC_STATE_CODE) ++ toLE 1 scopes ++ fill 2 0
    ++ toLE 8 s.frameNo ++ fitTo 16 nonce ++ s.deviceId ++ digest
  let t := (List.range 12).foldl (fun u i => u.set R.LC_DBG_CHAL_DATA i (fieldLE ch (8 * i) 8)) s
  ({ t with lc := { t.lc with chal := some (s.frameNo, scopes) } }).dbgReply 0

/-- The 96 bytes of the challenge in force. -/
def State.dbgChalBytes (s : State) : Bytes := (List.range 12).flatMap (fun i => toLE 8 (s.get R.LC_DBG_CHAL_DATA i))

/-- An ECDSA P-384 signature over a message verifies under a public key of R160. -/
def p384Verify (pub msg sig : Bytes) : Bool :=
  let n := Config.curveOrder 0x41
  let r := ofBE (sig.take 48)
  let t := ofBE (cut sig 48 48)
  pointForm 0x41 pub && !pointBad 0x41 pub && decide (1 ≤ r ∧ r < n ∧ 1 ≤ t ∧ t < n)
    && Config.ecdsaVerify 0x41 pub (hashOf 0x03 48 msg) sig

/-- The debug authority hash (R250); a damaged field matches no key (R255). -/
def State.authorityHash (s : State) : Option Bytes :=
  if s.get R.LC_STATE_CODE ≤ 1 then some (fitTo 48 Config.testDebugHash)
  else if s.otpGood 2 then some (toLE 48 (s.otpAt 2).a) else none

/-- ERR of a response (R250). -/
def State.dbgCheck (s : State) (r : Option Bytes) : Nat :=
  let lc := s.get R.LC_STATE_CODE
  match s.lc.chal with
  | none => 2
  | some (frame, asked) =>
    if frame + 65536 ≤ s.frameNo then 2
    else match r with
    | none => 7
    | some x =>
      let b := fitTo 224 x
      let scopes := fieldLE b 4 1
      let pub := cut b 8 97
      if s.authorityHash ≠ some (hashOf 0x03 48 pub) then 3
      else if scopes = 0 ∨ !subBits scopes asked ∨ (lc = 3 ∧ !subBits scopes (s.get R.LC_DBG_POLICY_ALLOW))
          ∨ ((lc = 2 ∨ lc = 3) ∧ bit scopes 3) then 4
      else if !p384Verify pub (s.dbgChalBytes ++ b.take 112) (cut b 112 96) then 5
      else 0

/-- A response submitted (R250), or in RETURN the opening of scopes without one (R253). -/
def State.dbgRespond (s : State) (scopes : Nat) (r : Option Bytes) : State :=
  let lc := s.get R.LC_STATE_CODE
  if s.on R.LC_DBG_STS_BUSY then s
  else if lc = 5 ∨ lc = 7 then (s.dbgReply 6).lcEvt R.LC_EVT_STS_VERIFY
  else if lc = 4 then
    ({ s with lc := { s.lc with toOpen := some (scopes % 16, 0) } }).dbgReply 0
  else
    let e := s.dbgCheck r
    let t := if e = 2 then (s.dbgReply 2).lcEvt R.LC_EVT_STS_VERIFY
      else (({ s with lc := { s.lc with chal := none } }).dbgReply e).lcEvt R.LC_EVT_STS_VERIFY
    if e = 0 then
      let b := fitTo 224 (r.getD [])
      { t with lc := { t.lc with toOpen := some (fieldLE b 4 1, fieldLE (hashOf 0x03 48 (cut b 8 97)) 0 8) } }
    else t

/-- While debug is open in PROVISION or SERVICE the KRC gives up its unheld entries and the second tier is not used
(R251). -/
def State.suspendKeys (s : State) : State :=
  if s.on R.KS_STS_DEBUG_SUSP then
    { s with ks := { s.ks with krc := s.ks.krc.filter (fun k => s.isHeldKey k.handle), tier2 := [] } }
  else s

/-- The scopes of a verified response open at the boundary after it (R250, R251). -/
def State.debugOpen (s : State) : State :=
  match s.lc.toOpen with
  | none => s
  | some (scopes, who) =>
    let t := { s with lc := { s.lc with toOpen := none, lockSeen := false } }
    let lc := t.get R.LC_STATE_CODE
    let u := if lc = 2 ∨ lc = 3 then ((t.endSessions (fun _ => true)).set R.KS_STS_DEBUG_SUSP 0 1).suspendKeys else t
    ((u.set R.LC_DBG_STS_OPEN 0 (u.get R.LC_DBG_STS_OPEN ||| scopes)).lcEvt R.LC_EVT_STS_DBG_OPEN).record 0x0506 3 devScope
      scopes who

/-- A challenge is not valid beyond 65,536 frames (R249). -/
def State.chalExpire (s : State) : State :=
  match s.lc.chal with
  | some (f, _) => if f + 65536 ≤ s.frameNo then { s with lc := { s.lc with chal := none } } else s
  | none => s

/-- An access to a locked region while debug is open: the first of an opening is recorded (R252). -/
def State.debugLocked (s : State) (addr : Nat) : State :=
  if s.lc.lockSeen then s
  else ({ s with lc := { s.lc with lockSeen := true } }).record 0x0507 2 devScope addr

/-! ## The commands of the table -/

def execLcTransition (value : Nat) (s : State) : Host.Outcome State Fault Refusal :=
  ok (if s.lcWritable then s.lcTransition value else s)
def execTransitionDrainEnd (s : State) : Host.Outcome State Fault Refusal := ok (s.mark .transitionDrain s.drainDue)
def execOtpBitProgram (ok_ : Bool) (s : State) : Host.Outcome State Fault Refusal := ok (s.otpBit ok_)
def execLcZeroize (s : State) : Host.Outcome State Fault Refusal := ok (s.ifWritable 0x0A0014 (s.lcZeroize 5))
def execZeroizeDrainEnd (s : State) : Host.Outcome State Fault Refusal := ok (s.mark .zeroizeDrain s.zeroizeDue)
def execDbgChallenge (scopes : Nat) (s : State) : Host.Outcome State Fault Refusal :=
  ok (s.ifWritable 0x0A0020 (s.dbgChallenge scopes))
def execDbgRespond (scopes : Nat) (response : Option Bytes) (s : State) : Host.Outcome State Fault Refusal :=
  ok (s.ifWritable 0x0A0020 (s.dbgRespond scopes response))

/-- The TAP answers nothing but LC_STATUS in END and INVALID (R238), nor before the lifecycle copies have been resolved (R231). -/
def State.tapAnswers (s : State) : Bool := s.glb.powered && decide (2 ≤ s.stage) && s.get R.LC_STATE_CODE != 5 && s.get R.LC_STATE_CODE != 7

def execTapChallenge (scopes : Nat) (s : State) : Host.Outcome State Fault Refusal :=
  ok (if s.tapAnswers then s.dbgChallenge scopes else s)
def execTapRespond (scopes : Nat) (response : Bytes) (s : State) : Host.Outcome State Fault Refusal :=
  ok (if s.tapAnswers then s.dbgRespond scopes (some response) else s)
/-- LC_ACCESS writes LC_TRANSITION in BLANK and FOUNDRY (R233). -/
def execLcAccess (value : Nat) (s : State) : Host.Outcome State Fault Refusal :=
  ok (if s.tapAnswers ∧ s.get R.LC_STATE_CODE ≤ 1 then s.lcTransition value else s)
/-- LC_STATUS shifts the lifecycle status out and changes nothing (R238). -/
def execLcStatus (s : State) : Host.Outcome State Fault Refusal := ok s
def execOtpProgram (field : Nat) (s : State) : Host.Outcome State Fault Refusal :=
  ok (s.ifWritable 0x0A0040 (s.otpProgram field))
def execOtpRead (field : Nat) (s : State) : Host.Outcome State Fault Refusal := ok (s.ifWritable 0x0A0040 (s.otpRead field))
def execDebugChallengeExpiry (s : State) : Host.Outcome State Fault Refusal := ok s.chalExpire

end Sys2Proof.Machine
end

