-- ==== Sys2Proof/Machine/Quorum.lean ====
section
/-! DEFINITION. The quorum unit (R239 to R247): officers, policies, sessions and sign-ins. -/

namespace Sys2Proof.Machine

/-- QU_CMD_STS after a command that was rejected, or that took effect with 0. -/
def State.quReply (s : State) (e : Nat) : State := (s.set R.QU_CMD_STS_BUSY 0 0).set R.QU_CMD_STS_ERR 0 e

/-- A command accepted: it waits for its boundary, its draw or the verifier. -/
def State.quAccept (s : State) (c : QuCmd) : State :=
  (({ s with lc := { s.lc with cmd := some c } }).set R.QU_CMD_STS_BUSY 0 1).set R.QU_CMD_STS_ERR 0 0

/-- Debug is open (LC_DBG_STS.OPEN). -/
def State.debugIsOpen (s : State) : Bool := s.get R.LC_DBG_STS_OPEN != 0

/-- Sessions exist in PROVISION and SERVICE only. -/
def State.quorumState (s : State) : Bool := s.get R.LC_STATE_CODE == 2 || s.get R.LC_STATE_CODE == 3

/-- The covering session of ENROLL, REMOVE and POLICY (R241). -/
def State.quCovered (s : State) (scope : Nat) : Bool :=
  s.holds devSession roleSO || (scope != devSession && s.holds scope roleSO)
    || (scope == devSession && s.get R.LC_STATE_CODE == 2)

/-- The first failing check, in the order of the codes (assumption 20); 0 when none fails. -/
def firstErr (checks : List (Bool × Nat)) : Nat :=
  match (checks.filter (fun c => c.1)).map Prod.snd with
  | [] => 0
  | x :: xs => xs.foldl min x

/-- A rejected command; one that no session covers is recorded (R246). -/
def State.quReject (s : State) (e : Nat) : State := let t := s.quReply e; if e = 7 then t.writeDropped 0x0B0004 else t

/-! ## Officer records (R239, R240) -/

/-- A public key of R160 on P-384. -/
def goodP384 (pub : Bytes) : Bool := pointForm 0x41 pub && !pointBad 0x41 pub

/-- ERR of ENROLL (R241). -/
def State.enrollErr (s : State) (scope : Nat) (record : Option Bytes) : Nat :=
  let set := Tab.get [] s.lc.officers scope
  let o := parseOfficer (record.getD [])
  firstErr
    [(decide (devSession < scope), 2), (record.isSome && o.isNone, 4),
     (match o with | some x => !goodP384 x.pub | none => false, 6), (!s.quCovered scope, 7),
     (match o with | some x => decide (32 ≤ set.length) || set.any (fun y => y.index == x.index) | none => false, 9),
     (record.isNone, 0xA), (s.debugIsOpen, 0xB), (!s.quorumState, 0xC)]

/-- ERR of REMOVE (R241). -/
def State.removeErr (s : State) (scope role index : Nat) : Nat :=
  let set := Tab.get [] s.lc.officers scope
  firstErr
    [(decide (devSession < scope), 2), (!set.any (fun y => y.index == index && y.role == role), 4), (!s.quCovered scope, 7),
     (role == roleSO && decide (s.enrolled scope roleSO < s.policyM scope roleSO + 1), 8),
     (s.debugIsOpen, 0xB), (!s.quorumState, 0xC)]

/-- ERR of POLICY (R241). -/
def State.policyErr (s : State) (scope : Nat) (record : Option Bytes) : Nat :=
  firstErr
    [(decide (devSession < scope), 2), (!s.quCovered scope, 7),
     (record.isSome && !s.policyValid scope (fun r => fieldLE (fitTo 4 (record.getD [])) r 1), 8),
     (record.isNone, 0xA), (s.debugIsOpen, 0xB), (!s.quorumState, 0xC)]

/-- QU_CMD with OP = ENROLL, REMOVE or POLICY: rejected, or waiting for its boundary. -/
def State.quEdit (s : State) (op scope role index : Nat) (record : Option Bytes) : State :=
  if s.on R.QU_CMD_STS_BUSY then s
  else
    let e := if op = 4 then s.enrollErr scope record else if op = 5 then s.removeErr scope role index
      else s.policyErr scope record
    if e ≠ 0 then s.quReject e
    else s.quAccept { op := op, scope := scope, roles := role, life := index, record := record.getD [] }

/-- ENROLL at its boundary; the first officer of a scope sets every M to 1 (R240). -/
def State.enrollNow (s : State) (scope : Nat) (o : Officer) : State :=
  let set := Tab.get [] s.lc.officers scope
  let t := if set = [] then (List.range 4).foldl (fun u r => u.set (policyField r) scope 1) s else s
  let u := t.putOfficers scope (set ++ [o])
  (u.countOfficers scope).record 0x0508 2 scope 4 o.index o.role (fieldLE o.label 0 8)

/-- The sign-ins of a role in a session. -/
def Session.count (se : Session) (role : Nat) : Nat := (se.signIns.filter (fun x => x.role == role)).length

/-- Roles of a session whose count reaches M (R243). -/
def State.reached (s : State) (scope : Nat) (se : Session) : Nat :=
  (List.range 4).foldl (fun m r =>
    if bit se.req r && decide (s.policyM scope r ≤ se.count r) && decide (1 ≤ se.count r) then m + 2 ^ r else m) 0

/-- The roles a session holds changed: reported and recorded (R245). -/
def State.setHeld (s : State) (scope held : Nat) : State :=
  let se := s.session scope
  if held = se.held then s
  else
    let gained := !subBits held se.held
    let t := s.modSession scope (fun x => { x with held := held, st := if held = 0 then x.st else 2 })
    (if gained then t.lcEvt R.LC_EVT_STS_SESSION else t).record 0x0501 1 scope se.id held

/-- REMOVE at its boundary: the officer leaves, and the open session of the scope is recounted (R241). -/
def State.removeNow (s : State) (scope role index : Nat) : State :=
  let set := Tab.get [] s.lc.officers scope
  let gone := set.find? (fun y => y.index == index && y.role == role)
  let t := s.putOfficers scope (set.filter (fun y => y.index != index))
  let u := (t.countOfficers scope).record 0x0508 2 scope 5 index role
    (match gone with | some o => fieldLE o.label 0 8 | none => 0)
  let v := u.modSession scope (fun x => { x with signIns := x.signIns.filter (fun y => y.officer != index) })
  v.setHeld scope ((v.session scope).held &&& v.reached scope (v.session scope))

/-- POLICY at its boundary. -/
def State.policyNow (s : State) (scope : Nat) (record : Bytes) : State :=
  ((List.range 4).foldl (fun u r => u.set (policyField r) scope (fieldLE (fitTo 4 record) r 1)) s).record 0x0508 2 scope 6

/-! ## Sessions (R242 to R247) -/

/-- QU_CMD with OP = OPEN: it waits for its draw of 64 bytes. -/
def State.quOpen (s : State) (scope roles life : Nat) : State :=
  if s.on R.QU_CMD_STS_BUSY then s
  else
    let e := firstErr [(decide (devSession < scope), 2), (s.debugIsOpen, 0xB), (!s.quorumState, 0xC)]
    if e ≠ 0 then s.quReject e
    else (s.quAccept { op := 1, scope := scope, roles := roles % 16, life := life % 256 }).askDraw 64 (.session scope)

/-- The 160-byte session challenge (R242). -/
def sessionChallenge (id scope roles frame : Nat) (nonce deviceId epub : Bytes) : Bytes :=
  [0x4B#8, 0x56#8, 0x51#8, 0x43#8] ++ toLE 4 id ++ toLE 2 scope ++ toLE 1 roles ++ fill 1 0 ++ toLE 8 frame
    ++ fitTo 16 nonce ++ deviceId ++ fitTo 97 epub ++ fill 11 0

/-- The boundary that serves the draw of an OPEN: the challenge is written and the session begins (R242). -/
def State.sessionDrawn (s : State) (scope : Nat) (draw : Bytes) : State :=
  match s.lc.cmd with
  | some c =>
    if c.op = 1 ∧ c.scope = scope ∧ s.debugIsOpen then ({ s with lc := { s.lc with cmd := none } }).quReply 0xB
    else if c.op = 1 ∧ c.scope = scope then
      let t := s.endSession scope
      let id := t.lc.sessionNo + 1
      let kp := Config.keyPair 0x41 0 (draw.drop 16)
      let ch := sessionChallenge id scope c.roles t.frameNo (draw.take 16) t.deviceId kp.2
      let u := { t with lc := { t.lc with sessionNo := id, cmd := none } }
      let v := u.modSession scope (fun _ => {
        st := 1, id := id, req := c.roles, start := u.frameNo, life := (if c.life = 0 then 256 else c.life) * 256
        challenge := ch, scalar := fitTo 48 kp.1 })
      ((((v.postAdmin (v.get R.QU_CMD_ADDR_ADDR * 32) ch).quReply 0).lcEvt R.LC_EVT_STS_SESSION).record 0x0501 1 scope id 0)
    else s
  | none => s

/-- QU_CMD with OP = CLOSE (R244). -/
def State.quClose (s : State) (scope : Nat) : State :=
  if s.on R.QU_CMD_STS_BUSY then s
  else
    let e := firstErr [(decide (devSession < scope), 2), ((s.session scope).st == 0, 3)]
    if e ≠ 0 then s.quReject e else s.quAccept { op := 3, scope := scope }

/-- QU_CMD with OP = SIGN: the verifier takes the record, for at most 40 frames (R243). -/
def State.quSign (s : State) (scope : Nat) (record : Option Bytes) : State :=
  if s.on R.QU_CMD_STS_BUSY then s
  else
    let e := firstErr [(decide (devSession < scope), 2), ((s.session scope).st == 0, 3), (record.isNone, 0xA)]
    if e ≠ 0 then (s.quReject e).lcEvt R.LC_EVT_STS_VERIFY
    else s.quAccept { op := 2, scope := scope, record := fitTo 256 (record.getD []), start := s.frameNo }

/-- ERR of a sign-in record (R243). -/
def State.signErr (s : State) (scope : Nat) (r : Bytes) : Nat :=
  let se := s.session scope
  let off := fieldLE r 0 1
  let role := fieldLE r 1 1
  let epub := cut r 4 97
  firstErr
    [(se.st == 0, 3),
     (!(Tab.get [] s.lc.officers scope).any (fun o => o.index == off && o.role == role) || !bit se.req role, 4),
     (se.signIns.any (fun x => x.officer == off), 5),
     (!(allZero epub || goodP384 epub)
       || !(match (Tab.get [] s.lc.officers scope).find? (fun o => o.index == off && o.role == role) with
            | some o => p384Verify o.pub (ascii "KVQS" ++ se.challenge ++ r.take 101) (cut r 104 96)
            | none => false), 6)]

/-- The session transport key of an officer (R247). -/
def transportKey (scalar epub : Bytes) (id officer : Nat) : Bytes :=
  hashOf 0x02 32 (toBE 4 1 ++ fitTo 48 (Config.ecdh 0x41 scalar epub []) ++ ascii "KVTK" ++ toLE 4 id ++ toLE 1 officer)

/-- The verifier finishes with a sign-in record (R243). -/
def State.signVerified (s : State) : State :=
  match s.lc.cmd with
  | some c =>
    if c.op = 2 then
      let e := s.signErr c.scope c.record
      let t := (({ s with lc := { s.lc with cmd := none } }).quReply e).lcEvt R.LC_EVT_STS_VERIFY
      if e ≠ 0 then t
      else
        let epub := cut c.record 4 97
        t.modSession c.scope (fun x => { x with signIns := x.signIns ++ [{
          officer := fieldLE c.record 0 1, role := fieldLE c.record 1 1
          tk := if allZero epub then none else some (transportKey x.scalar epub x.id (fieldLE c.record 0 1)) }] })
    else s
  | none => s

/-- A session at the end of its lifetime (R242, R244). -/
def State.sessionExpire (s : State) (scope : Nat) : State :=
  let se := s.session scope
  if se.st ≠ 0 ∧ se.start + se.life ≤ s.frameNo then s.endSession scope else s

/-- The roles that a session holds from this boundary on (R243). -/
def State.gainRoles (s : State) (scope : Nat) : State :=
  s.setHeld scope ((s.session scope).held ||| s.reached scope (s.session scope))

/-- Quorum commands and sessions at event 2 of a boundary (R241 to R245). -/
def State.quorumEvents (s : State) : State :=
  let s1 := match s.lc.cmd with
    | some c =>
      let t := { s with lc := { s.lc with cmd := none } }
      match c.op with
      | 2 => if c.start + 40 ≤ s.frameNo then s.signVerified else s
      | 3 => (t.endSession c.scope).quReply 0
      | 4 => (match parseOfficer c.record with | some o => t.enrollNow c.scope o | none => t).quReply 0
      | 5 => (t.removeNow c.scope c.roles c.life).quReply 0
      | 6 => (t.policyNow c.scope c.record).quReply 0
      | _ => s
    | none => s
  let s2 := (s1.sessions.map Prod.fst).foldl (fun t n => t.sessionExpire n) s1
  (s2.sessions.map Prod.fst).foldl (fun t n => t.gainRoles n) s2

/-! ## The commands of the table -/

def execQuOpen (scope roles life : Nat) (s : State) : Host.Outcome State Fault Refusal :=
  ok (s.ifWritable 0x0B0004 (s.quOpen scope roles life))
def execQuSign (scope : Nat) (record : Option Bytes) (s : State) : Host.Outcome State Fault Refusal :=
  ok (s.ifWritable 0x0B0004 (s.quSign scope record))
def execSignInVerified (s : State) : Host.Outcome State Fault Refusal := ok s.signVerified
def execQuClose (scope : Nat) (s : State) : Host.Outcome State Fault Refusal :=
  ok (s.ifWritable 0x0B0004 (s.quClose scope))
def execQuEnroll (scope : Nat) (record : Option Bytes) (s : State) : Host.Outcome State Fault Refusal :=
  ok (s.ifWritable 0x0B0004 (s.quEdit 4 scope 0 0 record))
def execQuRemove (scope role index : Nat) (s : State) : Host.Outcome State Fault Refusal :=
  ok (s.ifWritable 0x0B0004 (s.quEdit 5 scope role index none))
def execQuPolicy (scope : Nat) (record : Option Bytes) (s : State) : Host.Outcome State Fault Refusal :=
  ok (s.ifWritable 0x0B0004 (s.quEdit 6 scope 0 0 record))
def execSessionExpiry (scope : Nat) (s : State) : Host.Outcome State Fault Refusal := ok (s.sessionExpire scope)

end Sys2Proof.Machine
end

