-- ==== Sys2Proof/Machine/FbCmds.lean ====
section
/-! DEFINITION. The commands of the Fieldbook (R305, R309 to R315): export, freeze and thaw, clear, flush of the
diagnostic buffer, refusals, and a store that turns read-only. -/

namespace Sys2Proof.Machine

/-- FB_CMD_STS after a rejection, or an operation that took effect with 0. -/
def State.fbReply (s : State) (e : Nat) : State := (s.set R.FB_CMD_STS_BUSY 0 0).set R.FB_CMD_STS_ERR 0 e

/-- The covering session of an FB_CMD (R246, R311, R313). TRACE opens the diagnostic class without the Auditor role
(R248). -/
def State.fbCovered (s : State) (op : Nat) (diag : Bool) (scope : Nat) : Bool :=
  if op = 1 then
    s.holds devSession roleAud || s.holds scope roleAud || (diag && bit (s.get R.LC_DBG_STS_OPEN) 2)
  else if op = 3 then s.holds devSession roleSO && s.holds devSession roleAud
  else true

/-- CLEAR's precondition: a kept freeze whose export qualifies (R313). -/
def State.fbClearable (s : State) : Bool := s.fb.frozenAt.isSome && s.fb.keep && s.fb.clearOk && !s.fb.exporting

/-- ERR of an FB_CMD, the first failure in the order of the codes. -/
def State.fbErrOf (s : State) (op : Nat) (diag : Bool) (scope : Nat) : Nat :=
  firstErr
    [(op == 0 || decide (4 < op), 1), (!s.fbCovered op diag scope, 2),
     ((op == 1 || op == 4) && (s.fb.frozenAt.isSome || s.fb.exporting), 3),
     (op == 3 && !s.fbClearable, 4), (op == 1 && decide (devSession < scope), 6)]

/-- A write of FB_CMD (R315). -/
def State.fbCommand (s : State) (op : Nat) (keep diag : Bool) (scope : Nat) : State :=
  if s.on R.FB_CMD_STS_BUSY then s
  else
    let e := s.fbErrOf op diag scope
    if e = 2 then (s.fbReply 2).writeDropped 0x0F0008
    else if e ≠ 0 then s.fbReply e
    else (({ s with fb := { s.fb with cmd := some (op, keep, diag, scope) } }).set R.FB_CMD_STS_BUSY 0 1).set
      R.FB_CMD_STS_ERR 0 0

/-! ## Freeze and export (R311, R312) -/

/-- The records of the class and scope that the export has still to write, in SEQ order. -/
def Fb.toExport (b : Fb) : List FbRec :=
  (if b.exDiag then b.diag else b.audit).filter (fun r => decide (b.exNext ≤ r.seq) && (b.exScope == devSession || r.scope == b.exScope))

/-- EXPORT at its boundary: the log freezes and the export begins; FB_STS.EXPORT follows with its first write. -/
def State.exportStart (s : State) (keep diag : Bool) (scope : Nat) : State :=
  let seq0 := s.get R.FB_CMD_FROM_SEQ
  let t := { s with fb := { s.fb with
    frozenAt := some s.frameNo, keep := keep, endFreeze := false, clearOk := false
    exporting := true, exDiag := diag, exScope := scope, exFrom := seq0, exNext := seq0
    exLeft := s.get R.FB_CMD_LEN_RECORDS, exCount := 0, exFails := 0, exLast := 0, exNow := 0
    exAddr := s.get R.FB_CMD_ADDR_ADDR * 64 } }
  ((t.set R.FB_STS_FROZEN 0 1).put1 R.FB_STS_KEEP keep).fbReply 0

/-- Bytes of a record in the output. -/
def Fb.exSize (b : Fb) : Nat := if b.exDiag then 320 else 64

/-- One record of the export written, its CHECK tested (R311). -/
def State.exportOne (s : State) (r : FbRec) : State :=
  let bad := r.check != fitTo 8 (r.mac (s.checkKey r.ksel))
  let t := s.postAdmin (s.fb.exAddr + s.fb.exCount * s.fb.exSize) r.bytes
  let u := { t.set R.FB_STS_EXPORT 0 1 with fb := { t.fb with
    exNow := t.fb.exNow + 1
    exCount := t.fb.exCount + 1, exLeft := t.fb.exLeft - 1, exLast := r.seq, exNext := r.seq + 1
    exFails := if bad then t.fb.exFails + 1 else t.fb.exFails } }
  if bad then u.fbErr R.FB_ERR_STS_CHECK_FAIL else u

/-- The EXPORT record closes the output and goes to the log; KEEP decides what becomes of the freeze. -/
def State.exportFinish (s : State) (broken : Bool) : State :=
  let len := decide (s.fb.exLeft = 0)
  let (r, t) := s.exportRecord broken len
  let u := (t.postAdmin (t.fb.exAddr + t.fb.exCount * t.fb.exSize) r.bytes).exportStop
  let oldest := u.fb.audit.foldl (fun m x => min m x.seq) u.fb.seq
  let v := { u with fb := { u.fb with
    endFreeze := !u.fb.keep
    clearOk := u.fb.keep && !u.fb.exDiag && u.fb.exScope == devSession && decide (u.fb.exFrom ≤ oldest) && !broken && !len } }
  (v.fbStore false r).diagnose false r

/-- Records of an export in a frame: 32,768 bytes of output (R311). -/
def Fb.exRate (b : Fb) : Nat := if b.exDiag then 102 else 512

/-- The length is reached or the records have run out: the export ends, with its EXPORT record in the first frame that has room for it
(R311). -/
def State.exportEnd (s : State) : State :=
  if s.fb.exporting ∧ s.credit s.adminPort ∧ (s.fb.exLeft = 0 ∨ s.fb.toExport = []) ∧ s.fb.exNow < s.fb.exRate then s.exportFinish false
  else s

/-- What an export writes in a frame, while the port gives credit. -/
def State.exportFrame (s0 : State) : State :=
  let s := { s0 with fb := { s0.fb with exNow := 0 } }
  if s.fb.exporting ∧ s.credit s.adminPort then
    (s.fb.toExport.take (min s.fb.exLeft s.fb.exRate)).foldl (fun t r => t.exportOne r) s
  else s

/-- A failed DMA write ends the export with no EXPORT record (R311). -/
def State.exportFail (s : State) : State :=
  if s.fb.exporting then
    let t := s.exportStop.fbReply 5
    { t with fb := { t.fb with endFreeze := !t.fb.keep } }
  else s

/-- The records that waited for the end of a freeze are written in SEQ order (R305, R312). -/
def State.fbAfterFreeze (s : State) : State :=
  let t := s.fbWritePending
  if !t.on R.FB_CTL_DIAG_BUF then
    ({ t with fb := { t.fb with buffer := t.fb.buffer.filter (fun r => !r.diag) } }).fbWriteAll (t.fb.buffer.filter (·.diag))
  else if t.fb.bufferBytes > 98304 then t.fbWriteBuffer
  else t

/-- A freeze ends other than by a break: an export under way stops with BROKEN (R311, R312). -/
def State.thaw (s : State) : State :=
  if s.fb.frozenAt.isNone then s
  else
    let t := s.unfreeze.fbAfterFreeze
    if t.fb.exporting then (t.exportFinish true).unfreeze else t

/-- A freeze ends 4,096 frames after it began (R312). -/
def State.freezeTimeout (s : State) : State :=
  match s.fb.frozenAt with
  | some f => if f + 4096 ≤ s.frameNo then s.thaw else s
  | none => s

/-! ## Clear and flush (R305, R309, R313) -/

/-- CLEAR at its boundary: every audit slot is free, LOG_CLEARED comes first, the waiting records follow. -/
def State.logClear (s : State) : State :=
  if !s.fbClearable then s.fbReply 4
  else
    let seqs := s.fb.audit.map (·.seq)
    let first := seqs.headD 0
    let last := seqs.getLastD 0
    let waiting := s.fb.pending
    let overs := s.fb.overCount
    let drop := s.fb.dropCount
    let t := { s.unfreeze with fb := { s.unfreeze.fb with
      audit := [], pending := [], overCount := 0, dropCount := 0, eventSlots := 0 } }
    let (r, t1) := t.fbMake false false 0x0001 2 devScope first last overs drop 0 []
    let u := ({ t1 with fb := { t1.fb with eventSlots := 1 } }).fbWrite r
    let v := ({ u with fb := { u.fb with pending := waiting } }).diagnose false r
    (v.fbAfterFreeze.set R.FB_STS_HOLD 0 0).fbReply 0

/-- The diagnostic buffer written out when it passes 96 KB (R305). -/
def State.bufferOut (s : State) : State :=
  if s.fb.bufferBytes > 98304 && s.fb.frozenAt.isNone then s.fbWriteBuffer else s

/-- FLUSH at its boundary (R305). -/
def State.diagFlushNow (s : State) : State :=
  if s.fb.frozenAt.isSome then s.fbReply 3 else s.fbWriteBuffer.fbReply 0

/-- The Fieldbook at a boundary, before event 3: the accepted command, a freeze that ends (R311 to R313). -/
def State.fbEvents (s : State) : State :=
  let s1 := if s.fb.endFreeze then s.thaw else s.freezeTimeout
  match s1.fb.cmd with
  | none => s1
  | some (op, keep, diag, scope) =>
    let t := { s1 with fb := { s1.fb with cmd := none } }
    match op with
    | 1 => if t.fb.frozenAt.isSome then t.fbReply 3 else t.exportStart keep diag scope
    | 2 => t.thaw.fbReply 0
    | 3 => t.logClear
    | _ => t.diagFlushNow

/-- The frame that begins: 64 event slots, taken first by the records that wait (R305). -/
def State.fbFrame (s : State) : State :=
  let s1 := { s with fb := { s.fb with eventSlots := 0 } }
  if s1.fb.frozenAt.isSome then s1
  else
    let now := s1.fb.pending.take 64
    ({ s1 with fb := { s1.fb with eventSlots := now.length, pending := s1.fb.pending.drop 64 } }).fbWriteAll now

/-- High room at a boundary and the AUDIT_FULL hold it sets (R309). -/
def State.auditHold (s : State) : State :=
  let room := s.highRoomNow
  let t := { s with fb := { s.fb with highRoom := room } }
  if room ≤ 16384 ∧ !t.on R.FB_STS_HOLD then (t.set R.FB_STS_HOLD 0 1).fbErr R.FB_ERR_STS_HOLD else t

/-- A REFUSALS record at a boundary that starts a frame divisible by 4,096 (R314). -/
def State.refusals (s : State) : State :=
  if s.frameNo % 4096 = 0 ∧ s.fb.refused ≠ 0 then
    ({ s with fb := { s.fb with refused := 0, refusedSlices := [] } }).record 0x0007 0 devScope s.fb.refused
      s.fb.refusedSlices.length
  else s

/-- An MRAM store with no reserve sector left turns read-only (R206, R310): store 0 is the Fieldbook, store 1 the
counter tree (numbers of the model, assumption 21). -/
def State.storeReadOnly (s : State) (store : Nat) : State :=
  let t := if store = 0 then
      (({ s with fb := { s.fb with ro := true } }).set R.FB_STS_RO 0 1).fbErr R.FB_ERR_STS_RO
    else if store = 1 then ({ s with ks := { s.ks with ctRo := true } }).set R.KS_STS_CT_RO 0 1
    else s
  t.record 0x0805 3 devScope store

/-! ## The commands of the table -/

def execFbExport (keep diag : Bool) (scope : Nat) (s : State) : Host.Outcome State Fault Refusal :=
  ok (s.ifWritable 0x0F0008 (s.fbCommand 1 keep diag scope))
def execExportEnd (s : State) : Host.Outcome State Fault Refusal := ok s.exportEnd
def execExportDmaFail (s : State) : Host.Outcome State Fault Refusal := ok s.exportFail
def execFbThaw (s : State) : Host.Outcome State Fault Refusal := ok (s.ifWritable 0x0F0008 (s.fbCommand 2 false false 0))
def execFbClear (s : State) : Host.Outcome State Fault Refusal := ok (s.ifWritable 0x0F0008 (s.fbCommand 3 false false 0))
def execDiagFlush (s : State) : Host.Outcome State Fault Refusal := ok (s.ifWritable 0x0F0008 (s.fbCommand 4 false false 0))
def execFreezeTimeout (s : State) : Host.Outcome State Fault Refusal := ok s.freezeTimeout
def execDiagBufferWriteout (s : State) : Host.Outcome State Fault Refusal := ok s.bufferOut
def execFbRefusals (s : State) : Host.Outcome State Fault Refusal := ok s.refusals
def execStoreRo (store : Nat) (s : State) : Host.Outcome State Fault Refusal := ok (s.storeReadOnly store)

end Sys2Proof.Machine
end

