-- ==== Sys2Proof/Machine/Stores.lean ====
section
/-! DEFINITION. The recipe store and the routine stores: loading, lock and digest (R90, R153). -/

namespace Sys2Proof.Machine

/-- The three stores. -/
inductive StoreId where
  | recipe | pkRoutine | luRoutine
deriving DecidableEq, Repr

/-- Words of a store: 256 KB, 512 KB and 256 KB. -/
def StoreId.words : StoreId → Nat
  | .recipe => 32768 | .pkRoutine => 65536 | .luRoutine => 32768

def StoreId.idx : StoreId → Field
  | .recipe => R.TU_RECIPE_IDX_WORD | .pkRoutine => R.PK_ROUTINE_IDX_WORD | .luRoutine => R.LU_ROUTINE_IDX_WORD
def StoreId.lock : StoreId → Field
  | .recipe => R.TU_CTL_LOCK | .pkRoutine => R.PK_CTL_LOCK | .luRoutine => R.LU_CTL_LOCK
def StoreId.digest : StoreId → Field
  | .recipe => R.TU_RECIPE_DIGEST_DIGEST | .pkRoutine => R.PK_ROUTINE_DIGEST_DIGEST
  | .luRoutine => R.LU_ROUTINE_DIGEST_DIGEST
def StoreId.major : StoreId → Field
  | .recipe => R.TU_RECIPE_VER_MAJOR | .pkRoutine => R.PK_ROUTINE_VER_MAJOR | .luRoutine => R.LU_ROUTINE_VER_MAJOR
def StoreId.minor : StoreId → Field
  | .recipe => R.TU_RECIPE_VER_MINOR | .pkRoutine => R.PK_ROUTINE_VER_MINOR | .luRoutine => R.LU_ROUTINE_VER_MINOR

def State.store (s : State) : StoreId → Store
  | .recipe => s.tuStore | .pkRoutine => s.pkStore | .luRoutine => s.luStore

def State.putStore (s : State) (i : StoreId) (x : Store) : State :=
  match i with
  | .recipe => { s with tuStore := x } | .pkRoutine => { s with pkStore := x } | .luRoutine => { s with luStore := x }

/-- Tamp alone, which runs privileged on the control cores, loads and locks a store (R90, R153, R321). -/
def mayLoad (src : Src) : Bool := src == .corePriv || src == .tamp

/-- A word written to both copies at the index, which advances and wraps. -/
def State.storeWord (s : State) (i : StoreId) (v : Nat) : State :=
  let n := s.get i.idx
  let st := s.store i
  let w := BitVec.ofNat 64 v
  (s.putStore i { st with
    copyA := Tab.put 0 st.copyA n w, copyB := Tab.put 0 st.copyB n w
    badA := Tab.put false st.badA n false, badB := Tab.put false st.badB n false }).set i.idx 0 ((n + 1) % i.words)

/-- A write of the DATA register of a store. -/
def State.storeData (s : State) (i : StoreId) (src : Src) (v : Nat) : State :=
  if mayLoad src ∧ !s.on i.lock then s.storeWord i v else s

/-- A write of the IDX register of a store; it is dropped while the store is locked. -/
def State.storeIdx (s : State) (i : StoreId) (v : Nat) : State := if s.on i.lock then s else s.set i.idx 0 v

/-- The bytes of a store, copy A. -/
def Store.bytes (st : Store) (words : Nat) : Bytes := (List.range words).flatMap (fun i => toLE 8 (Tab.get 0 st.copyA i).toNat)

/-- A 48-byte digest shown in a register array, byte 8i in bits 7 to 0 of element i. -/
def State.setDigest (s : State) (f : Field) (d : Bytes) : State :=
  (List.range 6).foldl (fun t i => t.set f i (fieldLE d (8 * i) 8)) s

/-- The store is locked: digest and version follow. The version stands in the store's header, whose layout is not given: it is an
uninterpreted function of the store's words (assumption 22). -/
def State.storeLock (s : State) (i : StoreId) (src : Src) : State :=
  if mayLoad src ∧ !s.on i.lock then
    let v := Config.storeVersion (s.store i).copyA
    let u := s.set i.lock 0 1
    ((u.setDigest i.digest (hashOf 0x03 48 ((u.store i).bytes i.words))).set i.major 0 (v / 65536 % 65536)).set i.minor 0
      (v % 65536)
  else s

/-- A section of the image loaded into a store from its first word on, then locked (R321). -/
def State.loadStore (s : State) (i : StoreId) (data : Bytes) : State :=
  let t := s.set i.idx 0 0
  ((blocks (data.length / 8 + 1) 8 data).foldl (fun u b => u.storeWord i (ofLE b)) t).storeLock i .corePriv

end Sys2Proof.Machine
end

