-- ==== Sys2Proof/Machine/Update.lean ====
section
/-! DEFINITION. Alasta images and firmware update (R316 to R330): the head sector and its checks, the update states, the
journal, the boot by Tamp, and the data areas. -/

namespace Sys2Proof.Machine

/-! ## The head sector (R316, R317) -/

/-- A section of the image: TYPE, OFFSET, LENGTH. -/
structure Section_ where
  type : Nat
  off : Nat
  len : Nat
deriving DecidableEq, Repr

def headFlags (h : Bytes) : Nat := fieldLE h 0x5 1
def headMask (h : Bytes) : Nat := fieldLE h 0x6 2
def headVersion (h : Bytes) : Nat := fieldLE h 0x8 4
def headFmt (h : Bytes) : Nat := fieldLE h 0xC 4
def headSectors (h : Bytes) : Nat := fieldLE h 0x10 2
def headId (h : Bytes) : Bytes := cut h 0x20 16
def headTag (h : Bytes) (n : Nat) : Bytes := cut h (0x100 + 16 * (n - 1)) 16
def headSigned (h : Bytes) : Bytes := h.take 0x4100
def headSections (h : Bytes) : List Section_ :=
  (List.range 8).map (fun i =>
    { type := fieldLE h (0x40 + 16 * i) 1, off := fieldLE h (0x44 + 16 * i) 4, len := fieldLE h (0x48 + 16 * i) 4 })

/-- No two used sections overlap. -/
def disjointSections : List Section_ → Bool
  | [] => true
  | x :: xs => xs.all (fun y => decide (x.off + x.len ≤ y.off ∨ y.off + y.len ≤ x.off ∨ x.len = 0 ∨ y.len = 0)) && disjointSections xs

/-- The head sector breaks a rule of R316. -/
def headMalformed (h : Bytes) : Bool :=
  let n := headSectors h
  let used := (headSections h).filter (fun x => x.type != 0)
  h.length != 65536 || cut h 0 4 != [0x4B#8, 0x56#8, 0x41#8, 0x4C#8] || fieldLE h 4 1 != 1 || headFlags h / 4 != 0
    || headMask h / 64 != 0 || n == 0 || decide (1022 < n)
    || !zeroAt h 0x12 14 || !zeroAt h 0x30 16 || !zeroAt h 0xC0 64 || !zeroAt h 0x40E0 32 || !zeroAt h 0x8100 0x7F00
    || !zeroAt h (0x100 + 16 * n) (16 * (1022 - n))
    || (List.range 8).any (fun i => !zeroAt h (0x41 + 16 * i) 3 || !zeroAt h (0x4C + 16 * i) 4)
    || used.any (fun x => decide (5 < x.type) || decide (n * 65536 < x.off + x.len)) || !disjointSections used
    || [1, 2, 3, 4].any (fun k => (used.filter (fun x => x.type == k)).length != 1)

/-- A signature block verifies against a key hash (R317). -/
def sigVerifies (h : Bytes) (at_ : Nat) (want : Option Bytes) : Bool :=
  let b := cut h at_ 8192
  let ec := b.take 97
  let pq := cut b 100 2592
  want == some (hashOf 0x03 48 (ec ++ pq)) && p384Verify ec (headSigned h) (cut b 2692 96)
    && Config.mldsaVerify 0x5A pq false (ascii "KVALASTA") (headSigned h) (cut b 2788 4627)

/-- A key hash of OTP; a damaged field matches no key (R255). -/
def State.hashField (s : State) (code : Nat) : Option Bytes :=
  if s.otpGood code then some (toLE 48 (s.otpAt code).a) else none

/-- The signatures the lifecycle state asks for verify (R319). -/
def State.sigsOk (s : State) (h : Bytes) : Bool :=
  let lc := s.get R.LC_STATE_CODE
  if lc ≤ 1 then sigVerifies h 0x4100 (some (fitTo 48 Config.testImageHash))
  else if lc = 2 then
    sigVerifies h 0x4100 (s.hashField 3) && (s.otpAt 4 == {} || sigVerifies h 0x6100 (s.hashField 4))
  else if lc = 3 then sigVerifies h 0x4100 (s.hashField 3) && sigVerifies h 0x6100 (s.hashField 4)
  else if lc = 4 then sigVerifies h 0x4100 (some (fitTo 48 Config.diagImageHash))
  else false

/-- FLAGS of an image that may load in the lifecycle state (R319). -/
def flagsFor (lc : Nat) : Nat := if lc ≤ 1 then 2 else if lc = 4 then 1 else 0

/-- Flash sectors of 64 KB. -/
def State.flashSectors (s : State) : Nat := s.get R.UPD_FLASH_STS_SIZE * 1024

/-- The version floor applies (R319): its leaf is read, and a read resolves it (R207, R320). -/
def State.readFloor (s : State) : State := if s.get R.LC_STATE_CODE = 2 ∨ s.get R.LC_STATE_CODE = 3 then s.resolveFloor else s

/-- ERR of a head sector (R319), the first failure in the order of the codes; 0 = acceptable. No VERSION reaches a floor whose leaf is
lost (assumption 73). -/
def State.imageErr (s : State) (h : Bytes) : Nat :=
  let lc := s.get R.LC_STATE_CODE
  firstErr
    [(headMalformed h, 4), (!s.sigsOk h, 5),
     (!bit (headMask h) lc || decide (4 < lc) || headFlags h != flagsFor lc, 6),
     ((lc == 2 || lc == 3) && (decide (headVersion h < s.floor) || s.upd.floor.value.isNone), 7),
     (decide (s.flashSectors < headSectors h + 2), 8)]

/-- The fleet firmware key (R318). -/
def State.ffk (s : State) : Bytes := kdfOf (s.otpSecret 6) (ascii "FFK") []

/-- A body sector deciphered: plaintext, and whether its tag is right (R318). -/
def State.openSector (s : State) (h : Bytes) (n : Nat) (data : Bytes) : Bytes × Bool :=
  let (pt, tag) := gcmDec 0x12 s.ffk (headId h |>.take 8 |> (· ++ toBE 4 n)) (h.take 0x100) data
  (pt, tag == headTag h n)

/-! ## Records, journal and states (R324, R326) -/

def State.updState (s : State) : Nat := s.get R.UPD_STS_STATE
def State.setUpd (s : State) (st : Nat) : State := s.set R.UPD_STS_STATE 0 st

/-- UPD_CMD_STS after a command that finished. -/
def State.updReply (s : State) (e : Nat) : State := (s.set R.UPD_CMD_STS_BUSY 0 0).set R.UPD_CMD_STS_ERR 0 e

/-- The UPDATE record of an event for a head sector (R329). -/
def State.updRecord (s : State) (event : Nat) (head : Bytes) (err : Nat) : State :=
  s.record 0x0801 2 devScope event (headVersion head) (fieldLE head 0x20 8) err

/-- What a copy of the journal holds, in the order of R326 (assumption 39). -/
def Journal.bytes (j : Journal) : Bytes := toLE 8 j.seq ++ toLE 1 j.state ++ toLE 2 j.next ++ fitTo 16 j.imageId ++ fitTo 48 j.digest

/-- The 64-bit check stored with a copy of the journal, keyed from the device secret (R326). -/
def State.journalWord (s : State) (j : Journal) : Nat := (Config.journalCheck (s.otpSecret otpDeviceSecret) j.bytes).toNat ^^^ j.off % 2 ^ 64

/-- A copy of the journal that passes its check (R326). -/
def goodCopy (j : Option Journal) : Option Journal := j.filter (fun x => x.off == 0)

/-- SEQ of a copy of the journal; 0 for one that fails its check. -/
def seqOf (j : Option Journal) : Nat := ((goodCopy j).map (·.seq)).getD 0

/-- The journal in force: the copy with the higher valid SEQ; `none` when no copy is valid (R326). -/
def Upd.journal (u : Upd) : Option Journal := if seqOf u.jB ≤ seqOf u.jA then goodCopy u.jA else goodCopy u.jB

/-- The journal written: the copy with the lower SEQ takes the next SEQ (R326). -/
def State.putJournal (s : State) (st next : Nat) (head : Bytes) : State :=
  let j : Journal := {
    state := st, next := next, imageId := headId head, digest := hashOf 0x03 48 (headSigned head),
    seq := max (seqOf s.upd.jA) (seqOf s.upd.jB) + 1 }
  if seqOf s.upd.jA ≤ seqOf s.upd.jB then { s with upd := { s.upd with jA := some j } }
  else { s with upd := { s.upd with jB := some j } }

/-- MRAM errors in the stored checks of the journal's copies, as (copy, mask) (R326). -/
def State.journalErrors (s : State) (flips : List (Nat × Nat)) : State :=
  flips.foldl (fun t e =>
    let hit (j : Option Journal) : Option Journal := j.map (fun x => { x with off := x.off ^^^ e.2 % 2 ^ 64 })
    { t with upd := { t.upd with jA := if e.1 = 0 then hit t.upd.jA else t.upd.jA, jB := if e.1 = 1 then hit t.upd.jB else t.upd.jB } }) s

/-- Tamp does not run the update: halted by a tamper response (R329), in the safe-state wait (R337), or the gate of the block and its flash
controller off (R338). -/
def State.updHalted (s : State) : Bool := s.on R.TMP_STS_HALT || s.clk.safe.isSome || !bit (s.get R.CLK_GATE_ON) 7

/-- An update makes no progress: after a tamper response the flash and the journal stay untouched (R329), and after PWR_FAIL_N falls no
erase or program begins (R327). -/
def State.updStopped (s : State) : Bool := s.updHalted || s.glb.pwrFail

/-- A flash sector erased and programmed. -/
def State.program (s : State) (n : Nat) (data : Bytes) : State :=
  { s with upd := { s.upd with flash := Tab.put [] s.upd.flash n data } }

/-- What the flash returns for a sector. -/
def State.flashAt (s : State) (n : Nat) : Bytes := Tab.get [] s.upd.flash n

/-- The number of the sector that holds the recovery record. -/
def State.recoveryAt (s : State) : Nat := s.flashSectors - 1

/-! ## The data areas in MRAM (R323) -/

/-- Where a data area begins, A or B. -/
def areaBase (b : Bool) : Nat := 0x08000000 + Config.areaAt b % 0xE80000

/-- An address lies in a data area of 1.5 MB. -/
def inArea (b : Bool) (a : Nat) : Bool := decide (areaBase b ≤ a ∧ a < areaBase b + 0x180000)

/-- The contents of a data area erased. -/
def State.wipeArea (s : State) (b : Bool) : State :=
  { s with fab := { s.fab with ram := s.fab.ram.filter (fun c => !inArea b c.1) } }

/-- The firmware fills area `b` from the other one, converting where the formats differ (R323). -/
def State.fillArea (s : State) (b : Bool) (fmtOld fmtNew : Nat) : State :=
  let cells := s.fab.ram.filter (fun c => inArea (!b) c.1)
  let ram := if fmtOld = fmtNew then
      cells.foldl (fun m c => ramPut m (areaBase b + (c.1 - areaBase (!b))) [c.2]) s.fab.ram
    else ramPut s.fab.ram (areaBase b) ((Config.convertArea fmtOld fmtNew (s.ramBytes (areaBase (!b)) 0x180000)).take 0x180000)
  { s with fab := { s.fab with ram := ram } }

/-- The old area, while there is one; it is read-only (R323). -/
def State.oldArea (s : State) : Option Bool := if s.on R.UPD_STS_OLD_VALID then some !s.upd.curB else none

/-! ## Update commands (R324, R325, R328) -/

/-- ERR of an UPD_CMD at the write. -/
def State.updCheck (s : State) (op number : Nat) : Nat :=
  let st := s.updState
  let lc := s.get R.LC_STATE_CODE
  match op with
  | 1 => firstErr [(st != 6 && !s.holds devSession roleOper, 2), ((st != 0 && st != 6) || s.upd.cand.isSome, 3), (s.on R.LC_STS_BUSY, 0xE)]
  | 2 => firstErr [(st != 3 && !(st == 6 && s.get R.UPD_PROGRESS_NEXT != 0), 3), (number != s.get R.UPD_PROGRESS_NEXT, 9)]
  | 3 => firstErr [(st != 5, 3)]
  | 4 => firstErr [(st != 1 && st != 2, 3)]
  | 5 => firstErr [(!s.holds devSession roleSO, 2), (!s.on R.UPD_STS_UNCONFIRMED, 3), (lc != 2 && lc != 3, 6), (s.ks.ctRo, 0xD)]
  | _ => 1

/-- A rejected command: START and SECTOR report it (R330). -/
def State.updReject (s : State) (op e : Nat) (head : Bytes) : State :=
  let t := s.updReply e
  if e = 2 then t.writeDropped 0x100004
  else if op = 1 then (t.updErr R.UPD_ERR_STS_START_FAIL).updRecord 2 head e
  else if op = 2 then t.updErr R.UPD_ERR_STS_SECTOR_FAIL
  else t

/-- A write of UPD_CMD: rejected, or waiting for its boundary. `data` is what Tamp reads from UPD_CMD_ADDR. -/
def State.updCommand (s : State) (op number : Nat) (data : Option Bytes) : State :=
  if s.on R.UPD_CMD_STS_BUSY then s
  else
    let e := s.updCheck op number
    if e ≠ 0 then s.updReject op e (data.getD [])
    else
      let t := (({ s with upd := { s.upd with cmd := some (op, data) } }).set R.UPD_CMD_STS_BUSY 0 1).set R.UPD_CMD_STS_ERR 0 0
      if op = 3 then (t.updRecord 5 t.upd.head 0).askReset true 0xC false else t

/-- A START that fails after it was accepted: IDLE again; in RECOVERY an image under way stays (R324, R325). -/
def State.startFails (s : State) (e : Nat) (h : Bytes) : State :=
  let t := { s with upd := { s.upd with cand := none } }
  (((if t.updState = 1 then t.setUpd 0 else t).updReply e).updErr R.UPD_ERR_STS_START_FAIL).updRecord 2 h e

/-- START at its boundary: the head sector is being checked. In RECOVERY the image under way stays until it passes (R325). -/
def State.startNow (s : State) (head : Option Bytes) : State :=
  let t := { s with upd := { s.upd with cand := head, start := s.frameNo, passed := none } }
  let u := if t.updState = 6 then t else t.setUpd 1
  let v := (u.updReply 0).updRecord 1 (head.getD []) 0
  if head.isNone then v.startFails 0xB [] else v

/-- WRITE is entered: flash sector 0 is erased, the journal says WRITING, sector 1 is expected. -/
def State.enterWrite (s : State) : State :=
  let h := s.upd.head
  let t := ((s.program 0 []).putJournal 2 1 h)
  ((t.set R.UPD_PROGRESS_NEXT 0 1).set R.UPD_PROGRESS_SECTORS 0 (headSectors h)).updRecord 3 h 0

/-- The check of the head sector ends (R324): DRAIN follows, or IDLE with ERR. In RECOVERY an acceptable one replaces the image under
way, and the writing begins anew from sector 1 (R325). -/
def State.verifyDone (s : State) : State :=
  match s.upd.cand with
  | none => s
  | some c =>
    let st := s.updState
    if s.updHalted then s
    else if (st = 1 ∨ st = 6) ∧ s.upd.passed = none ∧ s.upd.sector = none then
      let h := fitTo 65536 c
      let t := s.readFloor
      let e := t.imageErr h
      if e ≠ 0 then t.startFails e h
      else
        let u := { t with upd := { t.upd with head := h, recorded := false } }
        if st = 6 then
          if s.glb.pwrFail then s else
          let v := u.program u.recoveryAt h
          ({ v with upd := { v.upd with cand := none, recorded := true } }).enterWrite
        else { u with upd := { u.upd with passed := some s.frameNo } }
    else s

/-- No admitted command is in flight and the recovery record is written: WRITE (R324). -/
def State.updDrained (s : State) : State :=
  if s.updState = 2 ∧ s.upd.recorded ∧ !s.updStopped ∧ s.trv.cmds.all (·.isHeld) then
    (s.trv.cmds.foldl (fun t c => t.refuseCmd c ccUpdateHold 0) (s.setUpd 3)).enterWrite
  else s

/-- SECTOR at its boundary: the tag is checked and programming begins (R325). -/
def State.sectorNow (s : State) (data : Option Bytes) : State :=
  match data with
  | none => s.updReject 2 0xB []
  | some d =>
    let b := fitTo 65536 d
    if !(s.openSector s.upd.head (s.get R.UPD_PROGRESS_NEXT) b).2 then s.updReject 2 0xA []
    else { s with upd := { s.upd with sector := some b, tries := 0 } }

/-- A body sector has been programmed and read back, well or not (R325). After PWR_FAIL_N falls no further try begins: the sector is
cut off and not counted (R327). -/
def State.sectorWritten (s : State) (ok_ : Bool) : State :=
  match s.upd.sector with
  | none => s
  | some b =>
    let n := s.get R.UPD_PROGRESS_NEXT
    if s.updHalted then s
    else if ok_ then
      let t := ({ s with upd := { s.upd with sector := none, tries := 0 } }).program n b
      let last := decide (headSectors t.upd.head ≤ n)
      let u := (t.putJournal (if last then 3 else 2) (n + 1) t.upd.head).set R.UPD_PROGRESS_NEXT 0 (n + 1)
      (if last then u.setUpd 4 else u).updReply 0
    else if s.glb.pwrFail then { s with upd := { s.upd with sector := none, tries := 0 } }
    else if s.upd.tries + 1 < 4 then { s with upd := { s.upd with tries := s.upd.tries + 1 } }
    else (({ s with upd := { s.upd with sector := none, tries := 0 } }).updReply 0xC).updErr R.UPD_ERR_STS_FLASH

/-- SEAL: flash sector 0 is written from the recovery record (R324). -/
def State.sealed (s : State) : State :=
  if s.updState = 4 ∧ !s.updStopped then
    let h := s.upd.head
    let t := (s.program 0 h).putJournal 4 (s.get R.UPD_PROGRESS_NEXT) h
    ((t.setUpd 5).updErr R.UPD_ERR_STS_WRITTEN).updRecord 4 h 0
  else s

/-- ABORT at its boundary: IDLE, and the hold ends (R324). -/
def State.abortNow (s : State) : State :=
  if s.updState = 1 ∨ s.updState = 2 then
    let h := (s.upd.cand.map (fitTo 65536)).getD s.upd.head
    let t := if s.updState = 2 then s.putJournal 0 0 h else s
    ((({ t with upd := { t.upd with head := [], cand := none, passed := none, recorded := false } }).setUpd 0).set R.UPD_STS_HOLD 0 0
      |>.updReply 0).updRecord 8 h 0
  else s.updReply 3

/-- CONFIRM at its boundary (R328): the floor leaf is read first (R207), and while it is lost CONFIRM changes nothing (assumption 73). -/
def State.confirmNow (s0 : State) : State :=
  let s := s0.resolveFloor
  if s.upd.floor.value.isNone then s.updReply 0xD
  else
  let v := headVersion s.upd.run
  let up := if s.floor < v then { s with upd := { s.upd with floor := s.upd.floor.at_ v } } else s
  let mark (a : DataArea) : DataArea := { a with confirmed := true }
  let t := { up with upd := (if up.upd.curB then { up.upd with areaB := mark up.upd.areaB, areaA := {} }
    else { up.upd with areaA := mark up.upd.areaA, areaB := {} }) }
  ((((t.wipeArea !t.upd.curB).set R.UPD_STS_OLD_VALID 0 0).set R.UPD_STS_UNCONFIRMED 0 0).updReply 0).updRecord 7 s.upd.run 0

/-- Updates at a boundary (R324): the accepted command, the drain that begins two boundaries after the check passed, the
end of a drain. -/
def State.updEvents (s : State) : State :=
  if s.updHalted then s
  else
  let s1 := match s.upd.cmd with
    | none => s
    | some (op, data) =>
      let t := { s with upd := { s.upd with cmd := none } }
      match op with
      | 1 => t.startNow data
      | 2 => if s.glb.pwrFail then s else t.sectorNow data
      | 4 => t.abortNow
      | 5 => t.confirmNow
      | _ => s
  let s2 := if s1.upd.start + 2000 ≤ s1.frameNo then s1.verifyDone else s1
  match s2.upd.passed with
  | some f =>
    if f + 2 ≤ s2.frameNo ∧ s2.updState = 1 ∧ !s2.glb.pwrFail then
      let h := s2.upd.head
      let t := (({ s2 with upd := { s2.upd with cand := none, passed := none, recorded := true } }).program s2.recoveryAt h).putJournal 1 0 h
      ((t.setUpd 2).set R.UPD_STS_HOLD 0 1).updErr R.UPD_ERR_STS_HOLD
    else s2
  | none => s2.updDrained

/-! ## Boot (R321 to R323, R327) -/

/-- RECOVERY is entered (R321, R327). -/
def State.enterRecovery (s : State) (head : Bytes) (next : Nat) : State :=
  let t := { s with upd := { s.upd with head := if next = 0 then [] else head, recorded := decide (next ≠ 0) } }
  ((((t.setUpd 6).set R.UPD_PROGRESS_NEXT 0 next).set R.UPD_PROGRESS_SECTORS 0 (if next = 0 then 0 else headSectors head)).set
    R.GLB_STS_STAGE 0 9).updRecord 6 head 0

/-- The recovery record passes R319 and the journal's digest (R327). -/
def State.recoveryOk (s : State) (j : Journal) (h : Bytes) : Bool :=
  s.imageErr h == 0 && j.digest == hashOf 0x03 48 (headSigned h)

/-- The body decrypted, or `none` when a tag is wrong. -/
def State.imageBody (s : State) (h : Bytes) : Option Bytes :=
  (List.range (headSectors h)).foldl (fun acc i =>
    match acc with
    | none => none
    | some b =>
      let (pt, good) := s.openSector h (i + 1) (s.flashAt (i + 1))
      if good then some (b ++ pt) else none) (some [])

/-- A section of the body by its type. -/
def sectionOf (h body : Bytes) (type : Nat) : Option Bytes :=
  ((headSections h).find? (fun x => x.type == type)).map (fun x => cut body x.off x.len)

/-- The data areas chosen for a booting image (R323), after any sequence of R328 that power loss cut off: an area that does not stay is
erased, and the firmware fills a new current one from the old one when it starts. -/
def State.selectAreas (s : State) (h : Bytes) : State :=
  let id := headId h
  let ours (a : DataArea) : Bool := a.valid && a.imageId == id
  let fresh_ (c : Bool) : DataArea := { valid := true, confirmed := c, fmt := headFmt h, version := headVersion h, imageId := id }
  let keep (a : DataArea) : DataArea := if a.valid && (a.confirmed || ours a) then a else {}
  let a := keep s.upd.areaA
  let b := keep s.upd.areaB
  let below (x : DataArea) : Bool := x.valid && decide (x.version < s.floor)
  let (a2, b2, cur) : DataArea × DataArea × Bool :=
    if ours a then (if below b then ({ a with confirmed := true }, {}, false) else (a, b, false))
    else if ours b then (if below a then ({}, { b with confirmed := true }, true) else (a, b, true))
    else if a.valid then (a, fresh_ false, true)
    else if b.valid then (fresh_ false, b, false)
    else (fresh_ true, {}, false)
  let old := if cur then a2.valid else b2.valid
  let stays (x y : DataArea) : Bool := x.valid && y.valid && x.imageId == y.imageId
  let t := { s with upd := { s.upd with areaA := a2, areaB := b2, curB := cur } }
  let t1 := if stays s.upd.areaA a2 then t else t.wipeArea false
  let t2 := if stays s.upd.areaB b2 then t1 else t1.wipeArea true
  let t3 := if cur ∧ old ∧ !stays s.upd.areaB b2 then t2.fillArea true a2.fmt b2.fmt
    else if !cur ∧ old ∧ !stays s.upd.areaA a2 then t2.fillArea false b2.fmt a2.fmt else t2
  (t3.put1 R.UPD_STS_OLD_VALID old).put1 R.UPD_STS_UNCONFIRMED old

/-- The firmware measurement (R322). -/
def State.measure (s : State) (h : Bytes) : State :=
  let dg (f : Field) : Bytes := (List.range 6).flatMap (fun i => toLE 8 (s.get f i))
  s.setDigest R.UPD_FW_DIGEST_DIGEST (hashOf 0x03 48 (ascii "KVFW" ++ hashOf 0x03 48 (headSigned h)
    ++ dg R.TU_RECIPE_DIGEST_DIGEST ++ dg R.PK_ROUTINE_DIGEST_DIGEST ++ dg R.LU_ROUTINE_DIGEST_DIGEST
    ++ hashOf 0x03 48 (Config.tampRom ++ s.upd.patch)))

/-- A boot image that Tamp rejects (R321). -/
def State.bootFail (s : State) (h : Bytes) (e : Nat) : State :=
  ((s.updErr R.UPD_ERR_STS_BOOT_FAIL).updRecord 9 h e).enterRecovery h 0

/-- The firmware section loaded by the load map it carries (R321), into the control cores' local memory. -/
def State.loadFirmware (s : State) (sec : Bytes) : State :=
  { s with fab := { s.fab with ram := (Config.loadMap sec).foldl (fun m p =>
    ramPut m (0x05800000 + p.1 % 0x400000) (p.2.take (0x400000 - p.1 % 0x400000))) s.fab.ram } }

/-- Steps 2 to 5 of R321: the image checked, loaded and measured, the data areas selected, the firmware started: `run` holds the head of
the image that runs. -/
def State.bootImage (s0 : State) : State :=
  let s := s0.readFloor
  let h := s.flashAt 0
  let e := s.imageErr h
  if e ≠ 0 then s.bootFail h e
  else
    match s.imageBody h with
    | none => s.bootFail h 0xA
    | some body =>
      let t := (((s.loadFirmware ((sectionOf h body 1).getD [])).loadStore .recipe ((sectionOf h body 2).getD [])).loadStore .pkRoutine ((sectionOf h body 3).getD [])).loadStore
        .luRoutine ((sectionOf h body 4).getD [])
      let u := match sectionOf h body 5 with
        | some p => { t with upd := { t.upd with patchNext := p } }
        | none => t
      let v := { u with upd := { u.upd with run := h } }
      ((((v.selectAreas h).measure h).set R.UPD_RUN_VER_VERSION 0 (headVersion h)).set R.UPD_RUN_FMT_DATA_FMT 0
        (headFmt h)).setUpd 0

/-- Stage IMAGE: the journal, then the image (R321, R327). -/
def State.tampBoot (s0 : State) : State :=
  let s := s0.journalErrors s0.glb.boot.journalFlips
  let rec_ := s.flashAt s.recoveryAt
  match s.upd.journal with
  | some j =>
    if j.state = 1 then (s.putJournal 0 0 []).bootImage
    else if j.state = 2 then
      let s := s.readFloor
      if s.recoveryOk j rec_ then s.enterRecovery rec_ j.next else s.enterRecovery rec_ 0
    else if j.state = 3 then
      let s := s.readFloor
      if s.recoveryOk j rec_ then ((s.program 0 rec_).putJournal 4 j.next rec_).bootImage else s.enterRecovery rec_ 0
    else s.bootImage
  | none => s.bootImage

/-! ## The commands of the table -/

def execUpdStart (head : Option Bytes) (s : State) : Host.Outcome State Fault Refusal :=
  ok (s.ifWritable 0x100004 (s.updCommand 1 0 head))
def execVerifyDone (s : State) : Host.Outcome State Fault Refusal := ok s.verifyDone
def execUpdateDrainEnd (s : State) : Host.Outcome State Fault Refusal := ok s.updDrained
def execUpdSector (number : Nat) (data : Option Bytes) (s : State) : Host.Outcome State Fault Refusal :=
  ok (s.ifWritable 0x100004 (s.updCommand 2 number data))
def execUpdSectorWritten (ok_ : Bool) (s : State) : Host.Outcome State Fault Refusal := ok (s.sectorWritten ok_)
def execUpdWritten (s : State) : Host.Outcome State Fault Refusal := ok s.sealed
def execUpdActivate (s : State) : Host.Outcome State Fault Refusal := ok (s.ifWritable 0x100004 (s.updCommand 3 0 none))
def execUpdAbort (s : State) : Host.Outcome State Fault Refusal := ok (s.ifWritable 0x100004 (s.updCommand 4 0 none))
def execUpdConfirm (s : State) : Host.Outcome State Fault Refusal := ok (s.ifWritable 0x100004 (s.updCommand 5 0 none))

end Sys2Proof.Machine
end

