-- ==== Sys2Proof/Machine/Clock.lean ====
section
/-! DEFINITION. The clock unit (R331 to R338): trim and holdover, multiplexers, monitors, the fatal path and the
safe-state wait. -/

namespace Sys2Proof.Machine

/-- A CLK_ERR_STS event; the first one while the register reads all zero is captured (R345). -/
def State.clkErr (s : State) (f : Field) (mon kind : Nat) : State :=
  let t := if s.storedAt 0x110020 = 0 then
      ((s.set R.CLK_ERR_INFO_CAUSE 0 f.lo).set R.CLK_ERR_INFO_MON 0 mon).set R.CLK_ERR_INFO_KIND 0 kind
    else s
  t.event f R.CLK_IRQ_EN_EN 10 1

/-- A CLOCK record (R344). -/
def State.clkRecord (s : State) (event : Nat) : State := s.record 0x0802 2 devScope event (s.storedAt 0x11000C)

/-! ## Trim (R332, R333) -/

/-- A number of `n` bits read as two's complement. -/
def signed (n v : Nat) : Int := if v % 2 ^ n < 2 ^ (n - 1) then (v % 2 ^ n : Nat) else (v % 2 ^ n : Nat) - (2 ^ n : Nat)

/-- An integer as `n` bits in two's complement. -/
def unsigned (n : Nat) (v : Int) : Nat := (v % (2 ^ n : Nat)).toNat

/-- The hottest die sensor, in sixteenths of a degree. -/
def State.hottest (s : State) : Int :=
  ((List.range 4).map (fun i => signed 16 (s.get R.TMP_TEMP_TEMP i))).foldl max (-(2 ^ 15 : Nat))

/-- IRC cycles in a measurement interval: 4,096 frames or marks, or one second (R332). -/
def trimNominal (src : Nat) : Nat := if src = 2 then 200000000 else 8192000

/-- The length of an interval in ns: a PPS interval, or 4,096 frames. -/
def trimLength (src : Nat) : Nat := if src = 2 then 1000000000 else 40960000

/-- The error of an interval that counted `n` IRC cycles, in units of 0.01 ppm (assumption 23). With the PPS or the marks of the Net as
reference it includes the phase of the member's boundary, in ns ahead of the reference, over the interval's length (R360). -/
def trimError (src n : Nat) (phase : Int) : Int :=
  ((n : Int) - trimNominal src) * 100000000 / trimNominal src + (if src = 2 ∨ src = 3 then phase * 100000000 / trimLength src else 0)

/-- LOCK cleared, reported and recorded. -/
def State.lockLost (s : State) : State :=
  if s.on R.CLK_STS_LOCK then ((s.set R.CLK_STS_LOCK 0 0).clkErr R.CLK_ERR_STS_LOCK_LOST 0 0).clkRecord 2 else s

/-- The end of a measurement interval (R332). -/
def State.trimInterval (s : State) (n : Nat) (phase : Int) : State :=
  let src := s.get R.CLK_TRIM_CFG_SRC
  if src = 0 ∨ s.on R.CLK_STS_HOLDOVER then s
  else if s.clk.skip then { s with clk := { s.clk with skip := false } }
  else
    let e := trimError src n phase
    let good := if e.natAbs ≤ 500 then s.clk.good + 1 else 0
    let t := ((({ s with clk := { s.clk with
        good := good, toMove := e.natAbs / 5, moveUp := decide (e < 0) } }).set R.CLK_TRIM_ERR_ERR 0 (unsigned 24 e)).set
      R.CLK_TRIM_ERR_VALID 0 1)
    if 2 ≤ good ∧ !t.on R.CLK_STS_LOCK then ((t.set R.CLK_STS_LOCK 0 1).clkErr R.CLK_ERR_STS_LOCK_GAINED 0 0).clkRecord 1
    else if 2000 < e.natAbs then t.lockLost
    else t

/-- The trim moves at a boundary, by at most 40 units (R332). -/
def State.trimMove (s : State) : State :=
  let m := min 40 s.clk.toMove
  if m = 0 then s
  else
    let v := signed 20 (s.get R.CLK_TRIM_VALUE)
    let w := if s.clk.moveUp then v + m else v - m
    ({ s with clk := { s.clk with toMove := s.clk.toMove - m } }).set R.CLK_TRIM_VALUE 0 (unsigned 20 w)

/-- The reference is lost: holdover (R333). Monitor 9 watches TREF; none watches the marks of the Net (R335). -/
def State.refLost (s : State) : State :=
  if s.get R.CLK_TRIM_CFG_SRC = 0 ∨ s.on R.CLK_STS_HOLDOVER then s
  else
    let t := { s with clk := { s.clk with lostTemp := s.hottest, good := 0, toMove := 0 } }
    (((t.set R.CLK_STS_HOLDOVER 0 1).set R.CLK_STS_TREF_OK 0 0).clkErr R.CLK_ERR_STS_REF_LOST
      (if s.get R.CLK_TRIM_CFG_SRC = 3 then 0 else 9) 0).clkRecord 3

/-- The reference returns: measurement resumes with the next full interval (R333). -/
def State.refReturn (s : State) : State :=
  if !s.on R.CLK_STS_HOLDOVER then s
  else
    let src := s.get R.CLK_TRIM_CFG_SRC
    let t := { s with clk := { s.clk with skip := true } }
    ((t.set R.CLK_STS_HOLDOVER 0 0).put1 R.CLK_STS_TREF_OK (src == 1 || src == 2)).clkRecord 4

/-- LOCK does not survive a move of more than 5 °C in holdover (R333). -/
def State.holdoverDrift (s : State) : State :=
  if s.on R.CLK_STS_HOLDOVER ∧ 80 < (s.hottest - s.clk.lostTemp).natAbs then s.lockLost else s

/-- CLK_TRIM_CFG.SRC changed at a commit: the measurement starts again (R333). -/
def State.trimRestart (s : State) : State :=
  let src := s.get R.CLK_TRIM_CFG_SRC
  let t := { s with clk := { s.clk with good := 0, toMove := 0, skip := false } }
  ((t.set R.CLK_TRIM_ERR_VALID 0 0).set R.CLK_STS_HOLDOVER 0 0).put1 R.CLK_STS_TREF_OK (src == 1 || src == 2)

/-- The factory trim of OTP field 0x10; a damaged field reads as zero (R332). -/
def State.factoryTrim (s : State) : State :=
  let f := s.otpAt 0x10
  s.set R.CLK_TRIM_VALUE 0 (if f.damaged 0x10 then 0 else f.a)

/-! ## Multiplexers (R334) -/

/-- A write of CLK_MUX: only by Tamp or a privileged core before SERVICE_READY, else dropped. -/
def State.muxWrite (s : State) (src : Src) (v : Nat) : State :=
  if !mayLoad src ∨ s.on R.GLB_STS_SERVICE_READY then (s.clkErr R.CLK_ERR_STS_MUX_DROP 0 0).clkRecord 7
  else
    let old := s.storedAt 0x110010
    ((((s.set R.CLK_MUX_CORE 0 (bits v 0 0)).set R.CLK_MUX_SEQ 0 (bits v 1 1)).set R.CLK_MUX_DDR 0 (bits v 2 2)).set
      R.CLK_MUX_STS_BUSY 0 (s.get R.CLK_MUX_STS_BUSY ||| ((old ^^^ v) % 8)))

/-- The old clock of a mux runs: its bypass input by its monitor, its PLL by its lock. -/
def State.oldClockRuns (s : State) (m : Nat) : Bool :=
  let now := s.on (if m = 0 then R.CLK_MUX_CORE else if m = 1 then R.CLK_MUX_SEQ else R.CLK_MUX_DDR)
  if now then bit (s.get R.CLK_MON_STS_OK) (if m = 2 then 1 else 0)
  else s.on (if m = 0 then R.CLK_STS_CORE_LOCK else if m = 1 then R.CLK_STS_SEQ_LOCK else R.CLK_STS_DDR_LOCK)

/-- A mux completes its switch; one whose old clock has stopped never does. -/
def State.muxDone (s : State) (m : Nat) : State :=
  let busy := s.get R.CLK_MUX_STS_BUSY
  if m < 3 ∧ bit busy m ∧ s.oldClockRuns m then s.set R.CLK_MUX_STS_BUSY 0 (busy - 2 ^ m) else s

/-! ## Monitors (R335 to R337) -/

/-- What the monitors show: CLK_MON_STS and the two clocks of CLK_STS. -/
def State.monitors (s : State) (ok_ : Nat) : State :=
  ((s.set R.CLK_MON_STS_OK 0 ok_).set R.CLK_STS_XIN_OK 0 (bits ok_ 1 1)).set R.CLK_STS_BKO_OK 0 (bits ok_ 2 2)

/-- LOCK of the PLLs that a failed clock takes with it (R334, R345): those that follow a source that stopped, and the one whose output a
mux carries (assumption 87). -/
def State.locksLost (s : State) (m kind : Nat) : State :=
  let core := m = 0 ∧ kind = 1 ∨ m = 3 ∧ s.on R.CLK_MUX_CORE
  let seq := m = 0 ∧ kind = 1 ∨ m = 4 ∧ s.on R.CLK_MUX_SEQ
  let ddr := m = 1 ∧ kind = 1 ∨ m = 5 ∧ s.on R.CLK_MUX_DDR
  let t := if core then s.set R.CLK_STS_CORE_LOCK 0 0 else s
  let u := if seq then t.set R.CLK_STS_SEQ_LOCK 0 0 else t
  if ddr then u.set R.CLK_STS_DDR_LOCK 0 0 else u

/-- Monitor `m` fails: its bit, its count, and the PLLs that lose lock. -/
def State.monitorFails (s : State) (m kind count : Nat) : State :=
  let now := s.get R.CLK_MON_STS_OK
  ((s.monitors (if bit now m then now - 2 ^ m else now)).set R.CLK_MON_CNT_COUNT m count).locksLost m kind

/-- The edges that clock `m` gives in a window of 2 µs at its nominal rate, at the ratio its mux selects (R331, R335). -/
def State.monNominal (s : State) (m : Nat) : Nat :=
  if m = 0 then 400 else if m = 1 then 50
  else if m = 3 then (if s.on R.CLK_MUX_CORE then 2000 else 200)
  else if m = 4 then (if s.on R.CLK_MUX_SEQ then 4000 else 200)
  else if m = 5 then (if s.on R.CLK_MUX_DDR then 6400 else 50)
  else 200

/-- The sources whose windows count clock `m`, by their own monitor; TBCLK is the IRC halved (R331, R335). -/
def monRefs (m : Nat) : List Nat :=
  if m = 0 then [1, 2] else if m = 1 then [0, 2] else if m = 2 then [0, 1] else if m = 5 then [1] else [0]

/-- The count of clock `m` in a 2 µs window of source `r`; none when that source gives no edge. -/
def State.monCount (s : State) (edges : List Nat) (m r : Nat) : Option Nat :=
  let e := edges.getD r 0
  if e = 0 then none else some (edges.getD m 0 * s.monNominal r / e)

/-- A count outside the limit of its monitor (R335). -/
def State.monOut (s : State) (m n : Nat) : Bool :=
  let nom := s.monNominal m
  let lim := if m < 3 then 15 else 5
  decide (100 * n < nom * (100 - lim) ∨ nom * (100 + lim) < 100 * n)

/-- A window puts clock `m` outside its limit: monitors 0 to 2 against both other sources, one that stands still among them (R335). -/
def State.windowOut (s : State) (edges : List Nat) (m : Nat) : Bool :=
  (monRefs m).all (fun r => match s.monCount edges m r with | some n => s.monOut m n | none => decide (m < 3))

/-- The count a window leaves in CLK_MON_CNT[m]: of the first source named that runs (assumption 87). -/
def State.windowCount (s : State) (edges : List Nat) (m : Nat) : Option Nat :=
  ((monRefs m).filterMap (s.monCount edges m)).head?

/-- The backup oscillator fails; service continues (R335). -/
def State.bkoFailed (s : State) (kind count : Nat) : State :=
  ((s.monitorFails 2 kind count).clkErr R.CLK_ERR_STS_BKO_FAIL 2 kind).clkRecord 6

/-- A failure of this monitor is a clock failure (R335). -/
def isClockFailure (m : Nat) : Bool := m == 0 || m == 1 || m == 3 || m == 4 || m == 5

/-- In service: lifecycle state SERVICE after SERVICE_READY (R336). -/
def State.clockInService (s : State) : Bool := s.get R.LC_STATE_CODE == 3 && s.on R.GLB_STS_SERVICE_READY

/-- The fatal path (R336): status words, the record and the flush, on BKO or on TBCLK; with neither, the fatal reset
follows at once and the records that wait in the buffers are lost (R307). -/
def State.clockFatal (s : State) (m kind count : Nat) : State :=
  let t := s.monitorFails m kind count
  let path := bit (t.get R.CLK_MON_STS_OK) 2 || bit (t.get R.CLK_MON_STS_OK) 0
  let u := { t with clk := { t.clk with fatal := true } }
  if path then ((u.fatalRecords.breakPromises ccFatalClock).recordAs false true 0x0603 3 devScope m kind count 0).flush 4
  else ({ u with fb := { u.fb with pending := [], buffer := [] } }).askReset false 5 false

/-- The safe-state wait (R337): the device leaves its stage for 0xA and waits; no step granted goes on. -/
def State.safeWait (s : State) (m kind count : Nat) : State :=
  let t := s.monitorFails m kind count
  let failed := match t.clk.safe with | some l => if l.contains m then l else l ++ [m] | none => [m]
  (({ t with
    clk := { t.clk with safe := some failed, passRun := 0 }
    trv := { t.trv with cmds := t.trv.cmds.map (fun (c : Cmd) => { c with granted := false }) } }).set R.GLB_STS_STAGE 0 0xA).set R.TRV_STS_READY 0 0

/-! ## The commands of the table -/

def execRefLost (s : State) : Host.Outcome State Fault Refusal := ok s.refLost
def execRefReturn (s : State) : Host.Outcome State Fault Refusal := ok s.refReturn
def execMuxSwitchDone (mux : Nat) (s : State) : Host.Outcome State Fault Refusal := ok (s.muxDone mux)
def execBkoFail (kind count : Nat) (s : State) : Host.Outcome State Fault Refusal := ok (s.bkoFailed kind count)
def execSafeStateWait (monitor kind count : Nat) (s : State) : Host.Outcome State Fault Refusal :=
  ok (if isClockFailure monitor ∧ kind ≠ 0 ∧ !s.clockInService then s.safeWait monitor kind count else s)

end Sys2Proof.Machine
end

