-- ==== Sys2Proof/Machine/Dose.lean ====
section
/-! DEFINITION. The Dose power arbiter (R339 to R343) and the PMBus master (R399). -/

namespace Sys2Proof.Machine

/-- A DOSE_ERR_STS event; the first one while the register reads all zero is captured (R346). -/
def State.doseErr (s : State) (f : Field) (rail : Nat) : State :=
  let t := if s.storedAt 0x120018 = 0 then (s.set R.DOSE_ERR_INFO_CAUSE 0 f.lo).set R.DOSE_ERR_INFO_RAIL 0 rail else s
  t.event f R.DOSE_IRQ_EN_EN 11 1

/-! ## Budget and base (R339, R340) -/

/-- A 2-byte entry of an OTP table. -/
def State.otpEntry (s : State) (code i : Nat) : Nat := (s.otpAt code).a / 65536 ^ i % 65536

/-- The current limit of a rail in units of 0.5 A, for a LIMIT field given. -/
def State.railLimit (s : State) (limit r : Nat) : Nat := if limit = 0 then s.otpEntry 0x12 r else limit

/-- Budget tokens for WATTS and the LIMIT fields of rails 0 and 1: floor(10 × (0.75 × L0 + 0.80 × L1)) bounds them. -/
def State.budgetFor (s : State) (watts limit0 limit1 : Nat) : Nat :=
  min (10 * watts) ((15 * s.railLimit limit0 0 + 16 * s.railLimit limit1 1) / 4)

/-- B in force. -/
def State.budget (s : State) : Nat :=
  s.budgetFor (s.get R.DOSE_BUDGET_WATTS) (s.get R.DOSE_RAIL_CFG_LIMIT 0) (s.get R.DOSE_RAIL_CFG_LIMIT 1)

/-- The band of OTP field 0x11 for a temperature in sixteenths of a degree. -/
def tempBand (t : Int) : Nat :=
  if t < 0 then 0 else if t < 320 then 1 else if t < 640 then 2 else if t < 960 then 3 else if t < 1200 then 4
  else if t < 1360 then 5 else if t < 1520 then 6 else 7

/-- The base tokens of this boundary (R340). -/
def State.baseTokens (s : State) : Nat :=
  if s.on R.DOSE_BASE_CFG_FIXED then s.get R.DOSE_BASE_CFG_VALUE
  else if s.dose.hist then s.dose.telBase
  else s.otpEntry 0x11 (tempBand s.hottest)

/-- HIST: the base comes from telemetry; a fixed one does not (R340, R346). -/
def State.showHist (s : State) : State := s.put1 R.DOSE_STS_HIST (s.dose.hist && !s.on R.DOSE_BASE_CFG_FIXED)

/-- Budget and base of the boundary shown in DOSE_STS, and whether the base comes from telemetry; a base at or above B is reported
(R340). -/
def State.doseFigures (s : State) : State :=
  let b := s.budget
  let base := min 2047 s.baseTokens
  let was := decide (s.get R.DOSE_STS_BUDGET ≤ s.get R.DOSE_STS_BASE ∧ s.get R.DOSE_STS_BUDGET ≠ 0)
  let t := ((s.set R.DOSE_STS_BUDGET 0 (min 2047 b)).set R.DOSE_STS_BASE 0 base).showHist
  if b ≤ base ∧ !was then t.doseErr R.DOSE_ERR_STS_BASE_HIGH 0 else t

/-! ## Telemetry (R340, R399) -/

/-- Rails read in telemetry rounds. -/
def State.railsOn (s : State) : List Nat :=
  (List.range 7).filter (fun r => s.on R.DOSE_RAIL_CFG_EN r && !s.dose.off.contains r)

/-- Nominal voltage of rails 0 to 6 in mV (R268). -/
def railNominal (r : Nat) : Nat := [750, 800, 750, 1200, 1100, 1800, 1800].getD r 0

/-- PMBus command codes (assumption 24: the PMBus standard). -/
def pmbCode : PmbRead → Nat
  | .voutMode => 0x20 | .vout => 0x8B | .iout => 0x8C | .statusWord => 0x79

/-- A mantissa times a power of two whose exponent is a two's complement number of 5 bits, times `k`, rounded down. -/
def scaled (mant exp k : Nat) : Nat :=
  match signed 5 exp with
  | .ofNat n => mant * k * 2 ^ n
  | .negSucc n => mant * k / 2 ^ (n + 1)

/-- A brown-out warning: it takes effect at the next boundary (R343). -/
def State.brownWarn (s : State) (rail value : Nat) : State :=
  { s with dose := { s.dose with
    warned := true, brownReq := if s.dose.brownReq.isSome then s.dose.brownReq else some (rail, value) } }

/-- A read that failed voids its round (R340). -/
def State.pmbFail (s : State) (rail : Nat) (f : Field) : State :=
  (({ s with dose := { s.dose with roundVoid := true } }).set f 0 1).doseErr R.DOSE_ERR_STS_PMB_ERR rail

/-- What a PMBus read of an enabled rail brings. -/
def State.pmbValue (s : State) (rail v : Nat) (what : PmbRead) : State :=
  match what with
  | .voutMode =>
    if bits v 7 5 = 0 then { s with dose := { s.dose with modes := s.dose.modes.ins rail (64 + v % 32) } }
    else
      (({ s with dose := { s.dose with off := s.dose.off ++ [rail] } }).set R.MGT_PMB_ERR_MODE 0 1).doseErr
        R.DOSE_ERR_STS_PMB_ERR rail
  | .vout =>
    let mode := Tab.get 0 s.dose.modes rail
    if mode = 0 then s
    else
      let mv := scaled (v % 65536) (mode - 64) 1000
      let t := ({ s with dose := { s.dose with
        readV := if s.dose.readV.contains rail then s.dose.readV else s.dose.readV ++ [rail] } }).set R.DOSE_RAIL_TEL_VOUT rail
        (min mv 4095)
      if 100 * mv < 95 * railNominal rail then t.brownWarn rail mv else t
  | .iout =>
    let q := scaled (v % 2048) (v / 2048 % 32) 4
    let t := ({ s with dose := { s.dose with
      readI := if s.dose.readI.contains rail then s.dose.readI else s.dose.readI ++ [rail] } }).set R.DOSE_RAIL_TEL_IOUT rail
      (min q 4095)
    if 2 * s.railLimit (s.get R.DOSE_RAIL_CFG_LIMIT rail) rail < q then t.doseErr R.DOSE_ERR_STS_OVER rail else t
  | .statusWord => if bit v 15 ∨ bit v 14 then s.brownWarn rail v else s

/-- The PMBus master runs: its gate is on (R338), and no safe-state wait has released the bus (R337). -/
def State.pmbRuns (s : State) : Bool := bit (s.get R.CLK_GATE_ON) 8 && s.clk.safe.isNone

/-- A PMBus read of Dose ends (R340, R343, R399). -/
def State.pmbRead (s : State) (rail : Nat) (what : PmbRead) (r : PmbResult) : State :=
  if !s.railsOn.contains rail ∨ !s.pmbRuns then s
  else
    let t := (((s.set R.MGT_PMB_STS_ADDR 0 (s.get R.DOSE_RAIL_CFG_ADDR rail)).set R.MGT_PMB_STS_CMD 0 (pmbCode what)).set
      R.MGT_PMB_STS_PAGE 0 (s.get R.DOSE_RAIL_CFG_PAGE rail)).set R.MGT_PMB_STS_BUSY 0 0
    match r with
    | .value v => t.pmbValue rail v what
    | .nack => t.pmbFail rail R.MGT_PMB_ERR_NACK
    | .timeout => t.pmbFail rail R.MGT_PMB_ERR_TIMEOUT

/-- The round value (R340): the sum of V × I over a frame in µJ, less the mean command energy, rounded up. -/
def State.roundValue (s : State) : Nat :=
  let sum := s.railsOn.foldl (fun n r => n + s.get R.DOSE_RAIL_TEL_VOUT r * s.get R.DOSE_RAIL_TEL_IOUT r) 0
  ceilDiv (sum * 640 - s.dose.roundEnergy) 256000

/-- The end of a telemetry round (R340): complete, or void when a read failed or is missing; with no rail enabled there
is nothing to read and no round value (assumption 25). The telemetry base is recomputed here and nowhere else. -/
def State.telemetryRound (s : State) : State :=
  if s.frameNo % 256 ≠ 0 ∨ s.dose.roundAt = s.frameNo + 1 then s
  else
    let rails := s.railsOn
    let void := s.dose.roundVoid || rails.any (fun r => !s.dose.readV.contains r || !s.dose.readI.contains r)
    let d : Dose := { s.dose with
      roundAt := s.frameNo + 1, roundEnergy := 0, roundVoid := false, warned := false, readV := [], readI := []
      clean := s.dose.clean || (!void && !s.dose.warned) }
    if void then
      let d2 : Dose := { d with voids := d.voids + 1 }
      if 4 ≤ d2.voids then ({ s with dose := { d2 with rounds := [], hist := false } }).showHist else { s with dose := d2 }
    else if rails = [] then { s with dose := { d with voids := 0 } }
    else
      let rounds := (s.roundValue :: d.rounds).take 4
      if rounds.length = 4 then
        ({ s with dose := { d with
          voids := 0, rounds := rounds, hist := true
          telBase := rounds.foldl max 0 + s.get R.DOSE_BASE_CFG_MARGIN } }).showHist
      else { s with dose := { d with voids := 0, rounds := rounds } }

/-! ## Thermal ceiling (R341) -/

/-- The die temperature at a boundary. -/
def State.thermalFrame (s : State) : State :=
  let hi : Int := 16 * (s.get R.DOSE_THERM_T_HI : Nat)
  { s with dose := { s.dose with
    hot := if hi ≤ s.hottest then min 2 (s.dose.hot + 1) else 0
    cool := if s.hottest < hi - 80 then min 256 (s.dose.cool + 1) else 0 } }

def State.thermalOn (s : State) : State :=
  if s.on R.DOSE_THERM_EN ∧ 2 ≤ s.dose.hot ∧ !s.on R.DOSE_STS_THERM then
    (s.set R.DOSE_STS_THERM 0 1).doseErr R.DOSE_ERR_STS_THERM 0
  else s

/-- The thermal ceiling ends after 256 cool frames, whatever EN says by then (R341). -/
def State.thermalOff (s : State) : State :=
  if s.on R.DOSE_STS_THERM ∧ 256 ≤ s.dose.cool then s.set R.DOSE_STS_THERM 0 0 else s

/-! ## Brown-out (R343) -/

/-- A warning takes effect at the boundary; the hold is set at event 3. -/
def State.brownBegin (s : State) : State :=
  match s.dose.brownReq with
  | none => s
  | some (rail, value) =>
    let t := { s with dose := { s.dose with brownReq := none } }
    if t.on R.DOSE_STS_BROWNOUT then t
    else
      let u := { t with dose := { t.dose with brownAt := t.frameNo, brownBy := (rail, value), clean := false } }
      ((u.set R.DOSE_STS_BROWNOUT 0 1).doseErr R.DOSE_ERR_STS_BROWN_SET rail).record 0x0803 2 devScope 1 rail value

/-- The hold of Traverse while a warning stands, from SERVICE_READY on (R343, R371). -/
def State.brownHold (s : State) : State :=
  let hold := s.on R.DOSE_STS_BROWNOUT && s.on R.GLB_STS_SERVICE_READY
  (if hold && !s.on R.TRV_STS_BROWNOUT then s.trvErr R.TRV_ERR_STS_BROWNOUT else s).put1 R.TRV_STS_BROWNOUT hold

/-- The warning clears (R343). -/
def State.brownClear (s : State) : State :=
  if s.on R.DOSE_STS_BROWNOUT ∧ s.dose.brownAt + 256 ≤ s.frameNo ∧ s.dose.alertHigh ∧ s.dose.clean then
    ((s.set R.DOSE_STS_BROWNOUT 0 0).doseErr R.DOSE_ERR_STS_BROWN_CLR s.dose.brownBy.1).record 0x0803 2 devScope 2 s.dose.brownBy.1
      s.dose.brownBy.2
  else s

/-- ALERT_N as a frame ends with it. -/
def State.alertPin (s : State) (high : Bool) : State :=
  let t := ({ s with dose := { s.dose with alertHigh := high } }).put1 R.MGT_PIN_STS_ALERT_N high
  if high then t else t.brownWarn 0xF 0

/-- Dose at a boundary, before the calendar moves on. -/
def State.doseEvents (s : State) : State :=
  ((s.telemetryRound.thermalFrame.thermalOff.thermalOn).brownClear.brownBegin).doseFigures

/-! ## PMBus (R399) -/

/-- A PMBus line held low for 35 ms. -/
def State.pmbStuck (s : State) : State := if !s.pmbRuns then s else (s.set R.MGT_PMB_ERR_STUCK 0 1).set R.MGT_PMB_STS_BUSY 0 0

/-! ## The commands of the table -/

def execTelemetryRound (s : State) : Host.Outcome State Fault Refusal := ok s.telemetryRound
def execPmbusReadDone (rail : Nat) (what : PmbRead) (result : PmbResult) (s : State) : Host.Outcome State Fault Refusal :=
  ok (s.pmbRead rail what result)
def execBrownoutWarning (rail value : Nat) (s : State) : Host.Outcome State Fault Refusal := ok (s.brownWarn rail value)
def execBrownoutClear (s : State) : Host.Outcome State Fault Refusal := ok s.brownClear
def execThermalCeilingOn (s : State) : Host.Outcome State Fault Refusal := ok s.thermalOn
def execThermalCeilingOff (s : State) : Host.Outcome State Fault Refusal := ok s.thermalOff
def execPmbStuck (s : State) : Host.Outcome State Fault Refusal := ok s.pmbStuck

end Sys2Proof.Machine
end

