-- ==== Sys2Proof/Machine/NetLink.lean ====
section
/-! DEFINITION. The Net's direct links (R349 to R353, R355): ports, flits, replay, link keys, hop counts and paths. A
frame carries 4,375 flits in each direction of a link; how many of them are IDLE flits before the next other one is a free value
(assumption 30). -/

namespace Sys2Proof.Machine

/-- Port `p`. -/
def State.port (s : State) (p : Nat) : NetPort := Tab.get {} s.net.ports p

/-- Port `p` changed by `f`. -/
def State.modPort (s : State) (p : Nat) (f : NetPort → NetPort) : State :=
  { s with net := { s.net with ports := Tab.upd {} s.net.ports p f } }

/-- NET_PORT_STS[p].STATE: 0 off, 1 TRAINING, 2 UNKEYED, 3 UP, 4 DOWN. -/
def State.portState (s : State) (p : Nat) : Nat := s.get R.NET_PORT_STS_STATE p
def State.setPort (s : State) (p st : Nat) : State := s.set R.NET_PORT_STS_STATE p st

/-- The Net's units run: the gate of the block is on (R338), and no safe-state wait idles them (R337). -/
def State.netRuns (s : State) : Bool := bit (s.get R.CLK_GATE_ON) 6 && s.clk.safe.isNone

/-- The link carries flits. -/
def State.portLive (s : State) (p : Nat) : Bool := s.netRuns && (s.portState p == 2 || s.portState p == 3)

/-- The link carries flits under a key. -/
def State.netUp (s : State) (p : Nat) : Bool := s.netRuns && s.portState p == 3

/-- The device sends and accepts no message: debug is open (R367), or a fatal event or a safe-state wait has stopped
messages (R62, R84, R337). -/
def State.netSilent (s : State) : Bool :=
  s.get R.LC_DBG_STS_OPEN != 0 || s.on R.TRV_STS_FATAL || s.on R.TMP_STS_HALT || s.clk.fatal || s.clk.safe.isSome

/-- Something sent. -/
def State.netTx (s : State) (x : NetTx) : State := { s with net := { s.net with sent := s.net.sent ++ [x] } }

/-- The four ports. -/
def netPorts : List Nat := [0, 1, 2, 3]

/-- Ports in STATE UP, while the Net's units run. -/
def State.upPorts (s : State) : List Nat := netPorts.filter s.netUp

/-! ## Flits and replay (R350 to R352) -/

/-- Bytes 1 to 27 of a CONTROL flit (R350): CTYPE and its fields, zero beyond them; `late` is byte 11 of a MARK, the flit times since
its boundary. A resend and a message are no control flits. -/
def NetTx.control (late : Nat) : NetTx → Option Bytes
  | .ack _ q => some (fitTo 27 (toLE 1 1 ++ toLE 6 q))
  | .nak _ q => some (fitTo 27 (toLE 1 2 ++ toLE 6 q))
  | .mark _ f h => some (fitTo 27 (toLE 1 3 ++ toLE 8 f ++ toLE 1 h ++ toLE 1 late))
  | .keySwitch _ k q => some (fitTo 27 (toLE 1 4 ++ toLE 1 k ++ toLE 6 q))
  | .hello _ m nonce id => some (fitTo 27 (toLE 1 5 ++ toLE 2 m ++ fitTo 16 nonce ++ fitTo 8 id))
  | .route _ m h => some (fitTo 27 (toLE 1 6 ++ toLE 2 m ++ toLE 1 h))
  | .resend .. | .message .. => none

/-- The payload of a CONTROL flit (R350). -/
def NetTx.payload (x : NetTx) (late : Nat) : Bytes := toLE 1 1 ++ (x.control late).getD []

/-- The payload of an IDLE flit (R350). -/
def idlePayload : Bytes := fill 28 0

/-- The payloads of the flits of a message (R350): FTYPE 0x02, then 0x03, with 27 bytes each, the last zero-filled. -/
def messagePayloads (m : Bytes) : List Bytes :=
  (blocks 152 27 m).zipIdx.map (fun e => toLE 1 (if e.2 = 0 then 2 else 3) ++ fitTo 27 e.1)

/-- The 28 bytes of keystream of flit number `q` under a mix key (R351). -/
def flitStream (mix : Bytes) (q : Nat) : Bytes :=
  cut (fitTo 64 (Config.lineMix mix (q / 2) (fill 64 0))) (if q % 2 = 0 then 0 else 28) 28

/-- TAG of flit number `q` (R351): 0 under key ID 0, else over the mixed payload, the number and the key ID. -/
def flitTag (key : Option (Nat × Bytes × Bytes)) (q : Nat) (mixed : Bytes) : Bytes :=
  match key with
  | none => fill 2 0
  | some (k, _, tag) => fitTo 2 (Config.lineTag tag (mixed ++ toLE 6 q ++ toLE 1 k))

/-- The payload of flit number `q` with the keystream of its key ID (R351); in clear under key ID 0. -/
def flitMix (key : Option (Nat × Bytes × Bytes)) (q : Nat) (payload : Bytes) : Bytes :=
  match key with
  | none => fitTo 28 payload
  | some (_, mix, _) => xorBytes (fitTo 28 payload) (flitStream mix q)

/-- A flit of 32 bytes as sent (R350, R351), under a key ID with its mix key and tag key. -/
def flitBytes (key : Option (Nat × Bytes × Bytes)) (q : Nat) (payload : Bytes) : Bytes :=
  let mixed := flitMix key q payload
  let body := mixed ++ flitTag key q mixed
  body ++ toLE 2 (crcOf 16 0x1021 body)

/-- What is wrong with a flit of 32 bytes that arrives as number `q` (R352): true for its TAG, false for its DCODE. -/
def flitFault (key : Option (Nat × Bytes × Bytes)) (q : Nat) (f : Bytes) : Option Bool :=
  if cut f 30 2 ≠ toLE 2 (crcOf 16 0x1021 (f.take 30)) then some false
  else if cut f 28 2 ≠ flitTag key q (f.take 28) then some true
  else none

/-- The key under which this end sends flit number `q`, and under which it receives it (R353). -/
def NetPort.txKey (x : NetPort) (q : Nat) : Option (Nat × Bytes × Bytes) :=
  match x.txSwitch, x.next with
  | some a, some k => if a ≤ q then some k else x.key
  | _, _ => x.key
def NetPort.rxKey (x : NetPort) (q : Nat) : Option (Nat × Bytes × Bytes) :=
  match x.rxSwitch, x.next with
  | some a, some k => if a ≤ q then some k else x.key
  | _, _ => x.key

/-- The next flit sent on a port, in one of the first `room` flit times of the frame where these are not gone by, after a free number of
idle ones: its number. -/
def State.sendFlit (s : State) (p : Nat) (room : Nat := 4375) : Nat × State :=
  let (v, t) := s.fresh
  let x := t.port p
  let idle := if x.txSlot < room then v % (room - x.txSlot) else 0
  let q := (x.txSeq + idle) % 2 ^ 48
  (q, t.modPort p (fun x => { x with txSeq := (q + 1) % 2 ^ 48, sent := x.sent + idle + 1, txSlot := x.txSlot + idle + 1 }))

/-- A flit with this payload goes out as number `q`, and stays in the replay buffer of the last 2,048 (R352). -/
def State.putFlit (s : State) (p q : Nat) (payload : Bytes) : State :=
  let t := s.modPort p (fun x => { x with replay := (x.replay.filter (fun e => decide (q < e.1 + 2048))) ++ [(q, payload)] })
  { t with net := { t.net with wire := t.net.wire ++ [(p, q, flitBytes ((t.port p).txKey q) q payload)] } }

/-- A CONTROL flit sent. -/
def State.sendControl (s : State) (p : Nat) (x : NetTx) : State :=
  let (q, t) := s.sendFlit p
  (t.putFlit p q (x.payload 0)).netTx x

/-- A MARK sent, within the flit times that its byte 11 can count (R350). -/
def State.sendMark (s : State) (p frame hops : Nat) : State :=
  let (q, t) := s.sendFlit p 256
  (t.putFlit p q ((NetTx.mark p frame hops).payload ((t.port p).txSlot - 1))).netTx (.mark p frame hops)

/-- Flits one after the other. -/
def State.putFlits (s : State) (p q : Nat) : List Bytes → State
  | [] => s
  | b :: bs => State.putFlits (s.putFlit p q b) p ((q + 1) % 2 ^ 48) bs

/-- A flit as it was sent: what the replay buffer holds, an IDLE flit where it lists none (R352). -/
def State.flitAt (s : State) (p q : Nat) : Bytes :=
  let x := s.port p
  flitBytes (x.txKey q) q (((x.replay.find? (fun e => e.1 == q)).map Prod.snd).getD idlePayload)

/-- The flits from number `q` on sent again out of the replay buffer (R352). -/
def State.resendFrom (s : State) (p q : Nat) : State :=
  ({ s with net := { s.net with
    wire := s.net.wire ++ (List.range ((s.port p).txSeq - q)).map (fun i => (p, q + i, s.flitAt p (q + i))) } }).netTx (.resend p q)

/-- A free number of idle flits received; none while a flit that a NAK has named is awaited. -/
def State.idleIn (s : State) (p : Nat) : State :=
  if (s.port p).await then s
  else
    let (v, t) := s.fresh
    let x := t.port p
    let idle := if x.rxSlot < 4375 then v % (4375 - x.rxSlot) else 0
    t.modPort p (fun x => { x with rxSeq := (x.rxSeq + idle) % 2 ^ 48, rcvd := x.rcvd + idle, rxSlot := x.rxSlot + idle })

/-- The next `n` flits received in order. -/
def State.nextFlits (s : State) (p n : Nat) : State :=
  s.modPort p (fun x => { x with
    rxSeq := (x.rxSeq + n) % 2 ^ 48, rcvd := x.rcvd + n, rxSlot := x.rxSlot + n, flitFails := 0, await := false })

/-- A flit received in order, after a free number of idle ones. -/
def State.gotFlit (s : State) (p : Nat) : State := (s.idleIn p).nextFlits p 1

/-- A frame of a live link ends: IDLE flits filled what was left of its 4,375 in each direction (R349). -/
def State.fillFrame (s : State) (p : Nat) : State :=
  if s.portLive p then
    s.modPort p (fun x =>
      let a := 4375 - x.txSlot
      let b := 4375 - x.rxSlot
      { x with txSeq := (x.txSeq + a) % 2 ^ 48, sent := x.sent + a, txSlot := x.txSlot + a - 4375
               rxSeq := (x.rxSeq + b) % 2 ^ 48, rcvd := x.rcvd + b, rxSlot := x.rxSlot + b - 4375 })
  else s

/-! ## Members and paths (R347, R355) -/

/-- Member IDs that the member table lists at all. -/
def State.tableIds (s : State) : List Nat :=
  (((s.regs.map (fun e => e.1 / 64)).filter (fun o => decide (0x134000 ≤ o ∧ o < 0x13C000))).map
    (fun o => (o - 0x134000) / 8)).eraseDups

/-- The members. -/
def State.memberIds (s : State) : List Nat := s.tableIds.filter (fun i => s.get R.NET_MEMBER_STATE i == 1)

/-- The other members. -/
def State.others (s : State) : List Nat := s.memberIds.filter (fun i => i != s.get R.NET_STS_ID)

/-- The direct path to a member: fewest hops, ties to the lowest port (R355). -/
def State.directPath (s : State) (m : Nat) : Option (Nat × Nat) :=
  s.upPorts.foldl (fun best p =>
    let h := Tab.get 0 (s.port p).routes m
    if h = 0 then best
    else match best with
      | none => some (p, h)
      | some (_, g) => if h < g then some (p, h) else best) none

/-- A ROUTE flit on every port in use. -/
def State.routeAll (s : State) (m hops : Nat) : State := s.upPorts.foldl (fun t p => t.sendControl p (.route p m hops)) s

/-- PATH, HOPS and PORT of a member; a change of a direct path is announced, one that is lost by a hop count that no receiver takes
(R355, assumption 31). -/
def State.pathOf (s : State) (m : Nat) : State :=
  let put (path hops port : Nat) : State :=
    let t := ((s.set R.NET_MEMBER_PATH m path).set R.NET_MEMBER_HOPS m hops).set R.NET_MEMBER_PORT m port
    if s.get R.NET_MEMBER_PATH m = 1 ∧ path ≠ 1 then t.routeAll m 15 else t
  if s.get R.NET_STS_ID = m then put 3 0 0
  else if s.get R.NET_MEMBER_STATE m ≠ 1 then put 0 0 0
  else match s.directPath m with
    | some (p, h) =>
      let t := put 1 h p
      if s.get R.NET_MEMBER_PATH m = 1 ∧ s.get R.NET_MEMBER_HOPS m = h ∧ s.get R.NET_MEMBER_PORT m = p then t else t.routeAll m h
    | none => put (if s.on R.NET_CFG_TUN_EN then 2 else 0) 0 0

/-- Every path, and NET_STS.TUNNELLED: no direct path to the benchmark. -/
def State.paths (s : State) : State :=
  if !s.on R.NET_STS_MEMBER then s
  else
    let t := s.tableIds.foldl (fun u m => u.pathOf m) s
    t.put1 R.NET_STS_TUNNELLED (!t.on R.NET_STS_BENCH && t.get R.NET_MEMBER_PATH t.net.bench != 1)

/-- LINK_HELLO sent (R350, R353). -/
def State.sendHello (s : State) (p : Nat) : State :=
  s.sendControl p (.hello p (if s.on R.NET_STS_MEMBER then s.get R.NET_STS_ID else 0xFFFF) (s.port p).nonce (fitTo 8 s.net.netId))

/-- A keyed link falls to key ID 0 (R366, R367). -/
def State.unkey (s : State) (p : Nat) : State :=
  if s.portState p = 3 then
    ((s.modPort p NetPort.noKeys).setPort p 2).set R.NET_PORT_STS_KEYID p 0
  else s.modPort p NetPort.noKeys

/-- The mix key and the tag key of a key ID (R353), for allocation number `n`. -/
def State.linkKeys (s : State) (p k n : Nat) (peer : HelloFlit) : Bytes × Bytes :=
  let me := s.get R.NET_STS_ID
  let mine := (s.port p).nonce
  let ids := if me < peer.member then toLE 2 me ++ toLE 2 peer.member ++ mine ++ peer.nonce
    else toLE 2 peer.member ++ toLE 2 me ++ peer.nonce ++ mine
  let lr := kdfOf s.net.nrk (ascii "NETL") []
  let c := toLE 1 k ++ toLE 4 n ++ ids
  (kdfOf lr (ascii "NLM") c, kdfOf lr (ascii "NLT") c)

/-- The key ID in force, 0 for none. -/
def NetPort.keyId (x : NetPort) : Nat := match x.key with | some (k, _) => k | none => 0

/-- Key ID `k` derived and announced by KEY_SWITCH (R353). -/
def State.switchTo (s : State) (p k : Nat) (peer : HelloFlit) : State :=
  let n := (s.port p).allocs + 1
  let ks := s.linkKeys p k n peer
  let (q, t) := (s.modPort p (fun x => { x with allocs := n, next := some (k, ks.1, ks.2) })).sendFlit p
  let x : NetTx := .keySwitch p k ((q + 1) % 2 ^ 48)
  ((t.putFlit p q (x.payload 0)).modPort p (fun y => { y with txSwitch := some ((q + 1) % 2 ^ 48) })).netTx x

/-- Both directions have left the old key ID: it is retired and its keys erased; a link keyed for the first time is UP and
its hop counts go out (R353, R355). -/
def State.keysSettle (s : State) (p : Nat) : State :=
  let x := s.port p
  match x.next, x.txSwitch, x.rxSwitch with
  | some (k, kx, kt), some a, some b =>
    if a ≤ x.acked ∧ b ≤ x.rxSeq then
      let t := (s.modPort p (fun y => { y with
        key := some (k, kx, kt), next := none, txSwitch := none, rxSwitch := none, sent := 0, rcvd := 0 })).set R.NET_PORT_STS_KEYID p k
      if s.portState p = 3 then t
      else
        let u := (t.setPort p 3).paths
        (u.memberIds.filter (fun m => u.get R.NET_MEMBER_PATH m == 1)).foldl
          (fun v m => v.sendControl p (.route p m (v.get R.NET_MEMBER_HOPS m))) (u.sendControl p (.route p (u.get R.NET_STS_ID) 0))
    else s
  | _, _, _ => s

/-- A LINK_HELLO is known from a member of the same Net that has not been retired: key ID 1 follows (R353). -/
def State.keyLink (s : State) (p : Nat) : State :=
  let x := s.port p
  match x.peer with
  | none => s
  | some h =>
    if s.portState p = 2 ∧ s.on R.NET_STS_MEMBER ∧ !s.netSilent ∧ x.next = none ∧ h.member ≤ 0xFFF
        ∧ h.member ≠ s.get R.NET_STS_ID ∧ h.netId = fitTo 8 s.net.netId ∧ s.get R.NET_MEMBER_STATE h.member ≠ 2 then
      s.switchTo p 1 h
    else s

/-- A port goes DOWN (R352): 0 repeated flit, 1 TAG failures, 2 no flit, 3 clock monitor. -/
def State.portDown (s : State) (p cause : Nat) : State :=
  if p < 4 ∧ (s.portState p = 1 ∨ s.portState p = 2 ∨ s.portState p = 3) then
    let t := (((s.modPort p (fun x => { x.noKeys with downAt := s.frameNo, peer := none })).setPort p 4).set
      R.NET_PORT_STS_CAUSE p cause).set R.NET_PORT_STS_KEYID p 0
    ((t.netErr R.NET_ERR_STS_LINK_DOWN p (t.get R.NET_PORT_STS_PEER p) 0).record 0x0804 2 devScope 1 p cause).paths
  else s

/-- Training completes (R349, R353); the delay it measures is a free value. -/
def State.portUp (s : State) (p : Nat) (swap rxInv txInv : Bool) : State :=
  if p < 4 ∧ s.portState p = 1 ∧ s.netRuns then
    let (nonce, t0) := s.randomBytes 16
    let (delay, t) := t0.fresh
    let u := t.modPort p (fun x => { nonce := nonce, downAt := x.downAt, delay := delay })
    (((((u.put1 R.NET_PORT_STS_SWAP swap p).put1 R.NET_PORT_STS_RX_INV rxInv p).put1 R.NET_PORT_STS_TX_INV txInv p).setPort p 2).set
      R.NET_PORT_STS_KEYID p 0).sendHello p
  else s

/-- A DOWN port retrains after 1,024 frames while enabled (R352). -/
def State.retrain (s : State) (p : Nat) : State :=
  if s.netRuns ∧ s.portState p = 4 ∧ s.on R.NET_PORT_CTL_EN p ∧ (s.port p).downAt + 1024 ≤ s.frameNo then s.setPort p 1 else s

/-- The port is fitted: no capability fuse disables it (R256). -/
def State.portPresent (s : State) (p : Nat) : Bool := decide (p < 4) && !bit s.lc.fuses (176 + p)

/-- NET_PORT_CTL[p].EN at work: an enabled port trains, a disabled one is off. -/
def State.portEnable (s : State) (p : Nat) : State :=
  if !s.netRuns then s
  else if s.on R.NET_PORT_CTL_EN p ∧ s.portPresent p then (if s.portState p = 0 then s.setPort p 1 else s)
  else if s.portState p = 0 then s
  else (((s.modPort p (fun _ => {})).setPort p 0).set R.NET_PORT_STS_KEYID p 0).paths

/-- The flit expected fails DCODE or TAG (R352): it is discarded and NAKed with its number. -/
def State.flitError (s : State) (p : Nat) (tag : Bool) : State :=
  let t := s.bump R.NET_PORT_CNT_REPLAY 1 p
  let u := if tag then
      (t.bump R.NET_PORT_CNT_TAG_FAIL 1 p).modPort p (fun x => { x with
        tagFails := (x.tagFails ++ [s.frameNo]).filter (fun f => decide (s.frameNo < f + 4096)) })
    else t
  let w := (u.modPort p (fun x => { x with flitFails := x.flitFails + 1, await := true })).sendControl p (.nak p (u.port p).rxSeq)
  if 4 ≤ (w.port p).flitFails then w.portDown p 0
  else if tag ∧ 8 ≤ (w.port p).tagFails.length then w.portDown p 1
  else w

/-- A flit with another number than the one expected: NAK with that one, a replay requested; while the flit that a NAK has named is
awaited, later ones are discarded (R352, R368). -/
def State.flitMissed (s : State) (p : Nat) : State :=
  if (s.port p).await then s
  else
    let t := (s.idleIn p).bump R.NET_PORT_CNT_REPLAY 1 p
    (t.modPort p (fun x => { x with await := true })).sendControl p (.nak p (t.port p).rxSeq)

/-- No ACK for 2 µs with the replay buffer full, so that 2,048 flits are not acknowledged: the oldest of them and all after it go out
again (R352). -/
def State.replayTimeout (s : State) (p : Nat) : State :=
  if p < 4 ∧ s.portLive p then
    let t := s.modPort p (fun x => { x with
      txSeq := max x.txSeq (x.acked + 2048), sent := x.sent + (x.acked + 2048 - x.txSeq) })
    t.resendFrom p (t.port p).acked
  else s

/-- A flit of a live link is put to `use`; on any other port there is none. -/
def State.withFlit (s : State) (p : Nat) (use : State → State) : State :=
  if p < 4 ∧ s.portLive p then use (s.gotFlit p) else s

/-- An ACK names the highest flit received in order; flits up to it have been sent, and leave the replay buffer (R352). -/
def State.tookAck (s : State) (p q : Nat) : State :=
  (s.modPort p (fun x => { x with
    acked := max x.acked (q + 1), txSeq := max x.txSeq (q + 1), sent := x.sent + (q + 1 - x.txSeq)
    replay := x.replay.filter (fun e => decide (q < e.1)) })).keysSettle p
def State.ackFlit (s : State) (p q : Nat) : State := s.withFlit p (fun t => t.tookAck p q)

/-- A NAK names the flit expected: the transmitter resends from it out of the replay buffer (R352). -/
def State.tookNak (s : State) (p q : Nat) : State :=
  if (s.port p).acked ≤ q then
    (s.modPort p (fun x => { x with txSeq := max x.txSeq (q + 1), sent := x.sent + (q + 1 - x.txSeq) })).resendFrom p q
  else s
def State.nakFlit (s : State) (p q : Nat) : State := s.withFlit p (fun t => t.tookNak p q)

/-- The receiver's ACK, at least every 500 ns (R352). -/
def State.sendAck (s : State) (p : Nat) : State :=
  if p < 4 ∧ s.portLive p then
    let q := (s.port p).rxSeq
    if q = 0 then s else s.sendControl p (.ack p (q - 1))
  else s

/-! ## Link keys (R353) -/

/-- LINK_HELLO received. -/
def State.tookHello (s : State) (p : Nat) (h : HelloFlit) : State :=
  ((s.modPort p (fun x => { x with peer := some { h with nonce := fitTo 16 h.nonce, netId := fitTo 8 h.netId } })).set
    R.NET_PORT_STS_PEER p h.member).keyLink p
def State.gotHello (s : State) (p : Nat) (h : HelloFlit) : State := s.withFlit p (fun t => t.tookHello p h)

/-- A link key change begins here (R353). -/
def State.rekeyLink (s : State) (p : Nat) : State :=
  let x := s.port p
  match x.peer with
  | some h => if s.netUp p ∧ x.next = none then s.switchTo p (x.keyId % 15 + 1) h else s
  | none => s

/-- KEY_SWITCH received: the partner's direction moves to `k` at sequence number `q`; a change this end has not begun is
answered with its own (R353). -/
def State.tookSwitch (s : State) (p k q : Nat) : State :=
  let t := s.modPort p (fun x => { x with rxSeq := max x.rxSeq q })
  let x := t.port p
  match x.next, x.peer with
  | some (n, _), _ => if n = k ∧ x.rxSwitch = none then (t.modPort p (fun y => { y with rxSwitch := some q })).keysSettle p else t
  | none, some h =>
    if k = x.keyId % 15 + 1 ∧ (t.portState p = 3 ∨ (t.on R.NET_STS_MEMBER ∧ h.netId = fitTo 8 t.net.netId ∧ !t.netSilent)) then
      ((t.modPort p (fun y => { y with rxSwitch := some q })).switchTo p k h).keysSettle p
    else t
  | none, none => t
def State.gotSwitch (s : State) (p k q : Nat) : State := s.withFlit p (fun t => t.tookSwitch p k q)

/-- Either direction has sent 2^40 flits under one key ID (R353). -/
def State.autoRekey (s : State) (p : Nat) : State :=
  if 2 ^ 40 ≤ (s.port p).sent ∨ 2 ^ 40 ≤ (s.port p).rcvd then s.rekeyLink p else s

/-- A ROUTE flit: its hop count plus 1, up to 15 (R355); one under key ID 0 is discarded (R351). -/
def State.tookRoute (s : State) (p m hops : Nat) : State :=
  if s.netUp p ∧ hops + 1 ≤ 15 ∧ m ≤ 0xFFF then
    (s.modPort p (fun x => { x with routes := Tab.put 0 x.routes m (hops + 1) })).paths
  else s
def State.gotRoute (s : State) (p m hops : Nat) : State := s.withFlit p (fun t => t.tookRoute p m hops)

/-! ## The commands of the table -/

def execLinkUp (port : Nat) (swap rxInv txInv : Bool) (s : State) : Host.Outcome State Fault Refusal :=
  ok (s.portUp port swap rxInv txInv)
def execLinkDown (port cause : Nat) (s : State) : Host.Outcome State Fault Refusal :=
  ok (if s.netRuns then s.portDown port (cause % 4) else s)
def execLinkRetrain (port : Nat) (s : State) : Host.Outcome State Fault Refusal := ok (s.retrain port)
def execReplayTimeout (port : Nat) (s : State) : Host.Outcome State Fault Refusal := ok (s.replayTimeout port)
def execNetAck (port seq : Nat) (s : State) : Host.Outcome State Fault Refusal := ok (s.ackFlit port seq)
def execNetNak (port seq : Nat) (s : State) : Host.Outcome State Fault Refusal := ok (s.nakFlit port seq)
def execAckInterval (port : Nat) (s : State) : Host.Outcome State Fault Refusal := ok (s.sendAck port)
def execKeySwitch (port keyid seq : Nat) (s : State) : Host.Outcome State Fault Refusal := ok (s.gotSwitch port keyid seq)
def execLinkHello (port : Nat) (hello : HelloFlit) (s : State) : Host.Outcome State Fault Refusal := ok (s.gotHello port hello)
def execNetRoute (port member hops : Nat) (s : State) : Host.Outcome State Fault Refusal := ok (s.gotRoute port member hops)
def execLinkKeyChangeAuto (port : Nat) (s : State) : Host.Outcome State Fault Refusal := ok (s.autoRekey port)

end Sys2Proof.Machine
end

