-- ==== Sys2Proof/Machine/Net.lean ====
section
/-! DEFINITION. Net messages, the tunnel, frame alignment, and replicated slices (R354 to R356, R360 to R365, R367). -/

namespace Sys2Proof.Machine

/-! ## Sending (R354 to R356) -/

/-- MTYPE of a body. -/
def NetBody.mtype : NetBody → Nat
  | .table .. => 0x10 | .time .. => 0x11 | .domain .. => 0x20 | .domainAck .. => 0x21 | .lease .. => 0x22 | .sync .. => 0x23
  | .witness .. => 0x30 | .joinDone => 0x40 | .leave => 0x41

/-- The fields of a body, in order. -/
def NetBody.fields : NetBody → List Bytes
  | .table bench rows => toLE 2 bench :: rows.map (fun r => toLE 2 r.member ++ toLE 1 r.state ++ toLE 6 r.dev)
  | .time frame => [toLE 8 frame]
  | .domain r =>
    [toLE 2 r.slice, toLE 8 r.rseq, toLE 2 r.home, toLE 1 (b2n r.present), toLE 8 r.epoch, toLE 8 r.floor, toLE 8 r.gen0, toLE 8 r.cursor,
     r.root, toLE 1 (b2n r.full), toLE 2 r.part, toLE 2 r.parts] ++ r.revoked.map (fun e => toLE 8 e.1 ++ toLE 8 e.2)
  | .domainAck slice rseq => [toLE 2 slice, toLE 8 rseq]
  | .lease frame digest => [toLE 8 frame, digest]
  | .sync slices => slices.map (toLE 2)
  | .witness seq digest => [toLE 8 seq, digest]
  | .joinDone | .leave => []

/-- The body of a message: the spec lays the header and the sealing out and not the bodies (R354, assumption 36). -/
def NetBody.bytes (b : NetBody) : Bytes := (Config.netBody b.mtype b.fields).take 4048

/-- The 32-byte header of a message (R354). -/
def messageHeader (src dst : Nat) (bcast : Bool) (counter : Nat) (boot : Bytes) (body : NetBody) : Bytes :=
  toLE 1 1 ++ toLE 1 body.mtype ++ toLE 2 src ++ toLE 2 (dst + b2n bcast * 2 ^ 15) ++ toLE 2 body.bytes.length ++ toLE 8 counter
    ++ fitTo 16 boot

/-- The sealed body of a message and its tag, under MK with the header as AAD (R354). -/
def messageSeal (nrk : Bytes) (src dst : Nat) (bcast : Bool) (counter : Nat) (boot : Bytes) (body : NetBody) : Bytes × Bytes :=
  gcmEnc 0x12 (kdfOf nrk (ascii "NETM") (toLE 2 src ++ fitTo 16 boot)) (toLE 2 src ++ toLE 8 counter ++ fill 2 0)
    (messageHeader src dst bcast counter boot body) body.bytes

/-- The bytes of a message (R354). -/
def messageBytes (nrk : Bytes) (src dst : Nat) (bcast : Bool) (counter : Nat) (boot : Bytes) (body : NetBody) : Bytes :=
  let e := messageSeal nrk src dst bcast counter boot body
  messageHeader src dst bcast counter boot body ++ e.1 ++ e.2

/-- The flits of a message. -/
def messageFlits (body : NetBody) : Nat := ceilDiv (body.bytes.length + 48) 27

/-- The tag of a message as it arrives verifies (R355). -/
def tagHolds (h : NetHeader) (nrk : Bytes) (body : NetBody) : Bool :=
  h.tag == (messageSeal nrk h.src h.dst h.bcast h.counter h.boot body).2

/-- A message to the tunnel: the TX entry at TX_HEAD, or TUN_FULL (R356). -/
def State.tunnelPut (s : State) (src dst : Nat) (bcast : Bool) (counter : Nat) (boot : Bytes) (body : NetBody) : State :=
  if !s.on R.NET_CFG_TUN_EN ∨ !s.netRuns then s
  else
    let head := s.get R.NET_TUN_PTR_TX_HEAD
    let size := 2 ^ s.get R.NET_TUN_TX_SIZE
    if size ≤ (head + 65536 - s.get R.NET_TUN_PTR_TX_ACK) % 65536 then s.netErr R.NET_ERR_STS_TUN_FULL 0 dst 0
    else
      let b := messageBytes s.net.nrk src dst bcast counter boot body
      ((s.postAdmin (s.get R.NET_TUN_TX_BASE * 4096 + (head % size) * 4096) (fitTo 4096 b)).set R.NET_TUN_PTR_TX_HEAD 0
        (head + 1)).netTx (.message none src dst bcast counter body)

/-- A message on a direct port: its flits one after the other (R350). -/
def State.portPut (s : State) (p src dst : Nat) (bcast : Bool) (counter : Nat) (boot : Bytes) (body : NetBody) : State :=
  if s.netUp p then
    let (q, t) := s.sendFlit p
    let n := messageFlits body - 1
    let u := t.modPort p (fun x => { x with txSeq := (x.txSeq + n) % 2 ^ 48, sent := x.sent + n, txSlot := x.txSlot + n })
    (u.putFlits p q (messagePayloads (messageBytes s.net.nrk src dst bcast counter boot body))).netTx
      (.message (some p) src dst bcast counter body)
  else s

/-- A message on its way: a broadcast on every direct port but the one it came by, and once to the tunnel; another by the path of its
destination (R355, assumption 31). -/
def State.carry (s : State) (src dst : Nat) (bcast : Bool) (counter : Nat) (boot : Bytes) (body : NetBody)
    (came : Option Nat) : State :=
  if bcast then
    ((s.upPorts.filter (fun p => some p != came)).foldl (fun u p => u.portPut p src dst bcast counter boot body) s).tunnelPut
      src dst bcast counter boot body
  else if s.get R.NET_MEMBER_PATH dst = 1 then s.portPut (s.get R.NET_MEMBER_PORT dst) src dst bcast counter boot body
  else s.tunnelPut src dst bcast counter boot body

/-- A message of this member, with the next COUNTER of its BOOT. -/
def State.sendMsg (s : State) (dst : Nat) (bcast : Bool) (body : NetBody) : State :=
  if !s.on R.NET_STS_MEMBER ∨ s.netSilent ∨ !s.netRuns then s
  else
    let c := s.net.counter + 1
    ({ s with net := { s.net with counter := c } }).carry (s.get R.NET_STS_ID) dst bcast c s.net.boot body none

/-- A broadcast. -/
def State.broadcast (s : State) (body : NetBody) : State := s.sendMsg 0 true body

/-- The member table as TABLE carries it. -/
def State.tableBody (s : State) : NetBody :=
  .table s.net.bench ((s.tableIds.filter (fun m => s.get R.NET_MEMBER_STATE m != 0)).map (fun m =>
    { member := m, state := s.get R.NET_MEMBER_STATE m, dev := s.get R.NET_MEMBER_DEV m }))

/-! ## Receiving (R355) -/

/-- The arrival of a message: the flits of an UP port, or an entry of the RX ring; `none` where none can arrive. -/
def State.arrives (s : State) (h : NetHeader) (body : NetBody) : Option State :=
  match h.port with
  | some p => if p < 4 ∧ s.netUp p then some ((s.idleIn p).nextFlits p (messageFlits body)) else none
  | none =>
    let head := s.get R.NET_TUN_PTR_RX_HEAD
    if s.netRuns ∧ s.on R.NET_CFG_TUN_EN ∧ head ≠ s.get R.NET_TUN_PTR_RX_TAIL ∧ s.net.rxRead < 64 then
      some ({ s with net := { s.net with rxRead := s.net.rxRead + 1 } }.set R.NET_TUN_PTR_RX_HEAD 0 (head + 1))
    else none

/-- COUNTER is new and above the highest accepted minus 64. -/
def Net.counterOk (n : Net) (h : NetHeader) : Bool :=
  match n.seen.find? (fun e => e.1 == h.src && e.2.1 == h.boot) with
  | none => true
  | some (_, _, top, got) => decide (top < h.counter + 64) && !got.contains h.counter

/-- COUNTER accepted. -/
def Net.accept (n : Net) (h : NetHeader) : Net :=
  match n.seen.find? (fun e => e.1 == h.src && e.2.1 == h.boot) with
  | none => { n with seen := n.seen ++ [(h.src, h.boot, h.counter, [h.counter])] }
  | some (_, _, top, got) =>
    let top2 := max top h.counter
    let got2 := (h.counter :: got).filter (fun c => decide (top2 < c + 64))
    { n with seen := n.seen.map (fun e => if e.1 == h.src && e.2.1 == h.boot then (e.1, e.2.1, top2, got2) else e) }

/-- A message received: dropped and reported, or accepted, forwarded where it must be, and put to `use` when it is for
this member (R355). -/
def State.takeMessage (s : State) (h : NetHeader) (body : NetBody) (use : State → State) : State :=
  match s.arrives h body with
  | none => s
  | some t =>
    if t.netSilent ∨ !t.on R.NET_STS_MEMBER ∨ t.get R.NET_MEMBER_STATE h.src ≠ 1 ∨ !t.net.counterOk h ∨ !tagHolds h t.net.nrk body then
      t.netErr R.NET_ERR_STS_MSG_DROP (h.port.getD 0) h.src 0
    else
      let u := { t with net := t.net.accept h }
      let mine := h.bcast || h.dst == u.get R.NET_STS_ID
      let v := if !mine ∨ (h.bcast ∧ h.port.isSome) then
          u.carry h.src h.dst h.bcast h.counter h.boot body (if h.bcast then h.port else none)
        else u
      if mine then use v else v

/-! ## Replicated slices (R362 to R364) -/

/-- Replication of slice `n`. -/
def State.repl (s : State) (n : Nat) : Repl := Tab.get {} s.net.slices n
def State.modRepl (s : State) (n : Nat) (f : Repl → Repl) : State :=
  { s with net := { s.net with slices := Tab.upd {} s.net.slices n f } }

/-- This member is the home of slice `n`. -/
def State.isHome (s : State) (n : Nat) : Bool :=
  s.on R.NET_STS_MEMBER && s.on R.NET_SLICE_REPL n && s.get R.NET_SLICE_HOME n == s.get R.NET_STS_ID

/-- Slices replicated, in ascending order. -/
def State.replicated (s : State) : List Nat :=
  let offs := ((s.regs.map (fun e => e.1 / 64)).filter (fun o => decide (0x131000 ≤ o ∧ o < 0x132000))).map (fun o => (o - 0x131000) / 4)
  offs.eraseDups.filter (fun n => s.on R.NET_SLICE_REPL n)

/-- Slices whose home is member `m`. -/
def State.homedAt (s : State) (m : Nat) : List Nat := s.replicated.filter (fun n => s.get R.NET_SLICE_HOME n == m)

/-- Revocation entries of a slice. -/
def State.revsOf (s : State) (n : Nat) : List (Nat × Nat) := s.ks.revoked.filter (fun e => hSlice e.1 == n)

/-- The record of slice `n` with this number and these revocation entries (R363). -/
def State.recordOf (s : State) (n rseq : Nat) (revs : List (Nat × Nat)) (full : Bool) : DomainRec :=
  let d := s.domain n
  { slice := n, rseq := rseq, home := s.get R.NET_SLICE_HOME n, present := d.present, epoch := s.epochOf n, floor := d.floor,
    gen0 := d.gen0, cursor := (s.leafValue .cursor n).getD 1, root := d.root, revoked := revs, full := full }

/-- PEND of a slice: members that have not acknowledged the latest RSEQ. -/
def State.showPend (s : State) (n : Nat) : State :=
  let x := s.repl n
  s.set R.NET_SLICE_PEND n (match x.sent.find? (fun e => e.record.rseq == x.rseq) with | some e => e.pend.length | none => 0)

/-- A DOMAIN record broadcast; more revocation entries follow in the next frame (R363). -/
def State.announce (s : State) (n : Nat) : State :=
  let x := s.repl n
  let revs := (s.revsOf n).filter (fun e => !x.sentRev.contains e)
  let r := s.recordOf n (x.rseq + 1) (revs.take 256) false
  let t := (s.broadcast (.domain r)).modRepl n (fun y => { y with
    rseq := r.rseq
    sent := if s.others = [] then [] else y.sent ++ [{ record := r, frame := s.frameNo, pend := s.others }]
    sentRev := (y.sentRev.filter (fun e => (s.revsOf n).contains e)) ++ revs.take 256 })
  let u := { t with net := { t.net with
    changed := if 256 < revs.length then (if t.net.changed.contains n then t.net.changed else t.net.changed ++ [n])
      else t.net.changed.filter (fun m => m != n) } }
  u.showPend n

/-- Records due in the frame that begins (R363). -/
def State.announceAll (s : State) : State :=
  let t := (s.net.changed.filter (fun n => s.isHome n)).foldl (fun u n => u.announce n) s
  { t with net := { t.net with changed := t.net.changed.filter (fun n => t.isHome n) } }

/-- A full record of slice `n`: every revocation entry, 256 to a message (R363, assumption 88). -/
def State.fullRecord (s : State) (n : Nat) : List DomainRec :=
  let parts := max 1 (ceilDiv (s.revsOf n).length 256)
  (List.range parts).map (fun i =>
    { s.recordOf n (s.repl n).rseq (((s.revsOf n).drop (256 * i)).take 256) true with part := i, parts := parts })

/-- A full record of slice `n` to a member, in as many messages as it needs (R363). -/
def State.sendFull (s : State) (n m : Nat) : State := (s.fullRecord n).foldl (fun t r => t.sendMsg m false (.domain r)) s

/-- The slices that this member homes, to a member that is new (R359). -/
def State.sendSlices (s : State) (m : Nat) : State := (s.homedAt (s.get R.NET_STS_ID)).foldl (fun t n => t.sendFull n m) s

/-- DOMAIN received (R362, R363): a record waits for the next boundary; one at or below the last is acknowledged again. -/
def State.gotDomain (s : State) (src : Nat) (r : DomainRec) : State :=
  let n := r.slice
  if 1024 ≤ n then s
  else if (s.domain n).present ∧ !s.on R.NET_SLICE_REPL n then s.netErr R.NET_ERR_STS_CONFLICT 0 src n
  else if s.isHome n then s
  else if r.rseq ≤ (s.repl n).rseq then s.sendMsg src false (.domainAck n r.rseq)
  else if (s.repl n).waiting.any (fun e => e.1.rseq == r.rseq && e.1.full == r.full && e.1.part == r.part) then s
  else s.modRepl n (fun x => { x with waiting := x.waiting ++ [(r, s.frameNo, src)] })

/-- The lease of a slice homed elsewhere is not current: check 2 of R73 refuses its keys (assumption 33). -/
def State.setLapsed (s : State) (n : Nat) (b : Bool) : State :=
  { s with net := { s.net with
    lapsed := if b then (if s.net.lapsed.contains n then s.net.lapsed else s.net.lapsed ++ [n])
      else s.net.lapsed.filter (fun m => m != n) } }

/-- Revocation entries taken over from the home: listed, and their KRC entries leave (R200, R363). -/
def State.takeRevs (s : State) (n : Nat) (revs : List (Nat × Nat)) : State :=
  revs.foldl (fun t e =>
    if t.ks.revoked.contains e ∨ hSlice e.1 ≠ n then t
    else
      let g := hGen e.1 + 1
      (t.setRevoked (t.ks.revoked ++ [e])).modDomain n (fun d => { d with
        gens := if Tab.get 0 d.gens (hIndex e.1) < g then Tab.put 0 d.gens (hIndex e.1) g else d.gens
        dying := d.dying ++ [{ index := hIndex e.1, slots := 0, frame := t.frameNo, handles := [e.1] }] })) s

/-- What a record makes of the domain (R363). -/
def State.takeDomain (s : State) (r : DomainRec) : State :=
  let n := r.slice
  let d := s.domain n
  if !r.present then (if d.present then s.destroyDomain n [] else s)
  else
    let t := if d.present ∧ d.gen0 = r.gen0 ∧ d.root = r.root then s
      else (s.rekeyDomain n r.root).modDomain n (fun x => { x with gen0 := r.gen0 })
    let u := match t.leafOf .epoch n with | some l => t.raiseLeaf l r.epoch | none => t
    let v := match u.leafOf .cursor n with | some l => u.raiseLeaf l r.cursor | none => u
    let w := v.modDomain n (fun x => { x with floor := r.floor, cursor := r.cursor, cursorEnd := r.cursor })
    (w.setRevoked (w.ks.revoked.filter (fun e => hSlice e.1 != n || decide (r.floor ≤ e.2)))).takeRevs n
      r.revoked

/-- A record applied as event 2 (R363, R366). -/
def State.applyRecord (s : State) (r : DomainRec) (src : Nat) : State :=
  let n := r.slice
  let t := ((s.takeDomain r).set R.NET_SLICE_REPL n 1).set R.NET_SLICE_HOME n r.home
  let u := t.modRepl n (fun x => { x with
    rseq := r.rseq, toAck := x.toAck ++ [(r.rseq, src)], waiting := x.waiting.filter (fun e => decide (r.rseq < e.1.rseq))
    sentRev := t.revsOf n })
  if u.isHome n then (u.set R.NET_SLICE_LEASE_OK n 0).setLapsed n false
  else u.setLapsed n (decide ((u.repl n).lease ≤ u.frameNo))

/-- A record with every revocation entry of its messages; none while one of these has not arrived. -/
def Repl.whole (x : Repl) (r : DomainRec) : Option DomainRec :=
  if !r.full then some r
  else
    let part (i : Nat) : Option DomainRec :=
      (x.waiting.find? (fun e => e.1.full && e.1.rseq == r.rseq && e.1.part == i)).map Prod.fst
    if (List.range r.parts).all (fun i => (part i).isSome) then
      some { r with revoked := (List.range r.parts).flatMap (fun i => ((part i).map (·.revoked)).getD []) }
    else none

/-- The waiting records of a slice that can be applied: the next number, or a full record. -/
def State.applyWaiting (s : State) (n : Nat) : Nat → State
  | 0 => s
  | fuel + 1 =>
    let x := s.repl n
    match x.waiting.find? (fun e =>
        (e.1.rseq == x.rseq + 1 || (e.1.full && decide (x.rseq < e.1.rseq))) && (x.whole e.1).isSome) with
    | none => s
    | some (r, _, src) => State.applyWaiting (s.applyRecord ((x.whole r).getD r) src) n fuel

/-- Event 2: records in RSEQ order (R363). -/
def State.applyRecords (s : State) : State :=
  (s.net.slices.map Prod.fst).foldl (fun t n => t.applyWaiting n (t.repl n).waiting.length) s

/-- The ACKs of the records applied at this boundary. -/
def State.sendAcks (s : State) : State :=
  (s.net.slices.map Prod.fst).foldl (fun t n =>
    let due := (t.repl n).toAck
    due.foldl (fun u e => u.sendMsg e.2 false (.domainAck n e.1)) (t.modRepl n (fun x => { x with toAck := [] }))) s

/-- DOMAIN_ACK received: records are applied in order, so it acknowledges those before it too (assumption 34). -/
def State.gotAck (s : State) (src n rseq : Nat) : State :=
  let t := s.modRepl n (fun x => { x with
    sent := (x.sent.map (fun (e : SentRec) => if e.record.rseq ≤ rseq then { e with pend := e.pend.filter (fun m => m != src) } else e)).filter
      (fun e => e.pend != []) })
  if n < 1024 then t.showPend n else s

/-- The home resends a record every 1,024 frames to the members that have not acknowledged it (R363). -/
def State.resendSlice (s : State) (n : Nat) : State :=
  let due := (s.repl n).sent.filter (fun e => decide (e.frame + 1024 ≤ s.frameNo))
  let t := due.foldl (fun u e => e.pend.foldl (fun v m => v.sendMsg m false (.domain e.record)) u) s
  if due = [] then s
  else t.modRepl n (fun x => { x with sent := x.sent.map (fun e =>
    if e.frame + 1024 ≤ s.frameNo then { e with frame := s.frameNo } else e) })

def State.resendAll (s : State) : State :=
  if s.netRuns then (s.net.slices.map Prod.fst).foldl (fun t n => t.resendSlice n) s else s

/-- A gap unfilled for 4,096 frames: SYNC to the home (R363). -/
def State.gapSync (s : State) (n : Nat) : State :=
  if s.netRuns ∧ (s.repl n).waiting.any (fun e => decide (e.2.1 + 4096 ≤ s.frameNo)) then
    (s.sendMsg (if s.on R.NET_SLICE_REPL n then s.get R.NET_SLICE_HOME n else ((s.repl n).waiting.map (fun e => e.2.2)).headD 0)
      false (.sync [n])).modRepl n (fun x => { x with waiting := x.waiting.map (fun e => (e.1, s.frameNo, e.2.2)) })
  else s

/-- SYNC received: full records of the slices named, of all when none is named (assumption 35). -/
def State.gotSync (s : State) (src : Nat) (ns : List Nat) : State :=
  (s.replicated.filter (fun n => s.isHome n && (ns.isEmpty || ns.contains n))).foldl (fun t n => t.sendFull n src) s

/-- The digest of LEASE over the slices that member `m` homes, as this member knows them (R364). -/
def State.leaseDigest (s : State) (m : Nat) : Bytes :=
  hashOf 0x02 32 ((s.homedAt m).flatMap (fun n => toLE 2 n ++ toLE 8 (s.repl n).rseq))

/-- LEASE received (R364). -/
def State.gotLease (s : State) (src frame : Nat) (digest : Bytes) : State :=
  if digest = s.leaseDigest src then
    (s.homedAt src).foldl (fun t n =>
      let u := t.modRepl n (fun x => { x with lease := frame + 16384 })
      if u.frameNo < frame + 16384 then (u.set R.NET_SLICE_LEASE_OK n 1).setLapsed n false else u) s
  else s.sendMsg src false (.sync [])

/-- A lease not renewed runs out (R364): check 2 refuses from then on; the registers of the Net tell of it while its units run. -/
def State.lapse (s : State) (n : Nat) : State :=
  if s.on R.NET_STS_MEMBER ∧ s.on R.NET_SLICE_REPL n ∧ !s.isHome n ∧ s.on R.NET_SLICE_LEASE_OK n ∧ (s.repl n).lease ≤ s.frameNo then
    let t := s.setLapsed n true
    if s.netRuns then (t.set R.NET_SLICE_LEASE_OK n 0).netErr R.NET_ERR_STS_LEASE 0 (s.get R.NET_SLICE_HOME n) n else t
  else s

/-- Every frame divisible by 4,096: LEASE of each home member (R364). -/
def State.sendLease (s : State) : State :=
  let me := s.get R.NET_STS_ID
  if s.on R.NET_STS_MEMBER ∧ s.frameNo % 4096 = 0 ∧ s.homedAt me ≠ [] then s.broadcast (.lease s.frameNo (s.leaseDigest me))
  else s

/-! ## The witness (R365) -/

/-- The member with the next higher ID, wrapping. -/
def State.witnessOf (s : State) : Option Nat :=
  let me := s.get R.NET_STS_ID
  ((List.range 4095).map (fun i => (me + 1 + i) % 4096)).find? (fun m => s.get R.NET_MEMBER_STATE m == 1)

/-- Every frame divisible by 65,536: WITNESS with the SEQ of the last audit record and the chained digest of the audit records since the
last WITNESS, wherever they are stored (R365). -/
def State.sendWitness (s : State) : State :=
  if s.on R.NET_STS_MEMBER ∧ s.frameNo % 65536 = 0 then
    let recs := s.fb.toWitness
    let d := hashOf 0x03 48 (s.net.digest ++ recs.flatMap FbRec.bytes)
    let seq := ((recs.getLast?).map (·.seq)).getD s.net.digestSeq
    let t := { s with net := { s.net with digest := d, digestSeq := seq }, fb := { s.fb with toWitness := [] } }
    match s.witnessOf with
    | some m => t.sendMsg m false (.witness seq d)
    | none => t
  else s

/-- WITNESS received. -/
def State.gotWitness (s : State) (src seq : Nat) (digest : Bytes) : State :=
  s.record 0x0804 2 devScope (3 + src * 256) seq (fieldLE (fitTo 16 digest) 0 8) (fieldLE (fitTo 16 digest) 8 8)

/-! ## The member table (R355, R359, R366) -/

/-- A member's row set; a retired one leaves the lists of those that owe an ACK, and its links fall to key ID 0. -/
def State.putMember (s : State) (r : MemberRow) : State :=
  let t := (s.set R.NET_MEMBER_STATE r.member r.state).set R.NET_MEMBER_DEV r.member r.dev
  if r.state = 2 then
    let u := (netPorts.filter (fun p => t.portState p == 3 && t.get R.NET_PORT_STS_PEER p == r.member)).foldl (fun v p => v.unkey p) t
    (u.net.slices.map Prod.fst).foldl (fun v n => v.gotAck r.member n (v.repl n).rseq) u
  else t

/-- TABLE received: the table and the benchmark; a home sends a new member every slice it homes (R359). -/
def State.gotTable (s : State) (bench : Nat) (rows : List MemberRow) : State :=
  let me := s.get R.NET_STS_ID
  let new := (rows.filter (fun r => r.state == 1 && r.member != me && r.member ≤ 0xFFF && s.get R.NET_MEMBER_STATE r.member != 1)).map
    (·.member)
  let t := (rows.filter (fun r => decide (r.member ≤ 0xFFF))).foldl (fun u r => u.putMember r) s
  let u := (({ t with net := { t.net with bench := bench } }).put1 R.NET_STS_BENCH (bench == me)).paths
  let v := netPorts.foldl (fun w p => w.keyLink p) u
  new.foldl (fun x m => x.sendSlices m) v

/-- LEAVE received: the benchmark marks the ID RETIRED (R366). -/
def State.gotLeave (s : State) (src : Nat) : State :=
  if s.on R.NET_STS_BENCH then
    (s.putMember { member := src, state := 2, dev := s.get R.NET_MEMBER_DEV src }).paths
  else s

/-! ## Frame alignment (R360, R361) -/

/-- Every frame number that the device holds rises by `d` (R361). Records already written keep theirs. -/
def State.shiftFrames (s : State) (d : Nat) : State :=
  let t := { s with
    frameNo := s.frameNo + d
    trv := { s.trv with
      cmds := s.trv.cmds.map (fun c => { c with
        obs := c.obs + d
        release := if c.release = 0 then 0 else c.release + d
        f := if c.isHeld then c.f else c.f + d, base := if c.isHeld then c.base else c.base + d
        due := if c.isHeld then c.due else c.due + d, promise := if c.isHeld then c.promise else c.promise + d })
      cal := s.trv.cal.map (fun e => (e.1 + d * 16384, e.2))
      pool := s.trv.pool.map (fun e => (e.1 + d * 16, e.2))
      doseAdm := s.trv.doseAdm.map (fun e => (e.1 + d, e.2))
      doseBase := s.trv.doseBase.map (fun e => (e.1 + d, e.2))
      doseBud := s.trv.doseBud.map (fun e => (e.1 + d, e.2))
      calEnd := s.trv.calEnd + d
      seenCal := s.trv.seenCal.map (fun e => (e.1 + d * 16384, e.2))
      adm := s.trv.adm.map (fun e => (e.1 + d * 16, e.2))
      seenAdm := s.trv.seenAdm.map (fun e => (e.1 + d * 16, e.2))
      seenDose := s.trv.seenDose.map (fun e => (e.1 + d, e.2)) }
    hif := { s.hif with slices := s.hif.slices.map (fun e => (e.1, { e.2 with
      until2 := e.2.until2.map (· + d)
      cont := e.2.cont.map (fun c => (c.1, c.2.1, c.2.2.1, c.2.2.2 + d)) })) }
    ks := { s.ks with
      accums := s.ks.accums.map (fun a => { a with frame := a.frame + d })
      nodesAt := s.ks.nodesAt + d
      domains := s.ks.domains.map (fun e => (e.1, { e.2 with dying := e.2.dying.map (fun y => { y with frame := y.frame + d }) })) }
    sessions := s.sessions.map (fun e => (e.1, { e.2 with start := e.2.start + d }))
    lc := { s.lc with
      chal := s.lc.chal.map (fun c => (c.1 + d, c.2))
      cmd := s.lc.cmd.map (fun c => { c with start := c.start + d }) }
    fb := { s.fb with frozenAt := s.fb.frozenAt.map (· + d) }
    rng := { s.rng with
      fails := s.rng.fails.map (· + d)
      holdReq := s.rng.holdReq.map (fun h => (h.1 + d, h.2))
      tapStop := s.rng.tapStop.map (· + d)
      cells := s.rng.cells.map (fun c => match c with | .stopped r => .stopped (r + d) | x => x) }
    dose := { s.dose with
      brownAt := s.dose.brownAt + d
      roundAt := if s.dose.roundAt = 0 then 0 else s.dose.roundAt + d }
    tmp := { s.tmp with respEnd := if s.tmp.respEnd = 0 then 0 else s.tmp.respEnd + d }
    upd := { s.upd with start := s.upd.start + d, passed := s.upd.passed.map (· + d) }
    fab := { s.fab with wcb := s.fab.wcb.map (fun e => { e with frame := e.frame + d }) }
    net := { s.net with
      request := s.net.request.map (fun q => (q.1, q.2.1 + d, q.2.2))
      jobs := s.net.jobs.map (fun l => l.map (fun j => { j with due := if j.due = 0 then 0 else j.due + d }))
      ports := s.net.ports.map (fun e => (e.1, { e.2 with tagFails := e.2.tagFails.map (· + d), downAt := e.2.downAt + d }))
      slices := s.net.slices.map (fun e => (e.1, { e.2 with
        sent := e.2.sent.map (fun x => { x with frame := x.frame + d })
        waiting := e.2.waiting.map (fun x => (x.1, x.2.1 + d, x.2.2))
        lease := if e.2.lease = 0 then 0 else e.2.lease + d })) } }
  if t.get R.GLB_CFG_FRAME_FRAME = 0 then t else t.bump R.GLB_CFG_FRAME_FRAME d

/-- The frame step that a mark, a TIME message or CREATE has asked for: the boundary to come takes the number asked
for, or its own where that is higher (R361). -/
def State.stepFrames (s : State) : State :=
  match s.net.stepTo with
  | none => s
  | some n =>
    let d := n - (s.frameNo + 1)
    (((({ s with net := { s.net with stepTo := none, aligning := false } }).shiftFrames d).set R.NET_STS_ALIGNED 0 1)).record
      0x0804 2 devScope 2 d

/-- The number that the Net gives the boundary to come: a member in ALIGNING will step to it, an aligned one may have
slipped (R361). -/
def State.netNumber (s : State) (n : Nat) : State :=
  if s.net.aligning then { s with net := { s.net with stepTo := some n } }
  else if s.on R.NET_STS_ALIGNED ∧ !s.on R.NET_STS_BENCH ∧ n + 2 ≤ s.frameNo + 1 then
    (s.set R.NET_STS_ALIGNED 0 0).netErr R.NET_ERR_STS_SLIP 0 0 0
  else s

/-- The port that offers the lowest hop count, shown in NET_STS (R360). -/
def State.markChoice (s : State) : State :=
  let best := s.upPorts.foldl (fun (b : Option (Nat × Nat)) p =>
    match (s.port p).markHops, b with
    | none, _ => b
    | some h, none => some (p, h)
    | some h, some (_, g) => if h < g then some (p, h) else b) none
  match best with
  | some (p, h) => (s.set R.NET_STS_MARK_PORT 0 p).set R.NET_STS_MARK_HOPS 0 h
  | none => s

/-- MARK received (R360, R361); a replayed one is never used for timing (R352). -/
def State.tookMark (s : State) (p : Nat) (m : MarkFlit) : State :=
  if s.netUp p ∧ !s.netSilent ∧ m.first then
    let t : State := { s with net := { s.net with markless := 0 } }
    let u := (t.modPort p (fun x => { x with markHops := some (m.hops % 256) })).markChoice
    if u.get R.NET_STS_MARK_PORT = p ∨ u.net.aligning then u.netNumber (m.frame + m.elapsed) else u
  else s
def State.gotMark (s : State) (p : Nat) (m : MarkFlit) : State := s.withFlit p (fun t => t.tookMark p m)

/-- Marks sent after a boundary (R360); a member in ALIGNING or in holdover sends none. -/
def State.sendMarks (s : State) : State :=
  if !s.on R.NET_STS_MEMBER ∨ s.netSilent ∨ s.net.aligning ∨ s.on R.CLK_STS_HOLDOVER then s
  else if s.on R.NET_STS_BENCH then s.upPorts.foldl (fun t p => t.sendMark p s.frameNo 0) s
  else if s.on R.NET_STS_ALIGNED ∧ s.get R.CLK_TRIM_CFG_SRC = 3 then
    match (s.port (s.get R.NET_STS_MARK_PORT)).markHops with
    | some h => (s.upPorts.filter (fun p => p != s.get R.NET_STS_MARK_PORT)).foldl (fun t p => t.sendMark p s.frameNo (h + 1)) s
    | none => s
  else s

/-- The marks are lost when none in first transmission arrives for 16 consecutive frames (R333, R360). -/
def State.marksLost (s : State) : State :=
  if !s.on R.NET_STS_MEMBER ∨ s.get R.CLK_TRIM_CFG_SRC ≠ 3 then s
  else
    let t := { s with net := { s.net with markless := s.net.markless + 1 } }
    if 17 ≤ t.net.markless then t.refLost else t

/-- TIME received by a tunnelled member (R361). -/
def State.gotTime (s : State) (frame elapsed : Nat) : State :=
  if s.on R.NET_STS_TUNNELLED then s.netNumber (frame + elapsed) else s

/-- The benchmark broadcasts TIME after each PPS edge (R361). -/
def State.sendTime (s : State) : State :=
  if s.on R.NET_STS_BENCH ∧ s.get R.CLK_TRIM_CFG_SRC = 2 then s.broadcast (.time s.frameNo) else s

/-- The scopes of a debug response open, and the links of the Net fall to key ID 0 (R250, R251, R367). -/
def State.debugOpenNet (s : State) : State :=
  if s.lc.toOpen.isSome then netPorts.foldl (fun t p => t.unkey p) s.debugOpen else s

/-! ## Flits as they arrive (R350 to R352) -/

/-- What a flit that passes carries, its payload in clear: a control flit takes effect; of a message flit its bytes are the business of the
message (R354). Under key ID 0 a MARK, a ROUTE and a message flit are discarded (R351). A MARK has been under way for the delay of the
link and the flit times that it names, and one that a NAK has asked for is a replay (R352, R361; assumption 88). -/
def State.takeFlit (s : State) (p : Nat) (replayed : Bool) (b : Bytes) : State :=
  if fieldLE b 0 1 = 1 then
    match fieldLE b 1 1 with
    | 1 => s.tookAck p (fieldLE b 2 6)
    | 2 => s.tookNak p (fieldLE b 2 6)
    | 3 => s.tookMark p {
        frame := fieldLE b 2 8, hops := fieldLE b 10 1, flits := fieldLE b 11 1, first := !replayed
        elapsed := 1 + ((s.port p).delay + fieldLE b 11 1) / 4375 }
    | 4 => s.tookSwitch p (fieldLE b 2 1) (fieldLE b 3 6)
    | 5 => s.tookHello p { member := fieldLE b 2 2, nonce := cut b 4 16, netId := cut b 20 8 }
    | 6 => s.tookRoute p (fieldLE b 2 2) (fieldLE b 4 1)
    | _ => s
  else s

/-- A flit of 32 bytes arrives, as the one expected or as another (R350 to R352). -/
def State.flitArrives (s : State) (p : Nat) (flit : Bytes) (inOrder : Bool) : State :=
  if p < 4 ∧ s.portLive p then
    if !inOrder then s.flitMissed p
    else
      let t := s.idleIn p
      let x := t.port p
      match flitFault (x.rxKey x.rxSeq) x.rxSeq flit with
      | some tag => t.flitError p tag
      | none => (t.nextFlits p 1).takeFlit p x.await (flitMix (x.rxKey x.rxSeq) x.rxSeq (flit.take 28))
  else s

/-! ## The commands of the table -/

def execFlitError (port : Nat) (flit : FlitIn) (s : State) : Host.Outcome State Fault Refusal :=
  ok (s.flitArrives port flit.bytes flit.inOrder)
def execNetMark (port : Nat) (mark : MarkFlit) (s : State) : Host.Outcome State Fault Refusal := ok (s.gotMark port mark)
def execNetTable (h : NetHeader) (bench : Nat) (rows : List MemberRow) (s : State) : Host.Outcome State Fault Refusal :=
  ok (s.takeMessage h (.table bench rows) (fun t => t.gotTable bench rows))
def execNetTime (h : NetHeader) (frame elapsed : Nat) (s : State) : Host.Outcome State Fault Refusal :=
  ok (s.takeMessage h (.time frame) (fun t => t.gotTime frame elapsed))
def execNetDomain (h : NetHeader) (record : DomainRec) (s : State) : Host.Outcome State Fault Refusal :=
  ok (s.takeMessage h (.domain record) (fun t => t.gotDomain h.src record))
def execNetDomainAck (h : NetHeader) (slice rseq : Nat) (s : State) : Host.Outcome State Fault Refusal :=
  ok (s.takeMessage h (.domainAck slice rseq) (fun t => t.gotAck h.src slice rseq))
def execNetLease (h : NetHeader) (frame : Nat) (digest : Bytes) (s : State) : Host.Outcome State Fault Refusal :=
  ok (s.takeMessage h (.lease frame digest) (fun t => t.gotLease h.src frame digest))
def execNetSync (h : NetHeader) (slices : List Nat) (s : State) : Host.Outcome State Fault Refusal :=
  ok (s.takeMessage h (.sync slices) (fun t => t.gotSync h.src slices))
def execNetWitness (h : NetHeader) (seq : Nat) (digest : Bytes) (s : State) : Host.Outcome State Fault Refusal :=
  ok (s.takeMessage h (.witness seq digest) (fun t => t.gotWitness h.src seq digest))
def execJoinDone (h : NetHeader) (s : State) : Host.Outcome State Fault Refusal := ok (s.takeMessage h .joinDone id)
def execLeaveMessage (h : NetHeader) (s : State) : Host.Outcome State Fault Refusal :=
  ok (s.takeMessage h .leave (fun t => t.gotLeave h.src))
def execFrameStep (s : State) : Host.Outcome State Fault Refusal := ok (s.mark .frameStep s.net.stepTo.isSome)
def execLeaseLapse (slice : Nat) (s : State) : Host.Outcome State Fault Refusal := ok (s.lapse slice)
def execDomainResend (s : State) : Host.Outcome State Fault Refusal := ok s.resendAll
def execGapTimeout (slice : Nat) (s : State) : Host.Outcome State Fault Refusal := ok (s.gapSync slice)
def execTrimIntervalEnd (interval : TrimCount) (s : State) : Host.Outcome State Fault Refusal :=
  ok (s.trimInterval interval.count interval.phase).sendTime
def execDebugOpen (s : State) : Host.Outcome State Fault Refusal := ok (s.mark .debugOpen s.lc.toOpen.isSome)

end Sys2Proof.Machine
end

