-- ==== Sys2Proof/Machine/NetAdmin.lean ====
section
/-! DEFINITION. NET_CMD (R348, R357 to R359, R366, R368): creating a Net, joining it, leaving it, and the Net at a frame
boundary. -/

namespace Sys2Proof.Machine

/-- NET_CMD_STS after a command that was rejected, or that took effect with 0. -/
def State.netReply (s : State) (e : Nat) : State := (s.set R.NET_CMD_STS_BUSY 0 0).set R.NET_CMD_STS_ERR 0 e

/-- In SERVICE, with Datum, outside a Net (R348, R358). -/
def State.mayJoin (s : State) : Bool :=
  s.get R.LC_STATE_CODE == 3 && s.on R.KS_STS_DATUM && !s.on R.NET_STS_MEMBER

/-- The request of this device is outstanding: 65,536 frames (R358). -/
def State.requested (s : State) : Bool :=
  match s.net.request with | some (_, f, _, _) => decide (s.frameNo < f + 65536) | none => false

/-! ## Join records (R357) -/

/-- The fields that request and admit share: MAGIC, KIND, LCS, DEVICE_ID, FW_DIGEST, NONCE, FRAME_NO and the identity
public keys, bytes 0 to 2,791. -/
def State.joinHead (s : State) (kind : Nat) (nonce : Bytes) : Bytes :=
  [0x4B#8, 0x56#8, 0x4E#8, 0x4A#8] ++ toLE 1 kind ++ toLE 1 (s.get R.LC_STATE_CODE) ++ fill 2 0 ++ s.deviceId ++ s.fwDigest
    ++ fitTo 16 nonce ++ toLE 8 s.frameNo ++ fitTo 97 s.ks.idEcPub ++ fill 7 0 ++ fitTo 2592 s.ks.idPqPub

/-- SIG_EC and SIG_PQ over the signed part of a record, with the 104 bytes of class 0x2B (R165, R175, R357). -/
def State.joinSign (s : State) (m draw : Bytes) : Bytes × Bytes :=
  (fitTo 96 ((ecdsaSign 0x41 s.ks.idEc draw (hashOf 0x03 48 m)).getD []),
   fitTo 4627 (Config.mldsaSign 0x5A s.ks.idPq false (ascii "KVNETJ") m (draw.drop 72)).2)

/-- SIG_EC, and SIG_PQ, verifies under the key the record carries. -/
def joinEc (m b : Bytes) (ecAt : Nat) : Bool := p384Verify (cut b 96 97) m (cut b ecAt 96)
def joinPq (m b : Bytes) (pqAt : Nat) : Bool :=
  Config.mldsaVerify 0x5A (cut b 200 2592) false (ascii "KVNETJ") m (cut b pqAt 4627)

/-- The bytes not listed that both records have are zero, MAGIC and KIND hold. -/
def joinShape (b : Bytes) (kind : Nat) : Bool :=
  cut b 0 4 == [0x4B#8, 0x56#8, 0x4E#8, 0x4A#8] && fieldLE b 4 1 == kind && zeroAt b 6 2 && zeroAt b 193 7 && zeroAt b 2889 7

/-- TK (R357). -/
def joinKey (z k reqNonce admNonce : Bytes) : Bytes :=
  (hashOf 0x03 48 (ascii "KVNT" ++ z ++ k ++ reqNonce ++ admNonce)).take 32

/-! ## The commands at the write (R348, R358, R366, R368) -/

/-- ERR of a NET_CMD at the write; what a record decides is checked later. -/
def State.netCheck (s : State) (c : NetCmd) : Nat :=
  let member := s.on R.NET_STS_MEMBER
  let me := s.get R.NET_STS_ID
  let isMember := s.get R.NET_MEMBER_STATE c.member == 1
  let bench := s.on R.NET_STS_BENCH
  firstErr ((decide (c.op = 0 ∨ 9 < c.op), 1) :: (c.op != 9 && !s.holds devSession roleSO, 2) :: (match c.op with
    | 1 => [(!s.mayJoin, 3)]
    | 2 => [(!s.mayJoin, 3)]
    | 3 => [(!member, 3), (!bench, 7)]
    | 4 => [(member || !s.requested, 3)]
    | 5 => [(!member, 3), (bench || s.homedAt me != [], 7)]
    | 6 => [(!member, 3), (!isMember, 5), (!bench, 7)]
    | 7 => [(!member, 3), (!isMember, 5), (!bench, 7)]
    | 8 => [(!member, 3), (!s.isHome c.arg, 8)]
    | 9 => [(decide (4 ≤ c.arg) || s.portState c.arg != 3, 3)]
    | _ => []))

/-- The layout of an admit record, and of a join request, holds (R357, R358). -/
def admitShape (b : Bytes) : Bool :=
  joinShape b 2 && zeroAt b 4466 6 && zeroAt b 4700 4 && zeroAt b 9427 6957 && decide (fieldLE b 4464 2 ≤ 0xFFF) && goodP384 (cut b 2792 97)
def requestShape (b : Bytes) : Bool :=
  joinShape b 1 && fieldLE b 5 1 == 3 && zeroAt b 9187 7197 && goodP384 (cut b 2792 97) && Config.mlkemCoeffOk 0x52 (cut b 2896 1568)

/-- What an admit record decides for the joiner (R358). -/
def State.acceptCheck (s : State) (r : Option (Bytes × Bytes)) : Nat × Bytes :=
  match r, s.net.request with
  | some (b0, x0), some (nonce, _, scalar, dk) =>
    let b := fitTo 16384 b0
    let x := fitTo 64 x0
    let z := fitTo 48 (Config.ecdh 0x41 scalar (cut b 2792 97) s.net.drawn)
    let ct := cut b 2896 1568
    let k := fitTo 32 (Config.mlkemDecaps 0x52 dk ct (Config.mlkemDecrypt 0x52 dk ct))
    let (nrk, tag) := gcmDec 0x12 (joinKey z k nonce (cut b 72 16)) (cut b 4640 12) (b.take 4640) (cut b 4652 32)
    let map := fieldLE b 4512 128
    (firstErr
      [(!admitShape b || cut b 4496 16 != nonce || !joinEc (b.take 4704) b 4704 || !joinPq (b.take 4704) b 4800 || tag != cut b 4684 16, 4),
       (cut b 8 16 != x.take 16 || cut b 24 48 != cut x 16 48, 6),
       ((List.range 1024).any (fun n => bit map n && (s.domain n).present), 9)], nrk)
  | none, _ => (0xA, [])
  | _, none => (3, [])

/-- A write of NET_CMD: rejected, or waiting for its boundary or its draw. -/
def State.netCommand (s : State) (c : NetCmd) : State :=
  if s.on R.NET_CMD_STS_BUSY then s
  else
    let e := s.netCheck c
    if e ≠ 0 then (let t := s.netReply e; if e = 2 then t.writeDropped 0x130008 else t)
    else
      let t := (({ s with net := { s.net with cmd := some c, jobs := none, drawn := [] } }).set R.NET_CMD_STS_BUSY 0 1).set
        R.NET_CMD_STS_ERR 0 0
      if c.op = 1 then t.askDraw 64 .netCreate else t

/-! ## Their effects at the boundary -/

/-- DEVICE_ID bytes 0 to 5 as a number (NET_MEMBER.DEV). -/
def devOf (id : Bytes) : Nat := fieldLE id 0 6

/-- This device is a member with this ID: NRK is sealed in the configuration and data store, BOOT has been drawn (R347, R348, R354,
R359). -/
def State.becomeMember (s : State) (id : Nat) (netId nrk boot : Bytes) (bench : Bool) : State :=
  let u0 := s.sealItem 2 s.srk (fitTo 32 nrk)
  let u := { u0 with net := { u0.net with
    nrk := fitTo 32 nrk, netId := fitTo 16 netId, boot := fitTo 16 boot, counter := 0, request := none, cmd := none, jobs := none
    drawn := [] } }
  (((((u.set R.NET_STS_MEMBER 0 1).put1 R.NET_STS_BENCH bench).set R.NET_STS_ID 0 id).set R.NET_MEMBER_STATE id 1).set
    R.NET_MEMBER_DEV id (devOf u.deviceId))

/-- CREATE at the boundary that serves its draw of NRK, NET_ID and BOOT (R348); the step by 2^56 has been taken (R361). -/
def State.netCreated (s : State) (draw : Bytes) : State :=
  match s.net.cmd with
  | some c =>
    if c.op = 1 then
      let t := s.becomeMember 0 (cut draw 32 16) (draw.take 32) (cut draw 48 16) true
      (({ t with net := { t.net with bench := 0, aligning := false } }).set R.NET_STS_ALIGNED 0 1).paths.netReply 0
    else s
  | none => s

/-- A join command ends with this ERR, its commands and its draws with it; a failure keeps nothing (R358). -/
def State.joinEnds (s : State) (e : Nat) : State :=
  ({ s with net := { s.net with cmd := none, jobs := none, drawn := [] } }).netReply e

/-- REQUEST: the join request is written, and stays outstanding (R358); the bytes that its commands drew are the nonce, the ephemeral keys
and what the signatures take (assumption 76). -/
def State.writeRequest (s : State) : State :=
  let draw := s.net.drawn
  let nonce := draw.take 16
  let ec := Config.keyPair 0x41 0 (cut draw 16 48)
  let kem := Config.keyPair 0x52 0 (cut draw 64 64)
  let m := s.joinHead 1 nonce ++ fitTo 97 ec.2 ++ fill 7 0 ++ fitTo 1568 kem.2
  let (sigE, sigP) := s.joinSign m (draw.drop 128)
  let t := { s with net := { s.net with request := some (nonce, s.frameNo, fitTo 48 ec.1, kem.1) } }
  (t.postAdmin (t.get R.NET_CMD_ADDR_ADDR * 4096) (fitTo 16384 (m ++ sigE ++ sigP))).joinEnds 0

/-- The ID that ADMIT gives: the one named, or the lowest FREE one (R358). -/
def State.admitId (s : State) (c : NetCmd) : Option Nat :=
  if c.auto then (List.range 4096).find? (fun m => s.get R.NET_MEMBER_STATE m == 0)
  else if s.get R.NET_MEMBER_STATE c.member = 0 then some c.member else none

/-- ERR of ADMIT once the records have been read (R358). -/
def State.admitCheck (s : State) (c : NetCmd) : Nat :=
  match c.records with
  | none => 0xA
  | some (b0, x0) =>
    let b := fitTo 16384 b0
    let x := fitTo 64 x0
    firstErr
      [(!requestShape b || !joinEc (b.take 4464) b 4464 || !joinPq (b.take 4464) b 4560, 4),
       ((s.admitId c).isNone, 5), (cut b 8 16 != x.take 16 || cut b 24 48 != cut x 16 48, 6)]

/-- ADMIT: the admit is written, the ID marked MEMBER, TABLE broadcast, and the new member sent what this one homes (R358, R359). -/
def State.writeAdmit (s : State) (c : NetCmd) : State :=
  let e := s.admitCheck c
  match s.admitId c, c.records with
  | some id, some (b0, _) =>
    if e ≠ 0 then s.joinEnds e
    else
      let b := fitTo 16384 b0
      let draw := s.net.drawn
      let blind := draw.take 32
      let ec := Config.keyPair 0x41 0 (cut draw 32 48)
      let (ct, k) := Config.mlkemEncaps 0x52 (cut b 2896 1568) (cut draw 80 32)
      let nonce := cut draw 112 16
      let iv := cut draw 128 12
      let z := fitTo 48 (Config.ecdh 0x41 (fitTo 48 ec.1) (cut b 2792 97) blind)
      let map := (List.range 128).flatMap (fun i =>
        toLE 1 (maskOf (fun j => s.on R.NET_SLICE_REPL (8 * i + j)) 8))
      let head := s.joinHead 2 nonce ++ fitTo 97 ec.2 ++ fill 7 0 ++ fitTo 1568 ct ++ toLE 2 id ++ fill 6 0
        ++ toLE 8 s.frameNo ++ fitTo 16 s.net.netId ++ cut b 72 16 ++ map
      let (enc, tag) := gcmEnc 0x12 (joinKey z (fitTo 32 k) (cut b 72 16) nonce) iv head s.net.nrk
      let signed := head ++ iv ++ enc ++ tag ++ fill 4 0
      let (sigE, sigP) := s.joinSign signed (draw.drop 140)
      let t := s.postAdmin (s.get R.NET_CMD_ADDR_ADDR * 4096 + 0x8000) (fitTo 16384 (signed ++ sigE ++ sigP))
      let u := (t.putMember { member := id, state := 1, dev := devOf (cut b 8 16) }).paths
      ((u.broadcast u.tableBody).sendSlices id).joinEnds 0
  | _, _ => s.joinEnds (if e = 0 then 5 else e)

/-! ## The join commands as commands of Traverse (R358) -/

/-- The commands of a join operation, one after the other: class, random bytes drawn, lattice eighths of ML-KEM (R173, assumption 76). -/
def joinJobs (op : Nat) : List NetJob :=
  match op with
  | 2 => [{ cls := 0x30, rnd := 16 + 48 + 64, lu := 12 }, { cls := 0x2B, rnd := 104 }]
  | 3 => [{ cls := 0x26 }, { cls := 0x33 }, { cls := 0x29, rnd := 32 + 48 }, { cls := 0x30, rnd := 32, lu := 12 },
      { cls := 0x2B, rnd := 16 + 12 + 104 }]
  | _ => [{ cls := 0x26 }, { cls := 0x33 }, { cls := 0x29, rnd := 32 }, { cls := 0x30, lu := 16 }]

/-- What such a command is priced at: the ceiling of its class, with its own lattice eighths and random bytes. -/
def NetJob.cost (j : NetJob) : Cost :=
  let c := ceilingOf j.cls
  { c with rnd := j.rnd, lu := if j.lu = 0 then c.lu else j.lu }

/-- Event 4: Traverse admits the command of a join operation that is next, or leaves it for the next boundary (R358). -/
def State.netAdmit (s : State) : State :=
  match s.net.jobs with
  | some (j :: rest) =>
    match classInfo j.cls with
    | none => s
    | some ci =>
      if j.due ≠ 0 ∨ !s.netRuns ∨ !s.inService ∨ s.on R.TRV_STS_FATAL ∨ s.on R.TRV_STS_BROWNOUT
          ∨ (s.on R.TRV_STS_ENTROPY ∧ j.rnd ≠ 0) then s
      else
        match s.admFit j.cost ci.span ci.dmax s.frameNo with
        | none => s
        | some d =>
          let t := s.bookAdm j.cost ci.span (s.frameNo + d)
          { t with net := { t.net with jobs := some ({ j with due := s.frameNo + d + ci.span + 1 } :: rest) } }
  | _ => s

/-- ERR of a join command before its commands run: its records could be read, and hold their layout. -/
def joinEarly (c : NetCmd) : Nat :=
  if c.op = 2 then 0
  else match c.records with
    | none => 0xA
    | some (b, _) => if (if c.op = 3 then requestShape (fitTo 16384 b) else admitShape (fitTo 16384 b)) then 0 else 4

/-- ERR once the command of class `cls` has completed: a verification may fail. -/
def joinVerdict (c : NetCmd) (cls : Nat) : Nat :=
  let b := fitTo 16384 ((c.records.map Prod.fst).getD [])
  let n := if c.op = 3 then 4464 else 4704
  if (cls = 0x26 ∧ !joinEc (b.take n) b n) ∨ (cls = 0x33 ∧ !joinPq (b.take n) b (n + 96)) then 4 else 0

/-- The last command of a join operation has completed: REQUEST and ADMIT write their record; an ACCEPT that passes asks for BOOT and
takes effect at the boundary that serves it (R358, R359). -/
def State.joinFinish (s : State) (c : NetCmd) : State :=
  if c.op = 2 then s.writeRequest
  else if c.op = 3 then s.writeAdmit c
  else
    let (e, nrk) := s.acceptCheck c.records
    if e ≠ 0 then s.joinEnds e
    else
      let b := fitTo 16384 ((c.records.map Prod.fst).getD [])
      ({ s with net := { s.net with
        joining := some (fieldLE b 4464 2 % 4096, cut b 4480 16, nrk, devOf (cut b 8 16)) } }).askDraw 16 .netJoin

/-- A join command at a boundary: it begins, or the command in flight has completed with its draws (R358). -/
def State.joinStep (s : State) (c : NetCmd) : State :=
  match s.net.jobs with
  | none => if joinEarly c ≠ 0 then s.joinEnds (joinEarly c) else { s with net := { s.net with jobs := some (joinJobs c.op), drawn := [] } }
  | some [] => s
  | some (j :: rest) =>
    if j.due = 0 ∨ s.frameNo < j.due then s
    else
      let (b, t) := s.drawReserve j.rnd
      let u : State := { t with net := { t.net with jobs := some rest, drawn := t.net.drawn ++ b } }
      if joinVerdict c j.cls ≠ 0 then u.joinEnds (joinVerdict c j.cls)
      else if rest = [] then u.joinFinish c
      else u

/-- An accepted join, with BOOT (R359): the device is a member, keys its links, sends JOIN_DONE to the benchmark, and aligns. The ID of
the benchmark, which the admit does not carry, is a free value (assumption 32). -/
def State.joinNow (s : State) (boot : Bytes) : State :=
  match s.net.joining with
  | none => s.joinEnds 3
  | some (id, netId, nrk, dev) =>
    let (v, s0) := s.fresh
    let b := (v % 4095 + id + 1) % 4096
    let t := s0.becomeMember id netId nrk boot false
    let u := (({ t with net := { t.net with joining := none, bench := b, aligning := true, stepTo := none } }).putMember
      { member := b, state := 1, dev := dev }).set R.NET_STS_ALIGNED 0 0
    let w := (netPorts.filter (fun p => u.portState p == 2)).foldl (fun x p => x.sendHello p) u
    ((netPorts.foldl (fun x p => x.keyLink p) w.paths).sendMsg b false .joinDone).netReply 0

/-- The record of a membership command (R366). -/
def State.memberRecord (s : State) (op : Nat) : State := s.record 0x0804 2 devScope 4 op

/-- LEAVE (R366): the message goes out, then the Net and every replicated domain are erased. -/
def State.leaveNet (s : State) : State :=
  let t := s.sendMsg s.net.bench false .leave
  let u := t.replicated.foldl (fun v n => if (v.domain n).present then v.destroyDomain n [] else v) t
  u.loseMembership.memberRecord 5

/-- EXPEL (R366). -/
def State.expel (s : State) (m : Nat) : State :=
  let t := s.putMember { member := m, state := 2, dev := s.get R.NET_MEMBER_DEV m }
  let took := t.homedAt m
  let u := took.foldl (fun v n => (v.set R.NET_SLICE_HOME n (v.get R.NET_STS_ID)).setLapsed n false) t.paths
  let w := { u with net := { u.net with changed := u.net.changed ++ took.filter (fun n => !u.net.changed.contains n) } }
  (w.broadcast w.tableBody).memberRecord 6

/-- BENCH (R366): TABLE names the new benchmark. -/
def State.nameBench (s : State) (m : Nat) : State :=
  let t := (({ s with net := { s.net with bench := m } }).put1 R.NET_STS_BENCH (m == s.get R.NET_STS_ID)).paths
  (t.broadcast t.tableBody).memberRecord 7

/-- MOVE_HOME (R366): a record with the new HOME; home-only operations stop here at once. -/
def State.moveHome (s : State) (n m : Nat) : State :=
  let t := (s.set R.NET_SLICE_HOME n m).announce n
  let u := if t.isHome n then t else t.setLapsed n true
  u.memberRecord 8

/-- The command that waits takes effect at its boundary. -/
def State.netCmdNow (s : State) : State :=
  match s.net.cmd with
  | none => s
  | some c =>
    let t := { s with net := { s.net with cmd := none } }
    if !s.netRuns then s
    else match c.op with
    | 2 | 3 | 4 => s.joinStep c
    | 5 => t.leaveNet.netReply 0
    | 6 => (t.expel c.member).netReply 0
    | 7 => (t.nameBench c.member).netReply 0
    | 8 => (t.moveHome c.arg c.member).netReply 0
    | 9 => (t.rekeyLink c.arg).netReply 0
    | _ => s

/-- An outstanding request lapses (R358). -/
def State.requestExpire (s : State) : State :=
  match s.net.request with
  | some _ => if s.requested then s else { s with net := { s.net with request := none } }
  | none => s

/-! ## The Net at a boundary -/

/-- Event 2: commands, then records in RSEQ order (R9, R363, R366). -/
def State.netEvents (s : State) : State := s.netCmdNow.applyRecords

/-- The frame that begins: what falls due is done and sent. -/
def State.netFrame (s : State) : State :=
  let s1 := { s with net := { s.net with rxRead := 0 } }
  let s2 := netPorts.foldl (fun t p => (((t.fillFrame p).portEnable p).retrain p).autoRekey p) s1
  let s3 := ((s2.sendMarks.announceAll).sendAcks).resendAll
  let s4 := s3.replicated.foldl (fun t n => t.lapse n) s3
  let s5 := (s4.net.slices.map Prod.fst).foldl (fun t n => t.gapSync n) s4
  s5.sendLease.sendWitness.requestExpire.marksLost

/-! ## The commands of the table -/

def execNetCreate (s : State) : Host.Outcome State Fault Refusal := ok (s.ifWritable 0x130008 (s.netCommand { op := 1 }))
def execNetRequest (s : State) : Host.Outcome State Fault Refusal := ok (s.ifWritable 0x130008 (s.netCommand { op := 2 }))
def execNetAdmit (auto : Bool) (member : Nat) (records : Option (Bytes × Bytes)) (s : State) : Host.Outcome State Fault Refusal :=
  ok (s.ifWritable 0x130008 (s.netCommand { op := 3, member := member % 4096, auto := auto, records := records }))
def execNetAccept (records : Option (Bytes × Bytes)) (s : State) : Host.Outcome State Fault Refusal :=
  ok (s.ifWritable 0x130008 (s.netCommand { op := 4, records := records }))
def execJoinRequestExpiry (s : State) : Host.Outcome State Fault Refusal := ok s.requestExpire
def execNetLeave (s : State) : Host.Outcome State Fault Refusal := ok (s.ifWritable 0x130008 (s.netCommand { op := 5 }))
def execNetExpel (member : Nat) (s : State) : Host.Outcome State Fault Refusal :=
  ok (s.ifWritable 0x130008 (s.netCommand { op := 6, member := member % 4096 }))
def execNetBench (member : Nat) (s : State) : Host.Outcome State Fault Refusal :=
  ok (s.ifWritable 0x130008 (s.netCommand { op := 7, member := member % 4096 }))
def execMoveHome (member slice : Nat) (s : State) : Host.Outcome State Fault Refusal :=
  ok (s.ifWritable 0x130008 (s.netCommand { op := 8, member := member % 4096, arg := slice % 1024 }))
def execPortRekey (port : Nat) (s : State) : Host.Outcome State Fault Refusal :=
  ok (s.ifWritable 0x130008 (s.netCommand { op := 9, arg := port % 1024 }))

end Sys2Proof.Machine
end

