-- ==== Sys2Proof/Machine/Fabric.lean ====
section
/-! DEFINITION. Guard units and private memory (R275 to R299): the fabric address map, region descriptors, colours, faults
and their capture, the lines of private DRAM, the write-combining buffer, key IDs and the re-key walker. -/

namespace Sys2Proof.Machine

/-! ## The fabric address map (R276) -/

/-- The stores that have fabric addresses. -/
inductive FabStore where
  | krc | staging | pkMem | latMem | coreMem | otherSram | mram | bbram | regs | dram
deriving DecidableEq, Repr

/-- The store an address belongs to, and the offset within it. -/
def fabStore (a : Nat) : Option (FabStore × Nat) :=
  if a < 0x04000000 then some (.krc, a)
  else if a < 0x05000000 then some (.staging, a - 0x04000000)
  else if a < 0x05400000 then some (.pkMem, a - 0x05000000)
  else if a < 0x05600000 then some (.latMem, a - 0x05400000)
  else if a < 0x05800000 then none
  else if a < 0x05C00000 then some (.coreMem, a - 0x05800000)
  else if a < 0x06000000 then some (.otherSram, a - 0x05C00000)
  else if a < 0x08000000 then none
  else if a < 0x09000000 then some (.mram, a - 0x08000000)
  else if a < 0x09001000 then some (.bbram, a - 0x09000000)
  else if a < 0x10000000 then none
  else if a < 0x10400000 then some (.regs, a - 0x10000000)
  else if a < 0x4000000000 then none
  else if a < 0x6000000000 then some (.dram, a - 0x4000000000)
  else none

/-- The store is on-chip SRAM, whose granules hold colours (R281). -/
def FabStore.isSram (x : FabStore) : Bool := x != .mram && x != .bbram && x != .regs && x != .dram

/-- The clock gate of a store's block is off (R14). -/
def State.storeGated (s : State) (x : FabStore) (off : Nat) : Bool :=
  match x with
  | .regs => s.gated off
  | .pkMem => s.gated 0x050000
  | .latMem => s.gated 0x060000
  | .dram => s.gated 0x0E0000
  | _ => false

/-- The address is in a locked region that this access does not own (R277). -/
def lockedFor (x : FabStore) (off group master op : Nat) : Bool :=
  let kpe := group == 4 && master == 0
  match x with
  | .krc => !kpe
  | .pkMem => decide (0x6000 ≤ off % 0x8000) && !(kpe && op == 1)
  | .latMem => decide (0xC000 ≤ off % 0x10000) && !(kpe && op == 1)
  | .bbram => !kpe
  | .mram =>
    match Config.mramRegion off with
    | 1 => !kpe
    | 2 => !(group == 5 && master == 1)
    | 3 => !(group == 5 && master == 0)
    | _ => false
  | _ => false

/-! ## Violations (R283, R284) -/

/-- VALID written 1: the capture and the count are cleared (R284). -/
def State.violClear (s : State) (g : Nat) : State :=
  ((((((s.set R.GRD_VIOL_INFO_VALID g 0).set R.GRD_VIOL_INFO_CAUSE g 0).set R.GRD_VIOL_INFO_OP g 0).set R.GRD_VIOL_INFO_COLOUR g 0).set
    R.GRD_VIOL_INFO_MASTER g 0).set R.GRD_VIOL_ADDR_ADDR g 0).set R.GRD_VIOL_OVF_COUNT g 0

/-- What a faulting piece does to the command it served, and to an entry being evicted (R283). DENIED and the bus error of a gated
block are no faults (R280). -/
def State.faultEffect (s : State) (a : FabricAcc) : State :=
  let t := if (a.group = 2 ∨ a.group = 3 ∨ a.group = 4) ∧ a.cmd ≠ 0 then
      match s.cmd? a.cmd with
      | some c => if c.isHeld then s else s.putCmd (c.fail ccPolicyDenied)
      | none => s
    else s
  if a.group = 4 ∧ a.evicts ≠ 0 then
    match t.inKrc a.evicts with
    | some k => t.evict k false
    | none => t
  else t

/-- A piece refused: the violation, its effect, and zeros for a read. -/
def State.refusePiece (s : State) (a : FabricAcc) (cause colour : Nat) : State :=
  let v := s.violate a.group cause a.op a.addr a.master colour
  let t := if cause = 1 ∨ cause = 2 ∨ a.group = 7 then v else v.faultEffect a
  let u := if a.group = 7 ∧ cause = 2 then t.debugLocked a.addr else t
  { u with fab := { u.fab with reply := { cause := cause, data := if a.op = 1 then [] else fill a.len 0 } } }

/-! ## Regions and the default map (R278, R280, R282, R286) -/

/-- What a region or the default map grants a piece: TAG, ANYCOL, SETCOL; the default map changes no colour. -/
structure Grant where
  tag : Nat := 0
  anycol : Bool := true
  setcol : Bool := false
  keepCol : Bool := true
deriving DecidableEq, Repr

/-- The valid regions of a group that match an address. -/
def State.matching (s : State) (g a : Nat) : List Nat :=
  ((List.range 64).map (· + 64 * g)).filter (fun i =>
    s.on R.GRD_RGN_VALID i && decide (s.get R.GRD_RGN_BASE i * 4096 ≤ a ∧ a < s.get R.GRD_RGN_BASE i * 4096 + 2 ^ s.get R.GRD_RGN_SIZE i))

/-- The default map of CORE_P (R282): read, write, fetch. -/
def defaultRight (x : FabStore) (off core op : Nat) : Bool :=
  match x with
  | .coreMem => op != 2 || off / 0x40000 == core
  | .staging => op == 0
  | .otherSram | .mram | .regs | .dram => op != 2
  | _ => false

/-- A group holds a descriptor found to fail its check (R286). -/
def State.groupBad (s : State) (g : Nat) : Bool := s.fab.descBad.any (fun i => i / 64 == g)

/-- A descriptor that fails its check (R286): reported once until a commit rewrites a region of its group. -/
def State.descFail (s : State) (i : Nat) : State :=
  if 512 ≤ i ∨ s.fab.descBad.contains i then s
  else
    let t := { s with fab := { s.fab with descBad := s.fab.descBad ++ [i] } }
    (t.grdErr R.GRD_ERR_STS_DESC_ERR 1).record 0x0701 2 devScope (i / 64) (i % 64)

/-- Descriptors that errors changed, as (group, descriptor, difference of the 16-bit check). -/
def State.flipDescs (s : State) (l : List (Nat × Nat × Nat)) : State :=
  { s with fab := { s.fab with
    descOff := l.foldl (fun t e => Tab.upd 0 t (64 * e.1 + e.2.1 % 64) (fun v => (v ^^^ e.2.2) % 65536)) s.fab.descOff } }

/-- The descriptors among `is` verified. -/
def State.verifyDescs (s : State) (is : List Nat) : State :=
  (is.filter (fun i => Tab.get 0 s.fab.descOff i != 0)).foldl (fun t i => t.descFail i) s

/-- Steps 4 to 6 of R280: the cause that stops the piece, or 0xF, with what is granted. Each descriptor is verified as it
matches (R286). -/
def State.regionCheck (s0 : State) (a : FabricAcc) (x : FabStore) (off : Nat) : Nat × Grant × State :=
  let found := if s0.groupBad a.group then [] else s0.matching a.group a.addr
  let s := s0.verifyDescs found
  let bad := s.groupBad a.group
  let hits := if bad then [] else found
  let byDefault : Nat × Grant × State := (if defaultRight x off a.master a.op then 0xF else 5, {}, s)
  if bad ∧ a.group ≠ 0 then (8, {}, s)
  else match hits with
    | [] => if a.group = 0 then byDefault else (4, {}, s)
    | [i] =>
      let right := s.on (if a.op = 0 then R.GRD_RGN_R else if a.op = 1 then R.GRD_RGN_W else R.GRD_RGN_X) i
      (if right then 0xF else 5, { tag := s.get R.GRD_RGN_TAG i, anycol := s.on R.GRD_RGN_ANYCOL i,
                                   setcol := s.on R.GRD_RGN_SETCOL i, keepCol := false }, s)
    | i :: _ => (3, {}, (s.grdErr R.GRD_ERR_STS_OVERLAP 1).record 0x0701 2 devScope a.group (i % 64))

/-- The debug master may not touch granules of this colour (R281). -/
def State.debugBars (s : State) (g colour : Nat) : Bool := g == 7 && !bit (s.get R.GRD_DBG_CFG_COLOUR) colour

/-- A granule of colour `c` passes (R281): 0xF, or the cause. -/
def State.colourCheck (s : State) (a : FabricAcc) (gr : Grant) (c : Nat) : Nat :=
  if s.debugBars a.group c then 2 else if gr.anycol ∨ gr.tag = c then 0xF else 6

/-! ## On-chip memory -/

/-- Granules (or lines) of 64 bytes that a piece touches. -/
def granules (addr len : Nat) : List Nat :=
  if len = 0 then [] else (List.range ((addr + len - 1) / 64 + 1 - addr / 64)).map (· + addr / 64)

/-- Bytes written to MRAM: the old data area is read-only (R323). -/
def State.mramPut (s : State) (addr : Nat) (data : Bytes) : List Host.Cell :=
  match s.oldArea with
  | none => ramPut s.fab.ram addr data
  | some b => data.zipIdx.foldl (fun m e => if inArea b (addr + e.2) then m else ramPut m (addr + e.2) [e.1]) s.fab.ram

/-- A piece at on-chip memory: every granule's colour first, then the data (R281). -/
def State.ramPiece (s : State) (a : FabricAcc) (x : FabStore) (gr : Grant) : State :=
  let gs := if x.isSram then granules a.addr a.len else []
  match gs.find? (fun n => s.colourCheck a gr (Tab.get 0 s.fab.colours n) != 0xF) with
  | some n =>
    let c := Tab.get 0 s.fab.colours n
    s.refusePiece a (s.colourCheck a gr c) (if s.colourCheck a gr c = 6 then c else 0)
  | none =>
    if a.op = 1 then
      { s with fab := { s.fab with
        ram := if x = .mram then s.mramPut a.addr (fitTo a.len a.data) else ramPut s.fab.ram a.addr (fitTo a.len a.data)
        colours := if gr.setcol then gs.foldl (fun t n => Tab.put 0 t n gr.tag) s.fab.colours else s.fab.colours
        reply := {} } }
    else { s with fab := { s.fab with reply := { data := s.ramBytes a.addr a.len } } }

/-- The key store's own access to BBRAM, in the layout of R271 (R277). -/
def State.bbPiece (s : State) (a : FabricAcc) (off : Nat) : State :=
  if a.op = 1 then
    let t := s.bbPut off (fitTo a.len a.data)
    { t with fab := { t.fab with reply := {} } }
  else { s with fab := { s.fab with reply := { data := s.bbBytes off a.len } } }

/-! ## Lines of private DRAM (R288 to R291) -/

/-- The valid map entry that covers a private DRAM address (R293). -/
def State.mapOf (s : State) (a : Nat) : Option Nat :=
  (List.range 16).find? (fun j => s.on R.MSC_MAP_VALID j
    && decide (s.get R.MSC_MAP_BASE j * 2 ^ 28 ≤ a ∧ a < (s.get R.MSC_MAP_BASE j + s.get R.MSC_MAP_SIZE j) * 2 ^ 28))

/-- A key ID is ACTIVE. -/
def State.keyActive (s : State) (k : Nat) : Bool := bit (s.get R.MSC_KEYID_STS_ACTIVE (k / 64)) (k % 64)

/-- An MSC_ERR_STS event; the first one while the register reads all zero is captured (R291, R299). -/
def State.mscErr (s : State) (f : Field) (group master keyid line : Nat) : State :=
  let t := if s.storedAt 0x0E0020 = 0 then
      ((((s.set R.MSC_ERR_INFO_CAUSE 0 f.lo).set R.MSC_ERR_INFO_GROUP 0 group).set R.MSC_ERR_INFO_MASTER 0 master).set
        R.MSC_ERR_INFO_KEYID 0 keyid).set R.MSC_ERR_ADDR_LINE 0 line
    else s
  t.event f R.MSC_IRQ_EN_EN 7 1

/-- A line is poisoned (R291); a TAG cause is recorded. -/
def State.poisoned (s : State) (f : Field) (group master keyid line : Nat) : State :=
  let t := (s.bump R.MSC_CNT_POISON_COUNT).mscErr f group master keyid line
  if f = R.MSC_ERR_STS_TAG then t.record 0x0702 2 devScope (t.storedAt 0x0E0028) else t

/-- A line as DRAM holds it. -/
def State.lineAt (s : State) (n : Nat) : DramLine := Tab.get {} s.fab.lines n

/-- What the read of a line finds wrong after DCODE: KEYID or TAG (steps 3 and 4 of R290). TAG agrees only under the tag key the line
was written with: not under one of a later allocation, nor once the keys are erased (R297). -/
def State.lineFault (s : State) (n : Nat) : Option Field :=
  let l := s.lineAt n
  match s.mapOf (n * 64) with
  | none => some R.MSC_ERR_STS_KEYID
  | some j =>
    if l.keyId = 0 ∨ !(l.keyId = s.get R.MSC_MAP_KEYID j ∨ l.keyId = s.get R.MSC_MAP_OLD j) ∨ !s.keyActive l.keyId then
      some R.MSC_ERR_STS_KEYID
    else if l.alloc = 0 ∨ l.alloc ≠ Tab.get 0 s.fab.allocs l.keyId ∨ l.tagOff ≠ 0 then some R.MSC_ERR_STS_TAG
    else none

/-- A line read (R290): its contents, or `none` when it is poisoned. It is read up to three times while DCODE fails. -/
def State.readLine (s : State) (group master n : Nat) : Option DramLine × State :=
  let l := s.lineAt n
  let bad := Tab.get 0 s.fab.badReads n
  if 3 ≤ bad then (none, s.poisoned R.MSC_ERR_STS_DETECT group master l.keyId n)
  else
    let t := if bad = 0 then s
      else (({ s with fab := { s.fab with badReads := s.fab.badReads.del n } }).bump R.MSC_CNT_FIX_COUNT).mscErr
        R.MSC_ERR_STS_FIX group master l.keyId n
    match t.lineFault n with
    | some f => (none, t.poisoned f group master l.keyId n)
    | none => (some { l with data := fitTo 64 l.data }, t)

/-- A line written under key ID `k`. -/
def State.writeLine (s : State) (n : Nat) (data : Bytes) (colour k : Nat) : State :=
  { s with fab := { s.fab with
    badReads := s.fab.badReads.del n
    lines := Tab.put {} s.fab.lines n { data := data, colour := colour, keyId := k, alloc := Tab.get 0 s.fab.allocs k } } }

/-- The mix key (label MSCM) or the tag key (MSCT) a line of this key ID was written under (R289): the count in its context is that
of the allocations since the last reset. -/
def State.mscKey (s : State) (label : String) (l : DramLine) : Bytes :=
  kdfOf s.ks.tierKey (ascii label) (toLE 1 l.keyId ++ toLE 4 (l.alloc - s.fab.allocFrom))

/-- The 64 bytes and the 128 spare bits that the modules hold for line number `n` (R288, R289). -/
def State.dramImage (s : State) (n : Nat) : Bytes × Nat :=
  let l := s.lineAt n
  let mixed := fitTo 64 (Config.lineMix (s.mscKey "MSCM" l) (64 * n) (fitTo 64 l.data))
  let marks := toLE 1 l.colour ++ toLE 1 l.keyId
  let tag := toLE 8 (ofLE (fitTo 8 (Config.lineTag (s.mscKey "MSCT" l) (mixed ++ toLE 5 (64 * n) ++ marks))) ^^^ l.tagOff % 2 ^ 64)
  let dcode := crcOf 32 0x1EDC6F41 (mixed ++ tag ++ marks)
  (mixed, ofLE tag * 2 ^ 64 + dcode * 2 ^ 32 + l.colour % 16 * 2 ^ 28 + l.keyId % 256 * 2 ^ 20)

/-- A poison line written. -/
def State.writePoison (s : State) (n : Nat) : State :=
  { s with fab := { s.fab with lines := s.fab.lines.del n, badReads := s.fab.badReads.del n } }

/-- Errors of DRAM: coming reads that fail DCODE, and lines whose TAG no longer agrees (R290). -/
def State.dramErrors (s : State) (bad tags : List (Nat × Nat)) : State :=
  { s with fab := { s.fab with
    badReads := bad.foldl (fun t e => Tab.put 0 t e.1 e.2) s.fab.badReads
    lines := tags.foldl (fun t e => Tab.upd {} t e.1 (fun l => { l with tagOff := (l.tagOff ^^^ e.2) % 2 ^ 64 })) s.fab.lines } }

/-! ## The write-combining buffer (R292) -/

/-- The bytes of an entry over the bytes of a line. -/
def WcbEntry.overlay (e : WcbEntry) (line : Bytes) : Bytes :=
  (List.range 64).map (fun i => if bit e.mask i then e.data.getD i 0 else line.getD i 0)

/-- The buffer without the entry of a line. -/
def State.wcbDrop (s : State) (n : Nat) : State :=
  { s with fab := { s.fab with wcb := s.fab.wcb.filter (fun e => e.line != n) } }

/-- An entry written out: directly when full, else by read-modify-write (R292). -/
def State.wcbOut (s : State) (e : WcbEntry) : State :=
  let t := s.wcbDrop e.line
  let k := match t.mapOf (e.line * 64) with | some j => t.get R.MSC_MAP_KEYID j | none => 0
  if e.mask = 2 ^ 64 - 1 then t.writeLine e.line (fitTo 64 e.data) e.tag k
  else
    match t.readLine e.group e.master e.line with
    | (none, u) => (u.writePoison e.line).mscErr R.MSC_ERR_STS_RMW_POISON e.group e.master k e.line
    | (some l, u) =>
      let at_ := 0x4000000000 + e.line * 64 + ((setBits 64 e.mask).headD 0)
      if u.debugBars e.group l.colour then (u.violate e.group 2 1 at_ e.master 0).debugLocked at_
      else if e.anycol ∨ e.tag = l.colour then
        u.writeLine e.line (e.overlay l.data) (if e.setcol then e.tag else l.colour) k
      else
        u.violate e.group 6 1 at_ e.master l.colour

/-- Every entry written out (FLUSH). -/
def State.flushWcb (s : State) : State := s.fab.wcb.foldl (fun t e => t.wcbOut e) s

/-- A partial entry with no write for 16 frames is written out. -/
def State.ageOut (s : State) (n : Nat) : State :=
  match s.fab.wcb.find? (fun e => e.line == n) with
  | some e => if e.frame + 16 ≤ s.frameNo then s.wcbOut e else s
  | none => s

def State.ageOutAll (s : State) : State := (s.fab.wcb.map (·.line)).foldl (fun t n => t.ageOut n) s

/-- Less than a line written: it merges into the entry of its line; a full entry is written out (R292). -/
def State.wcbWrite (s : State) (a : FabricAcc) (gr : Grant) (n off : Nat) (data : Bytes) : State :=
  let old := (s.fab.wcb.find? (fun e => e.line == n)).getD { line := n, data := fill 64 0 }
  let t := if s.fab.wcb.any (fun e => e.line == n) then s.wcbDrop n
    else if 512 ≤ s.fab.wcb.length then (match s.fab.wcb with | e :: _ => s.wcbOut e | [] => s) else s
  let e : WcbEntry := { old with
    mask := old.mask ||| ((2 ^ data.length - 1) * 2 ^ off)
    data := (List.range 64).map (fun i => if off ≤ i ∧ i < off + data.length then data.getD (i - off) 0 else old.data.getD i 0)
    frame := t.frameNo, group := a.group, master := a.master
    tag := if gr.keepCol then (t.lineAt n).colour else gr.tag, anycol := gr.anycol, setcol := gr.setcol }
  let u := { t with fab := { t.fab with wcb := t.fab.wcb ++ [e] } }
  if e.mask = 2 ^ 64 - 1 then u.wcbOut e else u

/-! ## Pieces at private DRAM (R281, R290 to R295) -/

/-- Group `g` holds the right for a key ID (R295). -/
def State.keyRight (s : State) (g k : Nat) : Bool := bit (s.get R.MSC_RIGHTS_KEYIDS (4 * g + k / 64)) (k % 64)

/-- The lines a read gathers: (bytes, some poisoned, cause with colour). -/
def State.readLines (s : State) (a : FabricAcc) (gr : Grant) : List Nat → Bytes × Bool × Nat × Nat × State
  | [] => ([], false, 0xF, 0, s)
  | n :: ns =>
    match s.readLine a.group a.master n with
    | (none, t) =>
      let (b, _, c, col, u) := State.readLines t a gr ns
      (fill 64 0 ++ b, true, c, col, u)
    | (some l, t) =>
      let d := match t.fab.wcb.find? (fun e => e.line == n) with | some e => e.overlay l.data | none => l.data
      let c := t.colourCheck a gr l.colour
      if c ≠ 0xF then ([], false, c, l.colour, t)
      else
        let (b, p, c2, col, u) := State.readLines t a gr ns
        (d ++ b, p, c2, col, u)

/-- A write of one line's part: whole lines are stored with TAG, the rest goes to the buffer. -/
def State.writePart (s : State) (a : FabricAcc) (gr : Grant) (k base n : Nat) : State :=
  let lo := max (n * 64) base
  let hi := min (n * 64 + 64) (base + a.len)
  let part := fitTo (hi - lo) (a.data.drop (lo - base))
  if hi - lo = 64 then
    (s.wcbDrop n).writeLine n part (if gr.keepCol then (s.lineAt n).colour else gr.tag) k
  else s.wcbWrite a gr n (lo - n * 64) part

/-- A piece at private DRAM; `off` is its private DRAM address. -/
def State.dramPiece (s : State) (a : FabricAcc) (gr : Grant) (off : Nat) : State :=
  match s.mapOf off with
  | none => s.refusePiece a 0 0
  | some j =>
    let k := s.get R.MSC_MAP_KEYID j
    if a.op = 1 then
      if (granules off a.len).any (fun n => s.debugBars a.group (s.lineAt n).colour) then s.refusePiece a 2 0
      else if !s.keyRight a.group k then s.refusePiece a 7 0
      else
        let t := (granules off a.len).foldl (fun t n => t.writePart a gr k off n) s
        { t with fab := { t.fab with reply := {} } }
    else
      let l := s.lineAt (off / 64)
      let (b, p, c, col, t) := s.readLines a gr (granules off a.len)
      if c ≠ 0xF then t.refusePiece a c (if c = 6 then col else 0)
      else if (s.lineFault (off / 64)).isNone ∧ Tab.get 0 s.fab.badReads (off / 64) < 3 ∧ !s.keyRight a.group l.keyId then s.refusePiece a 7 0
      else
        let u := { t with fab := { t.fab with reply := { poison := p, data := cut b (off % 64) a.len } } }
        if p ∧ a.group = 4 ∧ a.cmd ≠ 0 then u.tierPoison a.cmd else u

/-! ## MSC_CMD (R293) -/

/-- MSC_CMD_STS after an operation that was rejected or has finished. -/
def State.mscReply (s : State) (e : Nat) : State := (s.set R.MSC_CMD_STS_BUSY 0 0).set R.MSC_CMD_STS_ERR 0 e

/-- A write of MSC_CMD: it waits for its boundary. -/
def State.mscCommand (s : State) (op entry keyid : Nat) : State :=
  if s.on R.MSC_CMD_STS_BUSY then s
  else if op = 0 ∨ 5 < op then s.mscReply 1
  else
    (({ s with fab := { s.fab with cmd := some (op, entry % 16, keyid % 256) } }).set R.MSC_CMD_STS_BUSY 0 1).set
      R.MSC_CMD_STS_ERR 0 0

/-- The entry's KEYID or OLD is `k`. -/
def State.entryHas (s : State) (j k : Nat) : Bool :=
  s.on R.MSC_MAP_VALID j && (s.get R.MSC_MAP_KEYID j == k || s.get R.MSC_MAP_OLD j == k)

/-- Why an operation is rejected at its boundary (R293); 0 when it is not. Key ID 0 is named before a key ID that is not
ACTIVE, which it never is. -/
def State.mscCheck (s : State) (op j k : Nat) : Nat :=
  let walking := s.on R.MSC_WALK_STS_ACTIVE
  match op with
  | 1 => if ((List.range 256).drop 1).all s.keyActive then 2 else 0
  | 2 =>
    if !s.on R.MSC_MAP_VALID j then 5 else if k = 0 then 7 else if !s.keyActive k then 3
    else if (List.range 16).any (fun i => i != j && s.entryHas i k) then 4 else if walking then 6 else 0
  | 3 =>
    if !s.keyActive k then 3
    else if (List.range 16).any (fun i => s.on R.MSC_MAP_VALID i && s.get R.MSC_MAP_KEYID i == k)
        ∨ (walking ∧ s.get R.MSC_MAP_OLD (s.get R.MSC_WALK_STS_ENTRY) = k) then 4
    else 0
  | 4 => if !s.on R.MSC_MAP_VALID j then 5 else if walking then 6 else 0
  | _ => 0

/-- The walker starts over an entry (R293, R294). -/
def State.walkStart (s : State) (j : Nat) (init : Bool) : State :=
  (((s.set R.MSC_WALK_STS_ACTIVE 0 1).put1 R.MSC_WALK_STS_INIT init).set R.MSC_WALK_STS_ENTRY 0 j).set R.MSC_WALK_STS_POS 0
    (s.get R.MSC_MAP_BASE j * 2 ^ 22)

/-- The second tier lies in this entry (R295). -/
def State.tierIn (s : State) (j : Nat) : Bool :=
  s.get R.KS_T2_CFG_SIZE != 0 && decide (s.get R.MSC_MAP_BASE j ≤ s.get R.KS_T2_CFG_BASE
    ∧ s.get R.KS_T2_CFG_BASE < s.get R.MSC_MAP_BASE j + s.get R.MSC_MAP_SIZE j)

/-- The waiting operation at its boundary; the keys that a tamper response erased do not come back (R297). -/
def State.mscNow (s : State) : State :=
  match s.fab.cmd with
  | none => s
  | some (op, j, k) =>
    if s.on R.TMP_STS_HALT then s else
    let t := { s with fab := { s.fab with cmd := none } }
    let e := t.mscCheck op j k
    if e ≠ 0 then t.mscReply e
    else match op with
    | 1 =>
      match ((List.range 256).drop 1).find? (fun i => !t.keyActive i) with
      | none => t.mscReply 2
      | some i =>
        let u := { t with fab := { t.fab with allocNo := t.fab.allocNo + 1, allocs := Tab.put 0 t.fab.allocs i (t.fab.allocNo + 1) } }
        ((u.set R.MSC_KEYID_STS_ACTIVE (i / 64) (u.get R.MSC_KEYID_STS_ACTIVE (i / 64) ||| 2 ^ (i % 64))).set
          R.MSC_CMD_STS_KEYID 0 i).mscReply 0
    | 2 => (((t.set R.MSC_MAP_OLD j (t.get R.MSC_MAP_KEYID j)).set R.MSC_MAP_KEYID j k).walkStart j false).mscReply 0
    | 3 =>
      let u := t.flushWcb
      let v := (List.range 16).foldl (fun w i => if w.get R.MSC_MAP_OLD i = k then w.set R.MSC_MAP_OLD i 0 else w) u
      let w := { v with fab := { v.fab with allocs := v.fab.allocs.del k } }
      (w.set R.MSC_KEYID_STS_ACTIVE (k / 64) (w.get R.MSC_KEYID_STS_ACTIVE (k / 64) &&& (2 ^ 64 - 1 - 2 ^ (k % 64)))).mscReply 0
    | 4 =>
      let u := if t.tierIn j then { t with ks := { t.ks with tier2 := [] } } else t
      (u.walkStart j true).mscReply 0
    | _ => t.flushWcb.mscReply 0

/-! ## The walker (R294) -/

/-- One line walked: INIT writes zero, REKEY rewrites what carries OLD and replaces what is poisoned. -/
def State.walkLine (s : State) (j n : Nat) : State :=
  let k := s.get R.MSC_MAP_KEYID j
  if s.on R.MSC_WALK_STS_INIT then (s.wcbDrop n).writeLine n (fill 64 0) 0 k
  else
    match s.readLine 4 1 n with
    | (none, t) => t.writePoison n
    | (some l, t) => if l.keyId = k then t else t.writeLine n l.data l.colour k

/-- The first line past the entry. -/
def State.walkTop (s : State) (j : Nat) : Nat := (s.get R.MSC_MAP_BASE j + s.get R.MSC_MAP_SIZE j) * 2 ^ 22

/-- The walker's work of one frame; past the last line it reports WALK_DONE and stops. -/
def State.walkFrame (s : State) : State :=
  if !s.on R.MSC_WALK_STS_ACTIVE then s
  else
    let j := s.get R.MSC_WALK_STS_ENTRY
    let pos := s.get R.MSC_WALK_STS_POS
    let count := min (min 4096 s.fab.walkRate) (s.walkTop j - pos)
    let t := ((List.range count).map (· + pos)).foldl (fun u n => u.walkLine j n) s
    if t.walkTop j ≤ pos + count then
      (((t.set R.MSC_WALK_STS_ACTIVE 0 0).set R.MSC_WALK_STS_POS 0 (pos + count)).mscErr R.MSC_ERR_STS_WALK_DONE 4 1 0 0)
    else t.set R.MSC_WALK_STS_POS 0 (pos + count)

/-- The walker passes the last line within this frame. -/
def State.walkEnd (s : State) : State :=
  let j := s.get R.MSC_WALK_STS_ENTRY
  if s.on R.MSC_WALK_STS_ACTIVE ∧ s.walkTop j ≤ s.get R.MSC_WALK_STS_POS + min 4096 s.fab.walkRate then s.walkFrame else s

/-- A boundary of the guards and of the memory controller: what errors changed, every descriptor verified (R286), and MSC_WALK.RATE as
it acts from this boundary on (R299). -/
def State.memoryBoundary (s : State) (env : FrameEnv) : State :=
  let t := (s.flipDescs env.descErrors).dramErrors env.dramBad env.tagErrors
  let u := t.verifyDescs (t.fab.descOff.map Prod.fst)
  { u with fab := { u.fab with walkRate := u.get R.MSC_WALK_RATE } }

/-- A write of MSC_CMD, which only a control core in privileged mode makes (R287): where the block is gated, the guard of CORE_P
captures it (R14). -/
def State.ifCoreWritable (s : State) (t : State) : State :=
  if s.writable 0x0E0008 then t
  else if s.glb.powered ∧ s.gated 0x0E0008 then s.violate 0 1 1 0x100E0008 0 0 else s

/-! ## The commands of the table -/

def execViolClear (group : Nat) (s : State) : Host.Outcome State Fault Refusal :=
  ok (if group < 8 then s.ifWritable 0x0D0108 (s.violClear group) else s)
def execMscAlloc (s : State) : Host.Outcome State Fault Refusal := ok (s.ifCoreWritable (s.mscCommand 1 0 0))
def execMscRekey (entry keyid : Nat) (s : State) : Host.Outcome State Fault Refusal :=
  ok (s.ifCoreWritable (s.mscCommand 2 entry keyid))
def execMscRetire (keyid : Nat) (s : State) : Host.Outcome State Fault Refusal :=
  ok (s.ifCoreWritable (s.mscCommand 3 0 keyid))
def execMscInit (entry : Nat) (s : State) : Host.Outcome State Fault Refusal :=
  ok (s.ifCoreWritable (s.mscCommand 4 entry 0))
def execMscFlush (s : State) : Host.Outcome State Fault Refusal := ok (s.ifCoreWritable (s.mscCommand 5 0 0))
def execWalkDone (s : State) : Host.Outcome State Fault Refusal := ok s.walkEnd
def execWcbEntryAgeOut (line : Nat) (s : State) : Host.Outcome State Fault Refusal := ok (s.ageOut line)

end Sys2Proof.Machine
end

