-- ==== Sys2Proof/Machine/Startup.lean ====
section
/-! DEFINITION. Start-up and the resets (R369 to R374), power failure and the loss of main power (R235, R270, R391),
clock failures as the device meets them (R336, R337), and PERST. -/

namespace Sys2Proof.Machine

/-! ## What a reset keeps (R373) -/

/-- An offset lies in a range. -/
def inRange (o a b : Nat) : Bool := decide (a ≤ o ∧ o < b)

/-- Register fields a cold reset keeps, by offset and lowest bit: the battery domain, what MRAM stores, what shows a live sensor or
pin, and the lifecycle code, by which the tamper monitor is armed until OTP is read again (assumption 79). -/
def keptCold (o lo : Nat) : Bool :=
  [0x0C000C, 0x0C0010, 0x0C0018, 0x0C0020, 0x0C0028, 0x0A0028, 0x0C0024, 0x0C002C, 0x0C0030, 0x0C0034, 0x0C0060,
    0x140008, 0x140010].contains o
    || inRange o 0x0C0040 0x0C0054 || inRange o 0x0B4000 0x0B8000
    || (inRange o 0x131000 0x132000 && (lo == 31 || lo == 0))
    || (inRange o 0x134000 0x13C000 && (lo == 62 || lo == 0))
    || (o == 0x0C0004 && (lo == 30 || lo == 28 || lo == 0))
    || (o == 0x130004 && (lo == 31 || lo == 30 || lo == 0))
    || (o == 0x080004 && (lo == 4 || lo == 3 || lo == 0))
    || (o == 0x0F0004 && lo == 6) || (o == 0x0A0000 && lo == 0)

/-- Counters the spec counts from the last cold reset (assumption 50). -/
def coldCounter (o : Nat) : Bool :=
  [0x020010, 0x020018, 0x040018, 0x070010, 0x05005C, 0x06005C, 0x090020, 0x090028, 0x090030, 0x0A0004, 0x0E0040, 0x0E0044,
    0x0F0050, 0x120028].contains o
    || inRange o 0x032000 0x033000 || inRange o 0x090120 0x090140 || inRange o 0x130140 0x130160

/-- Register fields a warm reset keeps besides: the lifecycle, what the fuses say, the trim, the counters, ALIGNED. -/
def keptWarm (o lo : Nat) : Bool :=
  keptCold o lo || coldCounter o
    || [0x0A0000, 0x0A0010, 0x0A0044, 0x0A0048, 0x000008, 0x000010, 0x000018, 0x00001C, 0x000034, 0x110008].contains o
    || inRange o 0x0A01C0 0x0A01E0
    || (o == 0x130004 && lo == 29)

/-- HIF_PORT_STS fields of port A that stay while its link does. -/
def keptLink (o lo : Nat) : Bool := o == 0x010004 && [0, 1, 4, 7].contains lo

/-- The registers after a reset. -/
def State.resetRegs (s : State) (warm : Bool) (cause : Nat) : State :=
  { s with
    regs := s.regs.filter (fun e =>
      let o := e.1 / 64
      let lo := e.1 % 64
      if warm then keptWarm o lo || (cause != 8 && s.linkUp 0 && keptLink o lo) else keptCold o lo)
    shadows := []
    cover := [] }

/-- What a reset ends in order, while power is on: sessions with their staged writes, counter windows, and a freeze
(R205, R244, R313); the Fieldbook's waiting records go to MRAM and its buffer stays (assumption 51). -/
def State.resetEnds (s : State) : State :=
  let s1 := s.endSessions (fun _ => true)
  let s2 := s1.ks.windows.foldl (fun t w => t.abandon w true) s1
  let s3 := if s2.fb.exporting then s2.exportStop else s2
  s3.unfreeze.fbWritePending

/-- A key domain after a reset: EK_s is drawn again; a cold reset forgets what volatile memory knew (R186, R199). -/
def Domain.afterReset (warm : Bool) (d : Domain) : Domain :=
  if warm then { d with ek := [] }
  else { d with ek := [], freed := [], gens := [], cursor := d.cursorEnd, ephNext := 0, bumps := [], dying := [] }

/-- The key store after a reset. -/
def Ks.afterReset (k : Ks) (warm : Bool) : Ks :=
  { k with
    domains := k.domains.mapv {} (Domain.afterReset warm)
    known := if warm then k.known else []
    krc := [], tier2 := [], windows := [], accums := [], cmd := none
    krcKey := [], tierKey := [], tuCarry := [], laneCarry := [], contKey := [], ekSegs := []
    sealCount := 0
    nodesAt := if warm then k.nodesAt else 0 }

/-- The host interface after a reset: every slice disabled (R373). -/
def Hif.afterReset (h : Hif) (warm link : Bool) : Hif :=
  { slices := if warm then h.slices.mapv {} (fun x => { gen := x.gen }) else []
    sent := h.sent
    unmasked := if warm && link then h.unmasked else []
    pba := if warm && link then h.pba else []
    msixTab := if warm && link then h.msixTab else []
    d3 := if warm && link then h.d3 else [] }

/-- The Net after a reset: every lease counts as lapsed until it is renewed (R364), BOOT is drawn at start-up (R354), and a home member
goes on with the records that have not been acknowledged or sent (R363). -/
def Net.afterReset (n : Net) (warm member bench : Bool) (away : List Nat) : Net :=
  { n with
    lapsed := away, boot := [], counter := 0, ports := []
    slices := n.slices.mapv {} (fun x => {
      rseq := x.rseq, sent := if warm then x.sent else x.sent.map (fun e => { e with frame := 0 }), sentRev := x.sentRev })
    cmd := none, rxRead := 0, request := none, jobs := none, drawn := [], joining := none
    aligning := if warm then n.aligning else member && !bench
    stepTo := none, markless := 0 }

/-- Lifecycle state after a reset: a warm one keeps it but for challenges and what waited. -/
def Lc.afterReset (l : Lc) (warm : Bool) : Lc :=
  if warm then { l with chal := none, toOpen := none, cmd := none, bitRan := false, lockSeen := false }
  else { copies := l.copies, officers := l.officers }

/-- The state a reset leaves, before the first stage of start-up that follows it (R373). -/
def State.volatileReset (s : State) (warm : Bool) (cause : Nat) : State :=
  let s0 := s
  let away := s0.replicated.filter (fun n => !s0.isHome n)
  let waiting := if warm then s0.rng.waiting.filter (fun e => e.2 == AdminOp.deviceSecret) else []
  let t := { s0.resetRegs warm cause with
    frameNo := if warm then s0.frameNo else 0
    glb := { s0.glb with
      badSeen := warm && s0.glb.badSeen, rst := none, cfg := none, clean := false, marks := [], booted := false
      bootKind := if warm then 2 else if cause = 5 then 3 else 1 }
    hif := s0.hif.afterReset warm (cause != 8)
    trv := { nextId := s.trv.nextId }
    tuStore := {}
    pkStore := {}
    luStore := {}
    tiles := {}
    ks := s0.ks.afterReset warm
    fb := { s0.fb with
      frozenAt := none, keep := false, endFreeze := false, clearOk := false, cmd := none, exporting := false, holdReq := false
      refused := if warm then s0.fb.refused else 0, refusedSlices := if warm then s0.fb.refusedSlices else [] }
    rng := {}
    sessions := []
    lc := s0.lc.afterReset warm
    net := s0.net.afterReset warm (s0.on R.NET_STS_MEMBER) (s0.on R.NET_STS_BENCH) away
    tmp := if warm then s0.tmp else { s0.tmp with respEnd := 0 }
    fab := { lines := s0.fab.lines, allocNo := s0.fab.allocNo, allocFrom := s0.fab.allocNo, ram := s0.fab.ram.filter (fun c => decide (0x05800000 ≤ c.1)) }
    upd := {
      flash := s0.upd.flash, jA := s0.upd.jA, jB := s0.upd.jB, areaA := s0.upd.areaA, areaB := s0.upd.areaB, curB := s0.upd.curB
      floor := s0.upd.floor, bootLc := s0.upd.bootLc, patchNext := s0.upd.patchNext
      patch := if warm then s0.upd.patch else s0.upd.patchNext }
    dose := { energy := if warm then s0.dose.energy else 0, alertHigh := s0.dose.alertHigh }
    clk := {} }
  let u := (t.net.slices.map Prod.fst).foldl (fun v n => if v.isHome n then v.showPend n else v) t
  (u.set R.GLB_RST_STS_CAUSE 0 cause).setWaiting waiting

/-- The keys invalidated before a warm reset: their bumps take effect, and with the KRC empty their indices are free
(R199, R200). -/
def State.warmKeys (s : State) : State :=
  let t := (s.ks.domains.map Prod.fst).foldl (fun u n => u.bumpDomain n) s
  (t.ks.domains.map Prod.fst).foldl (fun u n => ((u.domain n).dying.map (·.index)).foldl (fun v i => v.freeIndex n i) u) t

/-- A cold or fatal reset (R373). -/
def State.coldReset (s : State) (cause : Nat) (boot : BootEnv) : State :=
  let wait := s.clk.safe.isSome
  let t := s.resetEnds.volatileReset false cause
  let u := ({ t with glb := { t.glb with boot := boot } }).set R.GLB_STS_STAGE 0 0
  if wait then u.clkRecord 5 else u

/-- A warm reset (R373): none of END and INVALID is left by it. -/
def State.warmReset (s : State) (cause : Nat) (boot : BootEnv) : State :=
  let ended := s.stage == 0xB
  let wait := s.clk.safe.isSome
  let t := ((s.resetEnds.volatileReset true cause).warmKeys).bumpSat R.GLB_RST_STS_WARM_COUNT
  let u := ({ t with glb := { t.glb with boot := boot } }).set R.GLB_STS_STAGE 0 (if ended then 0xB else 2)
  if wait then u.clkRecord 5 else u

/-- What start-up finds outside at a reset the device performs by itself. -/
def State.bootAgain (s : State) : BootEnv := { s.glb.boot with sectors := [], batteryLost := false, bbFlips := [], journalFlips := [] }

/-! ## The stages (R369 to R371) -/

def State.goStage (s : State) (n : Nat) : State := s.set R.GLB_STS_STAGE 0 n

/-- The BOOT record, once for each start-up (R314). -/
def State.bootRecord (s : State) : State :=
  if s.glb.booted then s
  else ({ s with glb := { s.glb with booted := true } }).record 0x0006 0 devScope (s.get R.LC_STATE_CODE) s.glb.bootKind

/-- Stage 0x8 with its cause (R371). -/
def State.haltAt (s : State) (fail : Nat) : State := ((s.set R.GLB_STS_FAIL 0 fail).goStage 8).bootRecord

/-- What the capability fuses leave, sampled at a cold reset (R256). -/
def State.sampleFuses (s : State) : State :=
  let v := (s.otpAt 5).a ||| (s.otpAt 5).b
  let n := fuseUnits v
  let t := (List.range 4).foldl (fun u i => u.set R.LC_CAP_FUSE_BITS i (v / 2 ^ (64 * i)))
    { s with lc := { s.lc with fuses := v } }
  let t1 := (((t.set R.GLB_CAP0_TU 0 (n.getD 0 0)).set R.GLB_CAP0_CL 0 (n.getD 1 0)).set R.GLB_CAP0_HL 0 (n.getD 2 0)).set
    R.GLB_CAP0_PK 0 (n.getD 3 0)
  let t2 := (t1.set R.GLB_CAP1_LU 0 (n.getD 4 0)).set R.GLB_CAP1_NET 0 (4 - popCount 4 (v / 2 ^ 176))
  (((t2.put1 R.GLB_CAP1_SM4 (!bit v 192)).put1 R.GLB_CAP1_CLASS21 (!bit v 193)).put1 R.GLB_CAP1_SEAL (!bit v 194)).put1
    R.GLB_CAP1_EDDSA (!bit v 195)

/-- GLB_DEVICE_ID (R378): all ones for a damaged field. -/
def State.showDeviceId (s : State) : State :=
  let f := s.otpAt 1
  let v := if f.damaged 1 then 2 ^ 128 - 1 else f.a
  (s.set R.GLB_DEVICE_ID_ID 0 (v % 2 ^ 64)).set R.GLB_DEVICE_ID_ID 1 (v / 2 ^ 64)

/-- Bytes of BBRAM that errors changed, as (byte, mask). -/
def State.bbFlip (s : State) (l : List (Nat × Nat)) : State :=
  l.foldl (fun t e => if e.1 < 4096 then t.bbPut e.1 [t.bbByte e.1 ^^^ BitVec.ofNat 8 e.2] else t) s

/-- Datum as BBRAM holds it, taken at power-up: absent when its CRC disagrees (R271). -/
def State.takeDatum (s : State) : State :=
  if s.tmp.bbOver.all (fun e => decide (36 ≤ e.1)) then s
  else
    let b := s.bbBytes 0 32
    if toLE 4 (Config.datumCrc b) = s.bbBytes 32 4 then
      { s with ks := { s.ks with datum := b }, tmp := { s.tmp with bbOver := s.tmp.bbOver.filter (fun e => decide (36 ≤ e.1)) } }
    else
      let t := s.bbPut 0 (s.bbBytes 0 36)
      ({ t with ks := { t.ks with datum := [] } }).set R.KS_STS_DATUM 0 0

/-- The canary stands as it was written (R271). -/
def State.canaryGood (s : State) : Bool :=
  s.tmp.canary && !s.glb.boot.batteryLost
    && s.tmp.bbOver.all (fun e => decide (e.1 < 64 ∨ 128 ≤ e.1) || e.2 == (Config.canary (e.1 - 64)).toNat + 1)

/-- The BBRAM canary at power-up, and the CRC of Datum (R270, R271); the canary is written. A domain that lost its supply has lost
what it latched. -/
def State.checkCanary (s0 : State) : State :=
  let s := s0.bbFlip s0.glb.boot.bbFlips
  if s0.tmpOff then s0
  else if s.canaryGood then
    let t := s.takeDatum
    { t with tmp := { t.tmp with bbOver := t.tmp.bbOver.filter (fun e => decide (e.1 < 64 ∨ 128 ≤ e.1)) } }
  else
    let c := (s.clearRegs (fun o => o == 0x0C000C || o == 0x0C0010 || o == 0x0C0018)).bbClear
    let t := { c with tmp := { c.tmp with battRecord := false, outLatch := false } }
    ((t.set R.KS_STS_DATUM 0 0).tmpReport 19).record 0x0604 3 devScope

/-- A tamper found on battery is recorded at the next power-up (R307). -/
def State.recordBattery (s : State) : State :=
  if s.tmp.battRecord then ({ s with tmp := { s.tmp with battRecord := false } }).tamperRecord true else s

/-- Stage LIFECYCLE (R231, R237, R369): OTP is read, the copies resolved and a pending transition completed. At a
power-up, the canary and what the battery domain found come first, and under-voltage is armed (R268). -/
def State.stageLifecycle (s : State) : State :=
  let up := s.get R.GLB_RST_STS_CAUSE = 1
  let (code, zero, valid) := lcResolve s.lc.copies
  let s1 := { s with lc := { s.lc with copies := lcForward s.lc.copies code s.glb.boot.otpStuck } }
  let s2 := (((s1.set R.LC_STATE_CODE 0 code).set R.LC_STATE_COPY_VALID 0 valid).sampleFuses).showDeviceId.wireToken
  let s3 := if up then (s2.checkCanary.recordBattery) else s2
  let s4 := if up then { s3 with tmp := { s3.tmp with uvArmed := true } } else s3
  let s5 := if zero then s4.enterZeroized code else s4
  if code = 5 ∨ code = 7 then s5.goStage 0xB else s5.goStage 2

/-- PRESENT of every unit register, from the capabilities (R256). -/
def State.showPresent (s : State) : State :=
  let v := s.lc.fuses
  let each (f : Field) (n off : Nat) (t : State) : State :=
    (List.range n).foldl (fun u i => u.put1 f (!bit v (off + i)) i) t
  let s1 := (((s.set R.TU_STS_PRESENT 0 (s.get R.GLB_CAP0_TU)).set R.CL_STS_PRESENT 0 (s.get R.GLB_CAP0_CL)).set
    R.HL_STS_PRESENT 0 (s.get R.GLB_CAP0_HL)).set R.PK_STS_PRESENT 0 (s.get R.GLB_CAP0_PK)
  let s2 := (s1.set R.LU_STS_PRESENT 0 (s.get R.GLB_CAP1_LU)).set R.CL_STS_SM4 0 (s.get R.GLB_CAP1_SM4)
  each R.TU_UNIT_STS_PRESENT 64 0 (each R.CL_LANE_STS_PRESENT 32 64 (each R.HL_LANE_STS_PRESENT 32 96
    (each R.PK_TILE_STS_PRESENT 32 128 (each R.LU_UNIT_STS_PRESENT 16 160 s2))))

/-- Stage CLOCKS (R332, R334, R338, R223): the trim of a cold reset, PLLs, muxes, the gates Tamp turns on, WARMUP. -/
def State.stageClocks (s : State) : State :=
  let s1 := if s.glb.bootKind = 2 then s else s.factoryTrim
  let s2 := ((s1.set R.CLK_STS_CORE_LOCK 0 1).set R.CLK_STS_SEQ_LOCK 0 1).set R.CLK_STS_DDR_LOCK 0 1
  let s3 := ((s2.set R.CLK_MUX_CORE 0 1).set R.CLK_MUX_SEQ 0 1).set R.CLK_MUX_DDR 0 1
  ((s3.set R.CLK_GATE_ON 0 0x1BF).showPresent.cellsEnabled).goStage 3

/-- A channel is present (R296). -/
def dramPresent (c : DramChan) : Bool :=
  decide (1 ≤ c.gb ∧ c.gb ≤ 64) && c.ecc && [4, 8].contains c.width && [16, 24, 32].contains c.density && [1, 2, 3].contains c.rate

/-- MSC_DRAM_STS from what training finds (R296); of two rates, RATE shows the lower (assumption 85). -/
def State.trainDram (s : State) : State :=
  let a := s.glb.boot.dram0
  let b := s.glb.boot.dram1
  let ok0 := dramPresent a
  let ok1 := dramPresent b
  let t := ((s.put1 R.MSC_DRAM_STS_CH0 ok0).put1 R.MSC_DRAM_STS_CH1 ok1).put1 R.MSC_DRAM_STS_INTLV (ok0 && ok1 && a.gb == b.gb)
  ((t.set R.MSC_DRAM_STS_SIZE0 0 (if ok0 then a.gb else 0)).set R.MSC_DRAM_STS_SIZE1 0 (if ok1 then b.gb else 0)).set
    R.MSC_DRAM_STS_RATE 0 (if ok0 && ok1 then min a.rate b.rate else if ok0 then a.rate else if ok1 then b.rate else 0)

/-- The seal-epoch leaf raised before the first seal (R191); one that refuses to rise stops every seal, with COUNTER_EXHAUSTED
at epoch 2^36, and a lost one with SLOT_INTEGRITY, at 2^36 + 1 (R206, R207). -/
def State.raiseSealEpoch (s : State) : State :=
  let stop (t : State) : State := { t with ks := { t.ks with sealEpoch := 2 ^ 36 } }
  if s.ks.ctRo then stop s
  else
    match s.leafOf .seal 0 with
    | none =>
      match s.allocLeaf .seal 0 0 1 with
      | some t => { t with ks := { t.ks with sealEpoch := 1, sealCount := 0 } }
      | none => stop s
    | some n =>
      match s.readLeaf n with
      | (some v, t) =>
        if v + 1 < 2 ^ 36 then
          let u := t.raiseLeaf n (v + 1)
          { u with ks := { u.ks with sealEpoch := v + 1, sealCount := 0 } }
        else stop t
      | (none, t) => { t with ks := { t.ks with sealEpoch := 2 ^ 36 + 1 } }

/-- The counter tree resolved at start-up (R207): every leaf is read, and every node recomputed from its children; a node whose
copy in MRAM is older is rewritten. At a cold start the key store first takes its other items from the store. -/
def State.resolveTree (s : State) : State :=
  let s0 := if s.glb.bootKind = 2 then s else s.loadItems
  let t := ((s0.ks.leaves.map Prod.fst).foldl (fun t n => (t.readLeaf n).2) s0).resolveFloor
  if t.ks.nodesStale ≠ [] then (t.ksFault R.KS_ERR_STS_NODE_FIX 0 0).nodesWritten else t

/-- Stage DRAM: it lasts until the RNG has left WARMUP. -/
def State.stageDram (s : State) : State :=
  if s.rngState ≠ rngService then s else (s.trainDram.resolveTree.raiseSealEpoch).goStage 4

/-- The data areas are erased at the first boot in PROVISION and at the boot that enters RETURN (R323). -/
def State.eraseAreas (s : State) : State :=
  let lc := s.get R.LC_STATE_CODE
  let t := if (lc = 2 ∨ lc = 4) ∧ s.upd.bootLc ≠ lc then
      ({ s with upd := { s.upd with areaA := {}, areaB := {} } }).wipeArea false |>.wipeArea true
    else s
  { t with upd := { t.upd with bootLc := lc } }

/-- The flash the SPI bus answers with, and what was written to it from outside. -/
def State.findFlash (s : State) : State :=
  let b := s.glb.boot
  let t := (s.put1 R.UPD_FLASH_STS_PRESENT (b.flash != 0)).set R.UPD_FLASH_STS_SIZE 0 b.flash
  b.sectors.foldl (fun u e => u.program e.1 e.2) { t with glb := { t.glb with boot := { b with sectors := [] } } }

/-- Stage IMAGE (R321): RECOVERY stops here. -/
def State.stageImage (s : State) : State :=
  let t := s.eraseAreas.findFlash.tampBoot
  if t.stage = 9 then t else t.goStage 5

/-- The KAT_FAIL records of a block: its offset and each unit (R145, R177). -/
def State.katFails (s : State) (block fails : Nat) : State :=
  (setBits 64 fails).foldl (fun t u => t.record 0x0402 3 devScope block u) s

/-- The units of a block that fail a known-answer test, of those present. -/
def State.katOf (s : State) (fails n off : Nat) : Nat := fails % 2 ^ n &&& (2 ^ n - 1 - s.lc.fuses / 2 ^ off % 2 ^ n)

/-- Stage SELFTEST (R370). -/
def State.stageSelftest (s : State) : State :=
  let b := s.glb.boot
  let tu := s.katOf b.katTu 64 0
  let cl := s.katOf b.katCl 32 64
  let hl := s.katOf b.katHl 32 96
  let pk := s.katOf b.katPk 32 128
  let lu := s.katOf b.katLu 16 160
  let s1 := ((((s.set R.GLB_KAT_TU_FAIL 0 tu).set R.CL_KAT_STS_FAIL 0 cl).set R.HL_KAT_STS_FAIL 0 hl).set R.PK_KAT_STS_FAIL 0 pk).set
    R.LU_KAT_STS_FAIL 0 lu
  let s2 := ((((s1.put1 R.CL_STS_KAT_DONE (cl == 0)).put1 R.HL_STS_KAT_DONE (hl == 0)).put1 R.PK_STS_KAT_DONE (pk == 0)).put1
    R.LU_STS_KAT_DONE (lu == 0))
  let s3 := ((((s2.katFails 0x030000 tu).katFails 0x040000 cl).katFails 0x070000 hl).katFails 0x050000 pk).katFails 0x060000 lu
  if tu + cl + hl + pk + lu = 0 then s3.goStage 6 else s3.haltAt 5

/-- Stage KRC_CLEAR: the key store is ready; a device without Datum is no member of a Net (R367). The clamp is awaited. -/
def State.stageKrcClear (s : State) : State :=
  let t := (s.set R.KS_STS_READY 0 1).put1 R.KS_STS_DATUM (s.ks.datum != [])
  let u := if s.ks.datum = [] ∧ s.on R.NET_STS_MEMBER then t.loseMembership else t
  if u.on R.TMP_STS_CLAMP then u else u.goStage 7

/-- The condition of R371 that cannot be met any more, by its GLB_STS.FAIL. -/
def State.unmet (s : State) : Option Nat :=
  if !(s.on R.MSC_DRAM_STS_CH0 || s.on R.MSC_DRAM_STS_CH1) then some 2
  else if (s.otpAt 0x11).damaged 0x11 || (s.otpAt 0x12).damaged 0x12 then some 3
  else if !(s.on R.TU_CTL_LOCK && s.on R.PK_CTL_LOCK && s.on R.LU_CTL_LOCK) then some 6
  else none

/-- Every condition of R371 holds. -/
def State.readyNow (s : State) : Bool :=
  let lc := s.get R.LC_STATE_CODE
  s.stage == 7 && lc != 5 && lc != 7 && s.unmet.isNone
    && s.on R.CL_STS_KAT_DONE && s.on R.HL_STS_KAT_DONE && s.on R.PK_STS_KAT_DONE && s.on R.LU_STS_KAT_DONE
    && s.on R.RNG_STS_KAT_DONE && s.storedAt 0x000038 == 0 && s.rngState == rngService && !s.on R.TMP_STS_CLAMP
    && s.on R.KS_STS_READY && !s.glb.pwrFail && !s.on R.TMP_STS_HALT

/-- SERVICE_READY (R371): Traverse observes, the hold of a warning that still stands begins, and BOOT is written. -/
def State.serviceReady (s : State) : State :=
  if s.readyNow && !s.on R.GLB_STS_SERVICE_READY then
    (((s.set R.TRV_STS_READY 0 1).set R.GLB_STS_SERVICE_READY 0 1).brownHold).bootRecord
  else s

/-- Stage 7: ready, halted for a condition that cannot be met, or waiting. -/
def State.stageReady (s : State) : State :=
  match s.unmet with
  | some f => if s.on R.GLB_STS_SERVICE_READY then s else s.haltAt f
  | none => s.serviceReady

/-- A boundary of start-up: the stage in progress ends (assumption 52: each stage lasts one frame at least). Power
failure, a tamper response and the safe-state wait hold the next one back. -/
def State.bootStep (s : State) : State :=
  if s.glb.pwrFail ∨ s.clk.safe.isSome ∨ s.on R.TMP_STS_HALT then s
  else
    match s.stage with
    | 0 => s.goStage 1
    | 1 => s.stageLifecycle
    | 2 => s.stageClocks
    | 3 => s.stageDram
    | 4 => s.stageImage
    | 5 => s.stageSelftest
    | 6 => s.stageKrcClear
    | 7 => s.stageReady
    | 8 => s.bootRecord
    | _ => s

/-! ## Resets requested (R369, R372, R374) -/

/-- Every admitted command has its status word (R374). -/
def State.drained (s : State) : Bool := s.trv.cmds.all (·.isHeld)

/-- A known-answer test of a unit or of the RNG has failed since the last cold reset (R145, R177, R225, R370). -/
def State.katFailed (s : State) : Bool :=
  s.storedAt 0x000038 != 0 || s.get R.CL_KAT_STS_FAIL != 0 || s.get R.HL_KAT_STS_FAIL != 0 || s.get R.PK_KAT_STS_FAIL != 0
    || s.get R.LU_KAT_STS_FAIL != 0 || s.storedAt R.RNG_KAT_STS_COND.off != 0

/-- A warm reset may be performed in this stage: not before stage 4 has finished; at once in RECOVERY (R369), in the safe-state wait
(R337) and while halted; a device that failed a known-answer test waits for a cold one, whatever its stage (R145, R370). -/
def State.warmAllowed (s : State) : Bool :=
  let st := s.stage
  !s.katFailed && (st == 5 || st == 6 || st == 7 || st == 8 || st == 9 || st == 0xA || st == 0xB || s.on R.TMP_STS_HALT)

/-- The drain of a requested reset has ended (R374). -/
def State.resetDrained (s : State) : Bool :=
  match s.glb.rst with
  | some r => r.drain && s.drained && (!r.warm || s.warmAllowed)
  | none => false

/-- The reset requested, at the boundary at which it is due. -/
def State.resetDue (s : State) : State :=
  match s.glb.rst with
  | none => s
  | some r =>
    if r.drain && !s.drained then s
    else if r.warm then (if s.warmAllowed then s.warmReset r.cause s.bootAgain else s)
    else s.coldReset r.cause s.bootAgain

/-- GLB_RST_CMD with OP = WARM or COLD, as taken (R374). -/
def State.askDrain (s : State) (warm : Bool) (cause : Nat) (drain : Bool) : State :=
  let t := if drain then s.set R.TRV_CTL_OBS_STOP 0 1 else s
  t.askReset warm cause drain

/-- An OP = COLD write is accepted (R374). -/
def State.mayCold (s : State) : Bool :=
  s.holds devSession roleSO || [0, 1, 4, 7].contains (s.get R.LC_STATE_CODE) || s.on R.TMP_STS_HALT || s.stage == 8

/-- GLB_RST_CMD with OP = COLD: not taken in END; in INVALID and while halted it is (R238, R263, R374). -/
def State.rstCold (s : State) (drain : Bool) : State :=
  if s.glb.powered ∧ 1 ≤ s.stage ∧ s.get R.LC_STATE_CODE ≠ 5 then
    (if s.mayCold then s.askDrain false 2 drain else s.writeDropped 0x000030)
  else s

/-! ## Power -/

/-- The power-good point (R369). -/
def State.powerUp (s : State) (boot : BootEnv) : State :=
  if s.glb.powered then s
  else
    let t := { s with glb := { s.glb with powered := true, pwrFail := false } }
    let u := (t.volatileReset false 1).goStage 0
    let v := { u with glb := { u.glb with boot := boot } }
    ((((v.set R.MGT_PIN_STS_PWR_FAIL_N 0 1).put1 R.MGT_PIN_STS_ZEROIZE_N (!v.tmp.zeroLow)).put1 R.MGT_PIN_STS_ALERT_N v.dose.alertHigh).set
      R.MGT_PIN_STS_PERST_A_N 0 1).set R.MGT_PIN_STS_PERST_B_N 0 1

/-- Main power falls away (R270): everything volatile is lost without a record; the battery domain goes on. -/
def State.mainPowerLoss (s : State) : State :=
  if !s.glb.powered then s
  else
    let t := (s.volatileReset false (s.get R.GLB_RST_STS_CAUSE)).goStage 0
    { t with
      glb := { boot := t.glb.boot }
      fb := { t.fb with pending := [], buffer := [], eventSlots := 0 }
      tmp := { t.tmp with uvArmed := false }
      fab := { t.fab with ram := t.fab.ram.filter (fun c => decide (0x08000000 ≤ c.1)) } }

/-- PWR_FAIL_N falls (R203, R235, R268, R307, R327): under-voltage is disarmed, the flush runs, and the nodes of the counter
tree are written back. -/
def State.pwrFall (s : State) : State :=
  if !s.glb.powered ∨ s.glb.pwrFail then s
  else
    let t := { s with glb := { s.glb with pwrFail := true }, tmp := { s.tmp with uvArmed := false } }
    ((t.set R.MGT_PIN_STS_PWR_FAIL_N 0 0).flush 1).nodesWritten

/-- PWR_FAIL_N rises with the rails in range: a cold reset at the next boundary, the flush being over (R391). -/
def State.pwrRise (s : State) : State :=
  if s.glb.powered ∧ s.glb.pwrFail then
    (({ s with glb := { s.glb with pwrFail := false } }).set R.MGT_PIN_STS_PWR_FAIL_N 0 1).askReset false 6 false
  else s

/-! ## PERST (R38, R372) -/

/-- PERST of a port asserted or released: a warm reset of a port in use, in joined mode when both are low; one alone is
link loss of its port. -/
def State.perst (s : State) (port : Nat) (level : Bool) : State :=
  let pin := if port = 0 then R.MGT_PIN_STS_PERST_A_N else R.MGT_PIN_STS_PERST_B_N
  let other := if port = 0 then R.MGT_PIN_STS_PERST_B_N else R.MGT_PIN_STS_PERST_A_N
  if !s.glb.powered then s
  else
    let fell := s.on pin && !level
    let t := s.put1 pin level
    if !fell ∨ t.portInReset port then t
    else
      let u := (t.set (linkField port) 0 0).set (if port = 0 then R.HIF_PORT_STS_RATE_A else R.HIF_PORT_STS_RATE_B) 0 0
      if u.get R.HIF_PORT_CTL_MODE = 2 ∧ u.on other then u.linkLoss port 8 else u.askReset true 8 false

/-! ## Clocks (R335 to R337) -/

/-- A clock fails (R335): in service the fatal path (R336), at any other time the safe-state wait (R337). The
other monitors act on what they watch: BKO, a host port, the Net, TREF where it is the reference (R333). -/
def State.clockFailure (s : State) (m kind count : Nat) : State :=
  if !s.glb.powered then s
  else if isClockFailure m then (if !s.clockInService then s.safeWait m kind count else if s.clk.fatal then s else s.clockFatal m kind count)
  else if m = 2 then s.bkoFailed kind count
  else if m = 6 ∨ m = 7 then (s.monitorFails m kind count).linkLoss (m - 6) 0xA
  else if m = 8 then netPorts.foldl (fun t p => t.portDown p 3) (s.monitorFails 8 kind count)
  else if m = 9 then
    let t := s.monitorFails 9 kind count
    if t.get R.CLK_TRIM_CFG_SRC = 1 ∨ t.get R.CLK_TRIM_CFG_SRC = 2 then t.refLost else t
  else s

/-- The fatal reset, 150 µs after a clock failure in service (R336). -/
def State.fatalReset (s : State) : State := if s.clk.fatal then s.queueWords.coldReset 5 s.bootAgain else s

/-- What monitor `m` finds in a window (R335): its count; a failure when the clock stands still, or is outside its limit in two
consecutive windows. -/
def State.monitorWindow (s : State) (edges : List Nat) (m : Nat) : State :=
  let n := s.windowCount edges m
  let out := s.windowOut edges m
  let stop := edges.getD m 0 = 0
  let t := match n with | some v => s.set R.CLK_MON_CNT_COUNT m v | none => s
  let was := bit s.clk.lastOut m
  let u := { t with clk := { t.clk with lastOut := if out == was then t.clk.lastOut else t.clk.lastOut ^^^ 2 ^ m } }
  if stop ∨ (out ∧ was) then
    if bit (u.get R.CLK_MON_STS_OK) m then
      u.clockFailure m (if stop then 1 else if s.monNominal m ≤ n.getD 0 then 2 else 3) (n.getD 0)
    else u
  else if out then u
  else u.monitors (u.get R.CLK_MON_STS_OK ||| 2 ^ m)

/-- A window of all monitors; in the safe-state wait, whether every one that failed passed it (R337). -/
def State.clockWindow (s : State) (edges : List Nat) : State :=
  let t := (List.range 8).foldl (fun t m => t.monitorWindow edges m) s
  let pass := (t.clk.safe.getD []).all (fun m => edges.getD m 0 != 0 && !t.windowOut edges m)
  { t with clk := { t.clk with passRun := if t.clk.safe.isSome && pass then t.clk.passRun + 1 else 0 } }

/-- Five windows with every clock at its nominal rate: what `clockWindow` makes of them. -/
def State.nominalWindows (s : State) : State :=
  let t := (List.range 8).foldl (fun t m => t.set R.CLK_MON_CNT_COUNT m (t.monNominal m)) s
  ({ t with clk := { t.clk with lastOut := 0, passRun := if t.clk.safe.isSome then t.clk.passRun + 5 else 0 } }).monitors
    (t.get R.CLK_MON_STS_OK ||| 0xFF)

/-- The monitors over a frame (R335). -/
def State.clockWindows (s : State) (env : FrameEnv) : State :=
  if env.windows = [] then s.nominalWindows else env.windows.foldl (fun t w => t.clockWindow w) s

/-- A monitor that passes or fails as a whole: the Net PHY PLL, TREF (R335). TREF that comes back, where it is the reference, ends
holdover (R333). -/
def State.monitorLevel (s : State) (m : Nat) (good : Bool) : State :=
  let was := bit (s.get R.CLK_MON_STS_OK) m
  if good == was then s
  else if !good then s.clockFailure m 0 (s.get R.CLK_MON_CNT_COUNT m)
  else
    let t := s.monitors (s.get R.CLK_MON_STS_OK + 2 ^ m)
    if m = 9 ∧ (t.get R.CLK_TRIM_CFG_SRC = 1 ∨ t.get R.CLK_TRIM_CFG_SRC = 2) then t.refReturn else t

/-- LOCK of a PLL; one in use that loses it is a clock failure of the clock it drives (R334), of none of the kinds of R344. -/
def State.pllLevel (s : State) (i : Nat) (lock : Bool) : State :=
  let f := if i = 0 then R.CLK_STS_CORE_LOCK else if i = 1 then R.CLK_STS_SEQ_LOCK else R.CLK_STS_DDR_LOCK
  let used := s.on (if i = 0 then R.CLK_MUX_CORE else if i = 1 then R.CLK_MUX_SEQ else R.CLK_MUX_DDR)
  let t := s.put1 f lock
  if s.on f ∧ !lock ∧ used then t.clockFailure (3 + i) 0 (t.get R.CLK_MON_CNT_COUNT (3 + i)) else t

/-- What the clock unit finds over a frame (R334, R335): the monitors run from stage 1 on (R369), and the PLLs have locked by stage 3. -/
def State.clockSample (s : State) (env : FrameEnv) : State :=
  let t := ((s.clockWindows env).monitorLevel 8 env.phyOk).monitorLevel 9 env.trefOk
  if s.stage < 3 then t
  else (List.range 3).foldl (fun u i => if u.clk.fatal ∨ u.clk.safe.isSome then u else u.pllLevel i (bit env.pllLock i)) t

/-- The end of the safe-state wait (R337): every monitor that failed has passed 16 consecutive windows, the last of them, up to five, in
the running frame (assumption 87). -/
def State.safeEnd (s : State) : State := if s.clk.safe.isSome ∧ 11 ≤ s.clk.passRun then s.askReset false 4 false else s

/-! ## The commands of the table -/

def execRstCold (drain : Bool) (s : State) : Host.Outcome State Fault Refusal := ok (s.rstCold drain)
def execRstWarm (drain : Bool) (s : State) : Host.Outcome State Fault Refusal :=
  ok (s.ifWritable 0x000030 (s.askDrain true 0xB drain))
/-- The drain of a requested reset has ended: the next boundary performs it. -/
def execResetDrainEnd (s : State) : Host.Outcome State Fault Refusal := ok (s.mark .resetDrain s.resetDrained)
def execColdReset (cause : Nat) (boot : BootEnv) (s : State) : Host.Outcome State Fault Refusal :=
  ok (if s.glb.powered then s.coldReset cause boot else s)
def execWarmReset (cause : Nat) (boot : BootEnv) (s : State) : Host.Outcome State Fault Refusal :=
  ok (if s.glb.powered ∧ s.warmAllowed then s.warmReset cause boot else s)
def execPowerUp (boot : BootEnv) (s : State) : Host.Outcome State Fault Refusal := ok (s.powerUp boot)
def execServiceReady (s : State) : Host.Outcome State Fault Refusal := ok (s.mark .serviceReady (s.readyNow && !s.on R.GLB_STS_SERVICE_READY))
def execPwrFail (s : State) : Host.Outcome State Fault Refusal := ok s.pwrFall
def execPwrFailRise (s : State) : Host.Outcome State Fault Refusal := ok s.pwrRise
def execPerst (portB level : Bool) (s : State) : Host.Outcome State Fault Refusal := ok (s.perst (portOf portB) level)
def execMainPowerLoss (s : State) : Host.Outcome State Fault Refusal := ok s.mainPowerLoss
def execClockFailure (monitor kind count : Nat) (s : State) : Host.Outcome State Fault Refusal :=
  ok (s.clockFailure monitor kind count)
def execFatalReset (s : State) : Host.Outcome State Fault Refusal := ok s.fatalReset
def execSafeStateWaitEnd (s : State) : Host.Outcome State Fault Refusal := ok s.safeEnd

end Sys2Proof.Machine
end

