-- ==== Sys2Proof/Machine/Cfg.lean ====
section
/-! DEFINITION. Staged configuration (R375 to R377): the staged set, what CHECK tests, COMMIT and DISCARD. -/

namespace Sys2Proof.Machine

/-! ## The staged set -/

/-- The value a field has after a commit: its shadow, else the value in effect (R375). -/
def State.stg (s : State) (f : Field) (i : Nat := 0) : Nat :=
  match Tab.get 0 s.shadows (f.key i) with
  | 0 => s.get f i
  | v + 1 => v

/-- A field is shadowed. -/
def State.hasShadow (s : State) (f : Field) (i : Nat := 0) : Bool := Tab.get 0 s.shadows (f.key i) != 0

/-- A shadow written under the session given, or under none (R245, R375). -/
def State.shadow (s : State) (f : Field) (i v : Nat) (sess : Option Nat) : State :=
  { s with
    shadows := Tab.put 0 s.shadows (f.key i) (v % 2 ^ f.width + 1)
    cover := Tab.put 0 s.cover (f.key i) (match sess with | some id => id + 1 | none => 0) }

/-- The offsets of the registers with a shadow, in order. -/
def State.stagedOffs (s : State) : List Nat := (s.shadows.map (fun e => e.1 / 64)).eraseDups

/-- The context block of a slice after the commit, and whether the slice is enabled then (R41, R42). -/
def State.ctxAfter (s : State) (n : Nat) : SliceCtx × Bool :=
  let sl := s.slice n
  match s.hif.staged.find? (fun e => e.1 == n) with
  | some (_, c) => (c, sl.st == .ready || c.enable)
  | none => (sl.ctx, sl.st != .disabled)

/-- The slices enabled after the commit. -/
def State.enabledAfter (s : State) : List Nat :=
  ((s.sliceNos ++ s.hif.staged.map Prod.fst).eraseDups).filter (fun n => (s.ctxAfter n).2)

/-! ## What CHECK tests (R375): violations as (KIND, OFFSET) -/

/-- A violation when `b` holds. -/
def viol (b : Bool) (kind off : Nat) : List (Nat × Nat) := if b then [(kind, off)] else []

/-- Private DRAM present, in units of 256 MB (R296). -/
def State.dramUnits (s : State) : Nat := 4 * (s.get R.MSC_DRAM_STS_SIZE0 + s.get R.MSC_DRAM_STS_SIZE1)

/-- Slice contexts (R42); OFFSET is that of the first register involved (R378). -/
def State.checkSlices (s : State) : List (Nat × Nat) :=
  let on := s.enabledAfter
  let mode := s.stg R.HIF_PORT_CTL_MODE
  on.flatMap (fun n =>
    let c := (s.ctxAfter n).1
    let old := s.slice n
    let off := 0x011000 + 4 * n
    (match on.find? (fun m => decide (m < n) && (s.ctxAfter m).1.pasid == c.pasid) with
      | some m => [(2, 0x011000 + 4 * m)]
      | none => [])
      ++ viol ((mode == 0 && c.home == 1) || (mode == 1 && c.home == 0)) 2 0x010000
      ++ viol (old.st != .disabled && old.ctx.logEn && c.logEn && (old.ctx.logBase != c.logBase || old.ctx.logSize != c.logSize)) 3 off)

/-- Shares (R85). -/
def State.checkShares (s : State) : List (Nat × Nat) :=
  let sum := s.enabledAfter.foldl (fun n k => n + s.stg R.TRV_SLICE_SHARE_GUAR k) 0
  let first := (s.stagedOffs.find? (fun o => inRange o 0x021000 0x022000)).getD 0x021000
  viol (decide (256 < sum)) 2 first
    ++ (List.range 1024).flatMap (fun n =>
      viol (decide (s.stg R.TRV_SLICE_SHARE_CAP n < s.stg R.TRV_SLICE_SHARE_GUAR n)) 2 (0x021000 + 4 * n))

/-- The budget and the base after the commit, and whether the fixed base rises (R85, R339). -/
def State.stagedDose (s : State) : Nat × Nat × Bool :=
  let b := s.budgetFor (s.stg R.DOSE_BUDGET_WATTS) (s.stg R.DOSE_RAIL_CFG_LIMIT 0) (s.stg R.DOSE_RAIL_CFG_LIMIT 1)
  let v := s.stg R.DOSE_BASE_CFG_VALUE
  (b, v, s.stg R.DOSE_BASE_CFG_FIXED == 1 && (!s.on R.DOSE_BASE_CFG_FIXED || decide (s.get R.DOSE_BASE_CFG_VALUE < v)))

/-- Dose capacity below the units reserved in a frame of the calendar (R85). -/
def State.checkDose (s : State) : List (Nat × Nat) :=
  let (b, v, up) := s.stagedDose
  if b < s.budget ∨ up then
    let t := s.lowerDose b v up
    let first := (s.stagedOffs.find? (fun o => inRange o 0x120004 0x12011C)).getD 0x120004
    viol ((List.range 256).any (fun k =>
      decide (Tab.get 0 t.trv.doseAdm (s.frameNo + k) < s.reserved (s.frameNo + k) resDose))) 3 first
  else []

/-- Two half-open ranges share an address. -/
def overlaps (a n b m : Nat) : Bool := decide (a < b + m ∧ b < a + n)

/-- Base and size of region `r` of group `g` after the commit, or `none` when it is not valid. -/
def State.stgRegion (s : State) (k : Nat) : Option (Nat × Nat) :=
  if s.stg R.GRD_RGN_VALID k = 1 then some (s.stg R.GRD_RGN_BASE k * 4096, 2 ^ s.stg R.GRD_RGN_SIZE k) else none

/-- Region descriptors (R285). -/
def State.checkRegions (s : State) : List (Nat × Nat) :=
  (List.range 8).flatMap (fun g =>
    let rs := (List.range 64).filterMap (fun r => (s.stgRegion (64 * g + r)).map (fun x => (64 * g + r, x.1, x.2)))
    rs.flatMap (fun e =>
      let (k, base, size) := e
      let off := 0x0D1000 + 8 * k
      let z := s.stg R.GRD_RGN_SIZE k
      viol (decide (z < 12 ∨ 32 < z)) 1 off ++ viol (base % size != 0) 2 off ++ viol (decide (2 ^ 40 < base + size)) 2 off
        ++ (rs.filter (fun x => decide (x.1 < k) && overlaps x.2.1 x.2.2 base size)).map (fun x => (2, 0x0D1000 + 8 * x.1))))

/-- The map of private DRAM and the second tier (R295, KS_T2_CFG). -/
def State.checkMaps (s : State) : List (Nat × Nat) :=
  let es := (List.range 16).filter (fun j => s.stg R.MSC_MAP_VALID j == 1)
  let base (j : Nat) : Nat := s.stg R.MSC_MAP_BASE j
  let size (j : Nat) : Nat := s.stg R.MSC_MAP_SIZE j
  let key (j : Nat) : Nat := s.stg R.MSC_MAP_KEYID j
  let tb := s.stg R.KS_T2_CFG_BASE
  let ts := s.stg R.KS_T2_CFG_SIZE
  es.flatMap (fun j =>
    let off := 0x0E0100 + 8 * j
    viol (decide (size j < 1 ∨ 512 < size j)) 1 off
      ++ (es.filter (fun i => decide (i < j) && overlaps (base i) (size i) (base j) (size j))).map (fun i => (2, 0x0E0100 + 8 * i))
      ++ viol (decide (s.dramUnits < base j + size j)) 3 off
      ++ viol (key j == 0 || !s.keyActive (key j)) 3 off
      ++ (es.filter (fun i => decide (i < j) && key i == key j)).map (fun i => (2, 0x0E0100 + 8 * i))
      ++ viol (s.on R.MSC_MAP_VALID j && s.get R.MSC_MAP_KEYID j != key j) 3 off)
    ++ viol (decide (32 < ts)) 1 0x080018
    ++ viol (ts != 0 && decide (s.dramUnits < tb + ts)) 3 0x080018
    ++ viol (ts != 0 && !es.any (fun j => decide (base j ≤ tb ∧ tb + ts ≤ base j + size j))) 2 0x080018

/-- The trim reference a member's role asks for (R360): a member with no direct path to the benchmark is tunnelled (R368). -/
def State.srcAllowed (s : State) (src : Nat) : Bool :=
  if !s.on R.NET_STS_MEMBER then true
  else if s.on R.NET_STS_BENCH then
    (if s.others.any (fun i => s.get R.NET_MEMBER_PATH i == 2) then src == 2 else src == 0 || src == 1)
  else if s.get R.NET_MEMBER_PATH s.net.bench = 1 then src == 3
  else src == 2

/-- The clocks (R338, R360). -/
def State.checkClocks (s : State) : List (Nat × Nat) :=
  let now := s.get R.CLK_GATE_ON
  let then_ := s.stg R.CLK_GATE_ON
  let off (i : Nat) : Bool := bit now i && !bit then_ i
  viol (s.on R.GLB_STS_SERVICE_READY && (List.range 6).any off) 3 0x110018
    ++ viol (off 8 && (List.range 7).any (fun r => s.stg R.DOSE_RAIL_CFG_EN r == 1)) 2 0x110018
    ++ viol (!s.srcAllowed (s.stg R.CLK_TRIM_CFG_SRC)) 3 0x110004

/-- Every staged register against the ranges of its field map, and the conditions on one register alone. -/
def State.checkReg (s : State) (o : Nat) : List (Nat × Nat) :=
  if o = 0x010000 then viol (s.stg R.HIF_PORT_CTL_MODE == 3) 1 o
  else if o = 0x02000C then viol (decide (0x10FC00 < s.stg R.TRV_WB_LIMIT_BYTES)) 1 o
  else if inRange o 0x021000 0x022000 then
    let n := (o - 0x021000) / 4
    viol (decide (256 < s.stg R.TRV_SLICE_SHARE_CAP n ∨ 256 < s.stg R.TRV_SLICE_SHARE_GUAR n)) 1 o
  else if inRange o 0x031000 0x032000 then
    let n := (o - 0x031000) / 4
    let lo := s.stg R.TU_SLICE_POLICY_MIN_PIN n
    let hi := s.stg R.TU_SLICE_POLICY_MAX_PIN n
    viol (decide (lo < 4 ∨ 12 < lo ∨ hi < 4 ∨ 12 < hi)) 1 o ++ viol (decide (hi < lo)) 2 o
  else if inRange o 0x081000 0x083000 then
    let z := s.stg R.KS_SLICE_TAB_SIZE ((o - 0x081000) / 8)
    viol (z != 0 && decide (z < 10 ∨ 23 < z)) 1 o
  else if inRange o 0x083000 0x085000 then
    let z := s.stg R.KS_SLICE_ETAB_ESIZE ((o - 0x083000) / 8)
    viol (z != 0 && decide (z < 10 ∨ 22 < z)) 1 o
  else if o = 0x090000 then
    let en := s.stg R.RNG_CTL_CELL_EN
    viol (decide (popCount 8 en < 4)) 1 o
      ++ viol (match s.rng.tap with | some c => !bit en c | none => false) 3 o
  else if o = 0x0C0020 ∨ o = 0x0C0028 then
    viol (!([0, 1, 2, 4].contains (s.get R.LC_STATE_CODE))) 4 o
  else if inRange o 0x0F1000 0x0F1400 then
    let i := (o - 0x0F1000) / 4
    viol (s.stg R.FB_DIAG_SEL_OFFSET i % (if s.stg R.FB_DIAG_SEL_W64 i = 1 then 8 else 4) != 0) 1 o
  else if o = 0x120004 then
    viol (decide (s.stg R.DOSE_BUDGET_WATTS < 40 ∨ 150 < s.stg R.DOSE_BUDGET_WATTS)) 1 o
  else if inRange o 0x120100 0x12011C then
    let r := (o - 0x120100) / 4
    viol (decide (s.otpEntry 0x12 r < s.stg R.DOSE_RAIL_CFG_LIMIT r)) 1 o
  else if o = 0x130028 then viol (decide (s.stg R.NET_TUN_TX_SIZE < 4)) 1 o
  else if o = 0x130030 then viol (decide (s.stg R.NET_TUN_RX_SIZE < 4)) 1 o
  else if inRange o 0x131000 0x132000 then
    let n := (o - 0x131000) / 4
    let now := s.on R.NET_SLICE_REPL n
    let want := s.stg R.NET_SLICE_REPL n == 1
    viol (!s.isHome n && (now || want) && (now || !s.on R.NET_STS_MEMBER || (s.domain n).present)) 3 o
  else []

/-- Every violation of the staged set, block by block. -/
def State.violations (s : State) : List (Nat × Nat) :=
  s.stagedOffs.flatMap s.checkReg ++ s.checkSlices ++ s.checkShares ++ s.checkMaps ++ s.checkRegions ++ s.checkClocks ++ s.checkDose

/-! ## The operations of GLB_CFG_CMD (R375, R376) -/

/-- A write of GLB_CFG_CMD. -/
def State.cfgCommand (s : State) (op : Nat) : State :=
  let err (e : Nat) : State := s.set R.GLB_CFG_STS_ERR 0 e
  if s.on R.GLB_CFG_STS_BUSY then s
  else if s.stage < 4 then err 2
  else if op = 0 ∨ 3 < op then err 1
  else if op = 2 ∧ !(s.on R.GLB_CFG_STS_PASSED && s.glb.clean && !s.on R.GLB_CFG_STS_STALE) then err 3
  else
    let t := (err 0).set R.GLB_CFG_STS_BUSY 0 1
    { t with glb := { t.glb with cfg := some (op, false) } }

/-- One shadow takes effect. -/
def State.commitField (s : State) (key v : Nat) : State :=
  match regAt (key / 64) with
  | some (r, i) =>
    match r.fields.find? (fun f => f.lo == key % 64) with
    | some f => s.set f i v
    | none => s
  | none => s

/-- A slice becomes replicated, with this member its home, or stops being so (R362). -/
def State.replCommitted (s : State) (old : State) (n : Nat) : State :=
  let was := old.on R.NET_SLICE_REPL n
  let now := s.on R.NET_SLICE_REPL n
  if now ∧ !was then s.set R.NET_SLICE_HOME n (s.get R.NET_STS_ID)
  else if was ∧ !now then
    let t := s.modRepl n (fun _ => {})
    ((t.set R.NET_SLICE_HOME n 0).set R.NET_SLICE_PEND n 0).set R.NET_SLICE_LEASE_OK n 0
  else s

/-- A port that the port mode puts in reset has no link (R37). -/
def State.portHeld (s : State) (port : Nat) : State :=
  if s.portInReset port then
    let t := s.set (linkField port) 0 0
    if port = 0 then (t.set R.HIF_PORT_STS_RATE_A 0 0).set R.HIF_PORT_STS_WIDTH_A 0 0
    else (t.set R.HIF_PORT_STS_RATE_B 0 0).set R.HIF_PORT_STS_WIDTH_B 0 0
  else s

/-- What follows in other state from the fields a commit changed: cells, the trim, the second tier, failed descriptors,
ports, replicated slices and Dose capacity (R37, R196, R227, R286, R333, R339, R362). -/
def State.commitFollows (s old : State) : State :=
  let offs := old.stagedOffs
  let s1 := if offs.contains 0x090000 then s.cellsEnabled else s
  let s2 := if s.get R.CLK_TRIM_CFG_SRC = old.get R.CLK_TRIM_CFG_SRC then s1 else s1.trimRestart
  let s3 := if s.get R.KS_T2_CFG_BASE = old.get R.KS_T2_CFG_BASE ∧ s.get R.KS_T2_CFG_SIZE = old.get R.KS_T2_CFG_SIZE
      ∧ s.on R.KS_CTL_T2_EN then s2
    else { s2 with ks := { s2.ks with tier2 := [] } }
  let s4 := { s3 with fab := { s3.fab with
    descOff := s3.fab.descOff.filter (fun e => !offs.contains (0x0D1000 + 8 * e.1))
    descBad := s3.fab.descBad.filter (fun i => !offs.any (fun o => inRange o (0x0D1000 + 0x200 * (i / 64)) (0x0D1200 + 0x200 * (i / 64)))) } }
  let s5 := (s4.portHeld 0).portHeld 1
  let s6 := (offs.filter (fun o => inRange o 0x131000 0x132000)).foldl (fun t o => t.replCommitted old ((o - 0x131000) / 4)) s5
  let (b, v, up) := old.stagedDose
  if b < old.budget ∨ up then s6.lowerDose b v up else s6

/-- The staged set discarded: every shadow takes the value in effect (R375). -/
def State.unstage (s : State) : State :=
  { s with shadows := [], cover := [], hif := { s.hif with staged := [] } }

/-- COMMIT at its boundary (R376): the conditions of kind 3 again; then every shadow and every LOAD, or none. -/
def State.commitNow (s : State) : State :=
  let t := (s.set R.GLB_CFG_STS_BUSY 0 0).set R.GLB_CFG_STS_COMMIT_FAIL 0 0
  if s.violations.any (fun v => v.1 == 3) then t.set R.GLB_CFG_STS_COMMIT_FAIL 0 1
  else
    let u := s.shadows.foldl (fun w e => w.commitField e.1 (e.2 - 1)) t
    let v := (u.commitFollows s).applyLoads
    v.unstage.set R.GLB_CFG_FRAME_FRAME 0 s.frameNo

/-- Event 1 of R9: an accepted COMMIT or DISCARD takes effect. -/
def State.cfgEvent (s : State) : State :=
  match s.glb.cfg with
  | some (2, _) => ({ s with glb := { s.glb with cfg := none } }).commitNow
  | some (3, _) => (({ s with glb := { s.glb with cfg := none } }).unstage).set R.GLB_CFG_STS_BUSY 0 0
  | _ => s

/-- The violations listed, up to 16 (R375). -/
def State.listViolations (s : State) (vs : List (Nat × Nat)) : State :=
  (List.range 16).foldl (fun t i =>
    match vs[i]? with
    | some (k, o) => ((t.set R.GLB_CFG_VIOL_VALID i 1).set R.GLB_CFG_VIOL_KIND i k).set R.GLB_CFG_VIOL_OFFSET i o
    | none => ((t.set R.GLB_CFG_VIOL_VALID i 0).set R.GLB_CFG_VIOL_KIND i 0).set R.GLB_CFG_VIOL_OFFSET i 0) s

/-- After every event of a boundary: a CHECK accepted in the frame before begins, one that began a frame ago is finished
and raises vector 13. -/
def State.cfgCheckNow (s : State) : State :=
  match s.glb.cfg with
  | some (1, false) =>
    let vs := s.violations
    let t := { s with glb := { s.glb with cfg := some (1, true), clean := true } }
    let u := ((t.set R.GLB_CFG_STS_STALE 0 0).set R.GLB_CFG_STS_LATE 0 0).listViolations vs
    (u.set R.GLB_CFG_STS_COUNT 0 (min 255 vs.length)).put1 R.GLB_CFG_STS_PASSED vs.isEmpty
  | some (1, true) => (({ s with glb := { s.glb with cfg := none } }).set R.GLB_CFG_STS_BUSY 0 0).raise 13
  | _ => s

/-! ## The commands of the table -/

def execCfgCheck (s : State) : Host.Outcome State Fault Refusal := ok (s.ifWritable 0x000048 (s.cfgCommand 1))
def execCfgCommit (s : State) : Host.Outcome State Fault Refusal := ok (s.ifWritable 0x000048 (s.cfgCommand 2))
def execCfgDiscard (s : State) : Host.Outcome State Fault Refusal := ok (s.ifWritable 0x000048 (s.cfgCommand 3))

end Sys2Proof.Machine
end

