-- ==== Sys2Proof/Machine/RegWrite.lean ====
section
/-! DEFINITION. Register accesses (R10 to R14, R55, R121, R245, R263, R274, R280, R287, R375, R381, R382): who may write what,
the effect of a write by the access type of each field, and the fabric path to the registers. -/

namespace Sys2Proof.Machine

/-! ## Accesses that reach no register (R10, R14) -/

/-- The width of the access is not the register's, or it is not aligned (R10, R379). -/
def badShape (off width : Nat) : Bool :=
  match regAt off with
  | some (r, _) => width != (if r.wide then 8 else 4)
  | none =>
    (match regAt (off - 4) with | some (r, _) => r.wide && decide (4 ≤ off) | none => false)
      || (width != 4 && width != 8) || off % width != 0

/-- The GLB identity registers: GLB_ID, GLB_DEVICE_ID, GLB_CAP0 and GLB_CAP1. -/
def identityReg (off : Nat) : Bool := off == 0 || off == 8 || off == 0x10 || off == 0x18 || off == 0x1C

/-- The registers that still read: every one in service; in stage 1 (R369) and in END and INVALID the identity, LC_STATE and LC_TOKEN (R238); while
halted after a tamper response the TMP, FB and LC blocks, the identity, GLB_STS and GLB_RST_STS (R263). -/
def State.readable (s : State) (off : Nat) : Bool :=
  if s.stage = 0xB ∨ s.stage = 1 then identityReg off || off == 0x0A0000 || off == 0x0A0004
  else if s.on R.TMP_STS_HALT then
    identityReg off || off == 0x20 || off == 0x34 || off / 0x10000 == 0x0C || off / 0x10000 == 0x0F || off / 0x10000 == 0x0A
  else decide (2 ≤ s.stage)

/-- What the administrative function reads at a BAR0 offset with an access of `width` bytes (R10, R14, R238, R263). -/
def State.bar0Read (s : State) (off width : Nat) : Nat :=
  if badShape off width || s.gated off || !s.readable off then 0 else s.view off

/-- An access of the wrong width or alignment reads zero or is dropped; the first since the cold reset is recorded. From
stage 1 on accesses reach the device (R369). -/
def State.badAccess (s : State) (off width : Nat) (isWrite : Bool) : State :=
  if !s.glb.powered ∨ s.stage = 0 ∨ s.glb.badSeen ∨ !badShape off width then s
  else ({ s with glb := { s.glb with badSeen := true } }).record 0x0203 1 devScope off width (b2n isWrite)

/-- The master group of a source (R275). -/
def groupOf : Src → Nat
  | .corePriv => 0 | .core => 1 | .admin => 2 | .tamp => 5 | .debug => 7

/-- The master number a violation of a source names: 1,024 for the administrative function (R14), 1 for Tamp (R275); the commands of
the table name no core. -/
def masterOf : Src → Nat
  | .admin => 1024 | .tamp => 1 | _ => 0

/-- An access to a block whose clock gate is off: the guard of the group captures it with cause GATED (R14). -/
def State.gatedAccess (s : State) (src : Src) (off : Nat) (isWrite : Bool) : State :=
  if s.glb.powered ∧ (regAt off).isSome ∧ s.gated off then s.violate (groupOf src) 1 (b2n isWrite) (0x10000000 + off) (masterOf src) 0 else s

/-! ## Fields by access type (R11) -/

/-- A write to an ST field: staged, unless a GLB_CFG_CMD operation runs (R375, R377). -/
def State.stageField (s : State) (f : Field) (i v : Nat) (sess : Option Nat) : State :=
  if s.on R.GLB_CFG_STS_BUSY then s.set R.GLB_CFG_STS_LATE 0 1 else (s.shadow f i v sess).touchStaged

/-- What a register write does to one field. -/
def State.writeField (s : State) (sess : Option Nat) (f : Field) (i word : Nat) : State :=
  let v := word / 2 ^ f.lo % 2 ^ f.width
  match f.acc with
  | .rw | .rws => s.set f i v
  | .w1c => s.set f i (s.get f i ^^^ (s.get f i &&& v))
  | .w1s => s.set f i (s.get f i ||| v)
  | .st => s.stageField f i v sess
  | .ro | .wo => s

/-- A write of every field of a register by its access type (R11, R13); nothing where no register lies (R14). -/
def State.writeFields (s : State) (sess : Option Nat) (off word : Nat) : State :=
  match regAt off with
  | some (r, i) => r.fields.foldl (fun t f => t.writeField sess f i word) s
  | none => s

/-- The W1C fields of a register alone. -/
def State.writeClears (s : State) (off word : Nat) : State :=
  match regAt off with
  | some (r, i) => (r.fields.filter (fun f => f.acc == .w1c)).foldl (fun t f => t.writeField none f i word) s
  | none => s

/-! ## Who may write (R287) -/

/-- GRD and MSC registers take RW, ST and WO writes from privileged control cores only (R287). -/
def guardOwned (off : Nat) : Bool := off / 0x10000 == 0x0D || off / 0x10000 == 0x0E

/-- A write R287 keeps out: of the administrative function, the W1C fields act, the rest is dropped and recorded; of a core in user
mode, of Tamp and of the debug master, nothing acts. -/
def State.guardKept (s : State) (src : Src) (off word : Nat) : State :=
  if src ≠ .admin then s else
  let t := s.writeClears off word
  let only := match regAt off with | some (r, _) => r.fields.all (fun f => f.acc == .w1c || f.acc == .ro) | none => true
  if !only then t.writeDropped off else t

/-! ## Enables, the battery's events, staged registers with a session -/

/-- The IRQ_EN registers: offset, field, the offset of the status register, and the vector. -/
def irqTable : List (Nat × Field × Nat × Nat) := [
  (0x010028, R.HIF_IRQ_EN_EN, 0x010020, 0),
  (0x02002C, R.TRV_IRQ_EN_EN, 0x020028, 1),
  (0x080028, R.KS_IRQ_EN_EN, 0x080020, 2),
  (0x090010, R.RNG_IRQ_EN_EN, 0x090008, 3),
  (0x0A001C, R.LC_IRQ_EN_EN, 0x0A0018, 4),
  (0x0C0014, R.TMP_IRQ_EN_EN, 0x0C0008, 5),
  (0x0D0004, R.GRD_IRQ_EN_EN, 0x0D0000, 6),
  (0x0E0030, R.MSC_IRQ_EN_EN, 0x0E0020, 7),
  (0x0F0058, R.FB_IRQ_EN_EN, 0x0F0054, 8),
  (0x10002C, R.UPD_IRQ_EN_EN, 0x100028, 9),
  (0x110028, R.CLK_IRQ_EN_EN, 0x110020, 10),
  (0x120020, R.DOSE_IRQ_EN_EN, 0x120018, 11),
  (0x130020, R.NET_IRQ_EN_EN, 0x130018, 12)]

/-- The enables, the status register and the vector of the IRQ_EN register at `off`. -/
def irqOf (off : Nat) : Option (Field × Nat × Nat) := (irqTable.find? (fun e => e.1 == off)).map Prod.snd

/-- A write of TMP_BAT_EVT (R274): in SERVICE it needs a session. -/
def State.batEvtWrite (s : State) (word : Nat) : State :=
  if s.get R.LC_STATE_CODE = 3 ∧ !s.holds devSession roleSO then s.writeDropped 0x0C000C else s.writeFields none 0x0C000C word

/-- A write of TU_SLICE_POLICY[n] (R121): staged under a Security Officer session of the slice only. -/
def State.policyWrite (s : State) (n word : Nat) : State :=
  let off := 0x031000 + 4 * n
  if s.holds n roleSO then s.writeFields (some (s.session n).id) off word else s.writeDropped off

/-- A write of LC_DBG_POLICY (R246). -/
def State.dbgPolicyWrite (s : State) (word : Nat) : State :=
  if s.holds devSession roleSO then s.writeFields (some (s.session devSession).id) 0x0A0028 word else s.writeDropped 0x0A0028

/-- A write of TMP_MESH_CFG or TMP_TS_CFG (R265, R266): dropped in SERVICE. -/
def State.sealedWrite (s : State) (off word : Nat) : State :=
  if s.get R.LC_STATE_CODE = 3 then s.writeDropped off else s.writeFields none off word

/-- A write of NET_SLICE[n]: REPL is read-only on members other than the home (R362). -/
def State.netSliceWrite (s : State) (n word : Nat) : State :=
  if s.on R.NET_SLICE_REPL n ∧ !s.isHome n then s else s.writeFields none (0x131000 + 4 * n) word

/-! ## Command registers -/

/-- What host memory holds where a command register points: outside the device, so free bytes (assumption 53). -/
def State.hostMemory (s : State) (n : Nat) : Bytes × State := s.randomBytes n

/-- HIF_SLICE_CMD (R64). -/
def State.sliceCmdWrite (s : State) (word : Nat) : State :=
  let n := bits word 9 0
  match bits word 31 28 with
  | 1 => s.sliceLoad n
  | 2 => s.sliceCmd n .reset
  | 3 => s.sliceCmd n .quiesce
  | 4 => s.sliceCmd n .resume
  | 5 => s.sliceCmd n .disable
  | _ => if s.on R.HIF_SLICE_CMD_STS_BUSY then s else s.sliceErr 1

/-- LC_DBG_CMD (R249, R250). -/
def State.dbgCmdWrite (s : State) (word : Nat) : State :=
  match bits word 31 28 with
  | 1 => s.dbgChallenge (bits word 3 0)
  | 2 => let (b, t) := s.hostMemory 224; t.dbgRespond (bits word 3 0) (some b)
  | _ => if s.on R.LC_DBG_STS_BUSY then s else s.dbgReply 1

/-- LC_OTP_CMD (R254). -/
def State.otpCmdWrite (s : State) (word : Nat) : State :=
  match bits word 31 28 with
  | 1 => s.otpProgram (bits word 7 0)
  | 2 => s.otpRead (bits word 7 0)
  | _ => if s.on R.LC_OTP_STS_BUSY then s else s.otpErr 1

/-- QU_CMD (R241 to R244, R257). -/
def State.quCmdWrite (s : State) (word : Nat) : State :=
  let scope := bits word 10 0
  let roles := bits word 27 24
  let life := bits word 23 16
  match bits word 31 28 with
  | 1 => s.quOpen scope roles life
  | 2 => let (b, t) := s.hostMemory 256; t.quSign scope (some b)
  | 3 => s.quClose scope
  | 4 => let (b, t) := s.hostMemory 128; t.quEdit 4 scope 0 0 (some b)
  | 5 => s.quEdit 5 scope roles life none
  | 6 => let (b, t) := s.hostMemory 4; t.quEdit 6 scope 0 0 (some b)
  | _ => if s.on R.QU_CMD_STS_BUSY then s else s.quReply 1

/-- UPD_CMD (R324). -/
def State.updCmdWrite (s : State) (word : Nat) : State :=
  let op := bits word 31 28
  if op = 1 ∨ op = 2 then
    let (b, t) := s.hostMemory 65536
    t.updCommand op (bits word 10 0) (some b)
  else s.updCommand op 0 none

/-- NET_CMD (R357). -/
def State.netCmdWrite (s : State) (word : Nat) : State :=
  let op := bits word 31 28
  let c : NetCmd := { op := op, member := bits word 27 16, arg := bits word 9 0, auto := bit word 15 }
  if op = 3 ∨ op = 4 then
    let (b, t) := s.hostMemory 16448
    t.netCommand { c with records := some (b.take 16384, b.drop 16384) }
  else s.netCommand c

/-- The registers whose write does more than set their fields. -/
def State.specialWrite (s : State) (src : Src) (off word : Nat) : Option State :=
  if off = 0x010010 then some (s.sliceCmdWrite word)
  else if off = 0x010018 then some (s.logAcked (bits word 9 0) (bits word 63 32))
  else if off = 0x030000 then some (if bit word 0 then s.storeLock .recipe src else s)
  else if off = 0x030008 then some (s.storeIdx .recipe (bits word 14 0))
  else if off = 0x030010 then some (s.storeData .recipe src word)
  else if inRange off 0x031000 0x032000 then some (s.policyWrite ((off - 0x031000) / 4) word)
  else if off = 0x050000 then some (if bit word 0 then s.storeLock .pkRoutine src else s)
  else if off = 0x050008 then some (s.storeIdx .pkRoutine (bits word 15 0))
  else if off = 0x050010 then some (s.storeData .pkRoutine src word)
  else if off = 0x060000 then some (if bit word 0 then s.storeLock .luRoutine src else s)
  else if off = 0x060008 then some (s.storeIdx .luRoutine (bits word 14 0))
  else if off = 0x060010 then some (s.storeData .luRoutine src word)
  else if off = 0x080008 then some (s.datumWrite (bits word 31 28))
  else if off = 0x08000C then some (s.domainCmd (bits word 31 28) (bits word 9 0))
  else if off = 0x080014 then some (if bits word 31 28 = 1 then s.idGenerate else if s.on R.KS_CMD_STS_BUSY then s else s.ksReply 1)
  else if off = 0x090040 then some (s.rawCtl word)
  else if off = 0x0A0014 then some (s.lcZeroize (bits word 31 28))
  else if off = 0x0A0020 then some (s.dbgCmdWrite word)
  else if off = 0x0A0028 then some (s.dbgPolicyWrite word)
  else if off = 0x0A0040 then some (s.otpCmdWrite word)
  else if off = 0x0B0004 then some (s.quCmdWrite word)
  else if off = 0x0C000C then some (s.batEvtWrite word)
  else if off = 0x0C0020 ∨ off = 0x0C0028 then some (s.sealedWrite off word)
  else if inRange off 0x0D0108 0x0D0180 ∧ (off - 0x0D0108) % 16 = 0 then
    some (if bit word 31 then s.violClear ((off - 0x0D0108) / 16) else s)
  else if off = 0x0E0008 then some (s.mscCommand (bits word 31 28) (bits word 3 0) (bits word 15 8))
  else if inRange off 0x0E0200 0x0E0300 ∧ [2, 3, 5, 6].contains ((off - 0x0E0200) / 32) then some s
  else if off = 0x0F0008 then some (s.fbCommand (bits word 31 28) (bit word 27) (bit word 26) (bits word 10 0))
  else if off = 0x100004 then some (s.updCmdWrite word)
  else if off = 0x110010 then some (s.muxWrite src word)
  else if off = 0x130008 then some (s.netCmdWrite word)
  else if inRange off 0x130100 0x130110 ∧ !s.portPresent ((off - 0x130100) / 4) then some s
  else if inRange off 0x131000 0x132000 then some (s.netSliceWrite ((off - 0x131000) / 4) word)
  else if off = 0x000048 then some (s.cfgCommand (bits word 31 28))
  else match irqOf off with
    | some (en, sts, vec) => some (s.writeIrqEn en sts vec (word % 2 ^ 32))
    | none => none

/-- A register write the block takes (R11). -/
def State.writeReg (s : State) (src : Src) (off word : Nat) : State :=
  let violInfo := inRange off 0x0D0108 0x0D0180 && (off - 0x0D0108) % 16 == 0
  if guardOwned off ∧ src ≠ .corePriv ∧ !(violInfo && src == .admin) then s.guardKept src off word
  else
    match s.specialWrite src off word with
    | some t => t
    | none => s.writeFields none off word

/-- A register write as it arrives: where no register lies, or to a gated block (R14); of GLB_RST_CMD, of LC_TRANSITION, of TMP_EVT_STS and of KS_DATUM_CMD, which a
halted or ended device takes as R238, R263 and R374 say; and any other. -/
def State.regWrite (s : State) (src : Src) (off word : Nat) : State :=
  if (regAt off).isNone then s
  else if s.gated off then s.gatedAccess src off true
  else if off = 0x000030 then
    (match bits word 31 28 with
     | 1 => s.rstCold (bit word 0)
     | 2 => s.ifWritable off (s.askDrain true 0xB (bit word 0))
     | _ => s)
  else if off = 0x0A0008 then (if s.lcWritable then s.lcTransition word else s)
  else if off = 0x0C0008 ∧ s.on R.TMP_STS_HALT then s.writeFields none off word
  else if off = 0x080008 then s.datumWrite (bits word 31 28)
  else s.ifWritable off (s.writeReg src off word)

/-! ## The fabric path (R23, R280, R382) -/

/-- The source of a fabric access to the registers. -/
def srcOf (group master : Nat) : Src :=
  if group = 0 then .corePriv
  else if group = 5 ∧ master = 1 then .tamp
  else if group = 7 then .debug
  else if group = 2 then .admin
  else .core

/-- A piece that reached the register space. -/
def State.regPiece (s : State) (a : FabricAcc) (off : Nat) : State :=
  if badShape off a.len then
    let t := s.badAccess off a.len (a.op == 1)
    { t with fab := { t.fab with reply := { data := if a.op = 1 then [] else fill a.len 0 } } }
  else if a.op = 1 then
    let t := s.regWrite (srcOf a.group a.master) off (ofLE (fitTo a.len a.data))
    { t with fab := { t.fab with reply := {} } }
  else
    let t := if off = 0x080088 then s.idRead else s
    let u := if off = 0x100020 then t.resolveFloor else t
    { u with fab := { u.fab with reply := { data := toLE a.len (u.view off) } } }

/-- Host slices have no access to the registers (R16): a piece of a slice master, numbers 0 to 1,023 of the HIF group (R275),
matches no region there, whatever the regions say (assumption 41). -/
def sliceMaster (a : FabricAcc) : Bool := a.group == 2 && decide (a.master < 1024)

/-- One piece of a fabric transaction: it passes the steps of R280 in order, and reaches its store. -/
def State.fabricPiece (s : State) (a : FabricAcc) : State :=
    match fabStore a.addr with
    | none => s.refusePiece a 0 0
    | some (x, off) =>
      if s.storeGated x off then s.refusePiece a 1 0
      else if lockedFor x off a.group a.master a.op then s.refusePiece a 2 0
      else
        let (cause, gr, t) := s.regionCheck a x off
        if cause ≠ 0xF then t.refusePiece a cause 0
        else if x == .regs && sliceMaster a then t.refusePiece a 4 0
        else match x with
          | .regs => t.regPiece a off
          | .dram => t.dramPiece a gr off
          | .bbram => t.bbPiece a off
          | .krc | .staging | .pkMem | .latMem | .coreMem | .otherSram | .mram => t.ramPiece a x gr

/-- A transaction split at every 4 KB boundary (R23); `n` bounds the number of pieces. -/
def fabPieces : Nat → FabricAcc → List FabricAcc
  | 0, _ => []
  | n + 1, a =>
    let k := 4096 - a.addr % 4096
    if a.len ≤ k then [a]
    else { a with len := k, data := a.data.take k } ::
      fabPieces n { a with addr := a.addr + k, len := a.len - k, data := a.data.drop k }

/-- The pieces in order (R279): the bytes read are joined; the first that fails ends the transaction, the pieces after it are
not issued and read as zero. -/
def State.runPieces : List FabricAcc → Bytes → Bool → State → State
  | [], _, _, s => s
  | a :: rest, got, poison, s =>
    let t := s.fabricPiece a
    let r := t.fab.reply
    let zeros := if r.cause = 0xF ∨ a.op = 1 then [] else fill (rest.foldl (fun n b => n + b.len) 0) 0
    let u := { t with fab := { t.fab with
      reply := { cause := r.cause, poison := poison || r.poison, data := got ++ (r.data ++ zeros) } } }
    if r.cause ≠ 0xF then u else State.runPieces rest (got ++ r.data) (poison || r.poison) u

/-- A fabric transaction (R23, R279). The debug master exists while the FABRIC scope is open (R251). -/
def State.fabricAccess (s : State) (a : FabricAcc) : State :=
  if !s.glb.powered ∨ 8 ≤ a.group ∨ (a.group = 7 ∧ !bit (s.get R.LC_DBG_STS_OPEN) 1) then s
  else State.runPieces (fabPieces (a.len / 4096 + 2) a) [] false ((s.flipDescs a.descFlips).dramErrors a.badReads [])

/-! ## The commands of the table -/

def execBadAccess (off width : Nat) (isWrite : Bool) (s : State) : Host.Outcome State Fault Refusal :=
  ok (s.badAccess off width isWrite)
def execGatedAccess (off : Nat) (isWrite : Bool) (s : State) : Host.Outcome State Fault Refusal :=
  ok (s.gatedAccess .admin off isWrite)
def execRegisterWrite (src : Src) (off value : Nat) (s : State) : Host.Outcome State Fault Refusal := ok (s.regWrite src off value)
def execIrqEnWrite (src : Src) (off value : Nat) (s : State) : Host.Outcome State Fault Refusal :=
  ok (if (irqOf off).isSome then s.regWrite src off value else s)
def execRecipeDataWrite (src : Src) (value : Nat) (s : State) : Host.Outcome State Fault Refusal := ok (s.regWrite src 0x030010 value)
def execRecipeLock (src : Src) (s : State) : Host.Outcome State Fault Refusal := ok (s.regWrite src 0x030000 1)
def execRoutineDataWrite (lattice : Bool) (src : Src) (value : Nat) (s : State) : Host.Outcome State Fault Refusal :=
  ok (s.regWrite src (if lattice then 0x060010 else 0x050010) value)
def execRoutineLock (lattice : Bool) (src : Src) (s : State) : Host.Outcome State Fault Refusal :=
  ok (s.regWrite src (if lattice then 0x060000 else 0x050000) 1)
def execTuSlicePolicyWrite (src : Src) (slice value : Nat) (s : State) : Host.Outcome State Fault Refusal :=
  ok (if slice < 1024 then s.regWrite src (0x031000 + 4 * slice) value else s)
def execRawTap (src : Src) (value : Nat) (s : State) : Host.Outcome State Fault Refusal := ok (s.regWrite src 0x090040 value)
def execTmpBatEvtWrite (src : Src) (value : Nat) (s : State) : Host.Outcome State Fault Refusal := ok (s.regWrite src 0x0C000C value)
def execClkMuxWrite (src : Src) (value : Nat) (s : State) : Host.Outcome State Fault Refusal := ok (s.regWrite src 0x110010 value)
def execFabricAccess (acc : FabricAcc) (s : State) : Host.Outcome State Fault Refusal := ok (s.fabricAccess acc)

end Sys2Proof.Machine
end

