-- ==== Sys2Proof/Machine/Boundary.lean ====
section
/-! DEFINITION. The frame boundary: the end of a frame, the random numbers before the first event (R222), the four
ordered events of R9, and the frame that begins. -/

namespace Sys2Proof.Machine

/-! ## Administrative draws (R221) -/

/-- The draws of the pool that this boundary serves, in order of request: the first that finds too few bytes waits, and
those behind it with it. -/
def State.serveDraws (s : State) : List (Nat × AdminOp) → List (AdminOp × Bytes) × State
  | [] => ([], ({ s with rng := { s.rng with called := false } }).setWaiting [])
  | (n, op) :: rest =>
    if n ≤ s.rng.pool then
      let (b, t) := s.drawPool n
      let (l, v) := State.serveDraws t rest
      ((op, b) :: l, v)
    else ([], ({ s with rng := { s.rng with called := false } }).setWaiting ((n, op) :: rest))

/-- CREATE asks for its frame step with its draw (R348, R361). -/
def State.createStep (s : State) (ops : List AdminOp) : State :=
  if ops.contains AdminOp.netCreate ∧ s.net.stepTo.isNone then
    { s with net := { s.net with stepTo := some (s.frameNo + 1 + 2 ^ 56) } }
  else s

/-- An operation takes effect with the bytes of its draw. -/
def State.adminDrawn (s : State) (op : AdminOp) (b : Bytes) : State :=
  match op with
  | .datum => ((s.ksDrawn .datum b).eraseSliceOfficers).loseMembership
  | .session scope => s.sessionDrawn scope b
  | .debug scopes => s.dbgDrawn scopes b
  | .deviceSecret => (s.lcProgram (some b)).lcFinish
  | .netCreate => s.netCreated b
  | .netJoin => s.joinNow b
  | .domainCreate n => s.ksDrawn (.domainCreate n) b
  | .domainRekey n => s.ksDrawn (.domainRekey n) b
  | .domainDestroy n => s.ksDrawn (.domainDestroy n) b
  | .ephemeral n => s.ksDrawn (.ephemeral n) b
  | .identity => s.ksDrawn .identity b

/-- ADMIN_DRAW_SERVED between two boundaries: the first waiting draw finds its bytes in the pool and is called; the next
boundary hands them out, and the operation takes effect there (R9, R221). -/
def State.serveFirst (s : State) : State :=
  match s.rng.waiting with
  | [] => s
  | (n, _) :: _ => if s.rngServes ∧ n ≤ s.rng.pool then { s with rng := { s.rng with called := true } } else s

/-! ## The end of a frame -/

/-- What the frame that ends leaves: errors in MRAM, walker, engines, key processing, random numbers, port credit. -/
def State.endFrame (s : State) (env : FrameEnv) : State :=
  let s1 := (((s.flipLeaves env.leafFlips).walkFrame.endSteps env).rngEndFrame env.cellCounts).exportEnd
  (s1.creditFrame 0 env.creditA).creditFrame 1 env.creditB

/-- The steps of R222 but the administrative draws; the health hold begins or ends with them (R224). -/
def State.rngBoundary (s : State) : State :=
  let s0 := s.cellsBoundary
  let s1 := if s0.rngServes then s0.reseeds else s0
  if s1.rngServes then
    ((((State.forcedReseeds s1.rng.forced s1).maskDraw.rngReport).holdBegin.rngTidy).holdEnd.tapBegin).rngSync
  else (s1.rngReport.rngTidy.tapBegin).rngSync

/-! ## The events of a boundary (R9) -/

/-- Slices that have been disabled by this boundary lose their sessions (R244). -/
def State.endDisabled (s : State) (before : List Nat) : State :=
  s.endSessions (fun n => before.contains n && (s.slice n).st == .disabled)

/-- Event 2: keys, sessions, slices, lifecycle, and the other commands that take effect with them. -/
def State.event2 (s : State) (env : FrameEnv) (before : List Nat) (drawn : List (AdminOp × Bytes)) : State :=
  let s1 := drawn.foldl (fun t e => t.adminDrawn e.1 e.2) s.ksEvent
  let s2 := (s1.domainEvents.quorumEvents.sliceEvents).endDisabled before
  let s3 := s2.lcBegin.lcDrained.zeroizeDrained
  let s4 := (s3.debugOpenNet.netEvents.mscNow.ageOutAll).memoryBoundary env
  s4.movePort.fbEvents.updEvents

/-- Event 3, first part: the holds of Traverse (R83, R224, R309, R343). -/
def State.holds3 (s : State) : State :=
  let t := s.auditHold.brownHold
  ((t.put1 R.TRV_STS_ENTROPY (t.rngState == rngHold)).put1 R.TRV_STS_AUDIT_FULL (t.on R.FB_STS_HOLD)).put1 R.TRV_STS_UPDATE
    (t.on R.UPD_STS_HOLD)

/-- The frame that begins: what TRV_CAL_DATA shows is taken, then come grants, writes, exports and Net traffic. -/
def State.beginFrame (s : State) : State :=
  let s1 := { s with lc := { s.lc with bitRan := false } }
  ((((s1.snapCalendar).grants.reportUnits).writes).exportFrame).netFrame

/-- What falls due at the boundary with no event of its own. -/
def State.dueAtBoundary (s : State) : State :=
  (((s.ksTimeouts.chalExpire.refusals.bufferOut).cfgCheckNow.suspendKeys).trimMove.holdoverDrift)

/-! ## Pins and sensors (R269, R335, R343, R399) -/

/-- What the world shows at the boundary; ALERT_N was taken before Dose's events (R343). -/
def State.samplePins (s : State) (env : FrameEnv) : State :=
  let s1 := if bit (s.get R.CLK_GATE_ON) 8 then s.set R.MGT_GPIO_IN_LEVEL 0 env.gpio else s
  let s1 := (s1.put1 R.TMP_STS_OUT_FAULT env.outFault).tamperPins env
  let s2 := (s1.put1 R.MGT_PIN_STS_DBG_TRST_N (bit env.pins 7)).put1 R.MGT_PIN_STS_TREF (bit env.pins 6)
  let s3 := if 1 ≤ s2.stage then s2.clockSample env else s2
  (env.temps.zipIdx.filter (fun e => decide (e.2 < 4))).foldl (fun t e => t.tempSample e.2 (signed 16 e.1)) s3

/-! ## The boundary -/

/-- A boundary of the fatal clock path or of the safe-state wait (R336, R337): time goes on, queued status words
leave, the wait ends once the monitors that failed have passed 16 consecutive windows, and a reset that is due is performed. -/
def State.quietBoundary (s : State) (env : FrameEnv) : State :=
  let q := s.queueWords
  let t := if q.clk.fatal then (q.creditFrame 0 env.creditA).creditFrame 1 env.creditB else q
  let u := ({ t with frameNo := t.frameNo + 1 }).tamperPins env
  let v := if u.clk.safe.isSome then u.clockWindows env else u
  (if v.clk.safe.isSome ∧ 16 ≤ v.clk.passRun then v.safeEnd else v).resetDue

/-- FRAME_NO rises by one (R8), after the frame step that is due (R361), and the events run in order (R9, R222). -/
def State.frameBoundary (s : State) (env : FrameEnv) : State :=
  if !s.glb.powered then s
  else if s.clk.fatal ∨ s.clk.safe.isSome then s.quietBoundary env
  else
    let s0 := ((({ s with glb := { s.glb with marks := [] } }).queueWords).endFrame env).fbLost
    let (drawn, s1) := if s0.rngServes then s0.serveDraws s0.rng.waiting else ([], s0)
    let s2 := (s1.createStep (drawn.map Prod.fst)).stepFrames
    let s3 := (({ s2 with frameNo := s2.frameNo + 1 }).fbFrame).rngBoundary
    let before := s3.sliceNos.filter (fun n => (s3.slice n).st != .disabled)
    let s4 := ((s3.cfgEvent.alertPin env.alertHigh).doseEvents.calendarAdvance).event2 env before drawn
    let s5 := (s4.sliceMessages.holds3.observeAll).releaseAll.expireHolds.netAdmit
    ((((s5.beginFrame.dueAtBoundary).samplePins env).bootStep).fbLost).resetDue

/-! ## The commands of the table -/

def execFrameBoundary (env : FrameEnv) (s : State) : Host.Outcome State Fault Refusal := ok (s.frameBoundary env)
def execAdminDrawServed (s : State) : Host.Outcome State Fault Refusal := ok s.serveFirst

end Sys2Proof.Machine
end

