-- ==== Sys2Proof/Machine/Dispatch.lean ====
section
/-! DEFINITION. The dispatch: one arm per command, each a direct call of that command's meaning. -/

namespace Sys2Proof.Machine

/-- What a command does to everything but the queue of pending commands. -/
def exec (i : Instr) (s : State) : Host.Outcome State Fault Refusal :=
  match i with
  | .frameBoundary env => Sys2Proof.Machine.execFrameBoundary env s
  | .badAccess off width isWrite => Sys2Proof.Machine.execBadAccess off width isWrite s
  | .gatedAccess off isWrite => Sys2Proof.Machine.execGatedAccess off isWrite s
  | .registerWrite src off value => Sys2Proof.Machine.execRegisterWrite src off value s
  | .irqEnWrite src off value => Sys2Proof.Machine.execIrqEnWrite src off value s
  | .doorbellWrite off width value => Sys2Proof.Machine.execDoorbellWrite off width value s
  | .descriptorFetchDone slice ring number data => Sys2Proof.Machine.execDescriptorFetchDone slice ring number data s
  | .descriptorFetchFail slice ring number => Sys2Proof.Machine.execDescriptorFetchFail slice ring number s
  | .dmaReadDone cmd target data => Sys2Proof.Machine.execDmaReadDone cmd target data s
  | .dmaReadFault cmd target => Sys2Proof.Machine.execDmaReadFault cmd target s
  | .sliceLoad slice => Sys2Proof.Machine.execSliceLoad slice s
  | .sliceContextReadDone block => Sys2Proof.Machine.execSliceContextReadDone block s
  | .sliceReset slice => Sys2Proof.Machine.execSliceReset slice s
  | .sliceQuiesce slice => Sys2Proof.Machine.execSliceQuiesce slice s
  | .sliceQuiesceComplete slice => Sys2Proof.Machine.execSliceQuiesceComplete slice s
  | .sliceResume slice => Sys2Proof.Machine.execSliceResume slice s
  | .sliceDisable slice => Sys2Proof.Machine.execSliceDisable slice s
  | .logAck slice count => Sys2Proof.Machine.execLogAck slice count s
  | .functionLevelReset portB fn => Sys2Proof.Machine.execFunctionLevelReset portB fn s
  | .portLinkLoss portB => Sys2Proof.Machine.execPortLinkLoss portB s
  | .portStall portB => Sys2Proof.Machine.execPortStall portB s
  | .portStallEnd portB => Sys2Proof.Machine.execPortStallEnd portB s
  | .heldRelease cmd => Sys2Proof.Machine.execHeldRelease cmd s
  | .holdExpire cmd => Sys2Proof.Machine.execHoldExpire cmd s
  | .pinTranslate cmd err => Sys2Proof.Machine.execPinTranslate cmd err s
  | .pinVerifyOffset cmd err => Sys2Proof.Machine.execPinVerifyOffset cmd err s
  | .pinVerifyPvv cmd err => Sys2Proof.Machine.execPinVerifyPvv cmd err s
  | .pinOffsetGenerate cmd err => Sys2Proof.Machine.execPinOffsetGenerate cmd err s
  | .pvvGenerate cmd err => Sys2Proof.Machine.execPvvGenerate cmd err s
  | .cvvGenerate cmd err => Sys2Proof.Machine.execCvvGenerate cmd err s
  | .cvvVerify cmd err => Sys2Proof.Machine.execCvvVerify cmd err s
  | .macGenerate cmd err => Sys2Proof.Machine.execMacGenerate cmd err s
  | .macVerify cmd err => Sys2Proof.Machine.execMacVerify cmd err s
  | .wagerSeal cmd err => Sys2Proof.Machine.execWagerSeal cmd err s
  | .drawSeed cmd err => Sys2Proof.Machine.execDrawSeed cmd err s
  | .dukptTdesPinTranslate cmd err => Sys2Proof.Machine.execDukptTdesPinTranslate cmd err s
  | .dukptAesPinTranslate cmd err => Sys2Proof.Machine.execDukptAesPinTranslate cmd err s
  | .arqcVerify cmd err => Sys2Proof.Machine.execArqcVerify cmd err s
  | .keyblockImport cmd err => Sys2Proof.Machine.execKeyblockImport cmd err s
  | .keyblockExport cmd err => Sys2Proof.Machine.execKeyblockExport cmd err s
  | .tr34Recover cmd err => Sys2Proof.Machine.execTr34Recover cmd err s
  | .tr34Import cmd err => Sys2Proof.Machine.execTr34Import cmd err s
  | .symEcb cmd err => Sys2Proof.Machine.execSymEcb cmd err s
  | .symCbc cmd err => Sys2Proof.Machine.execSymCbc cmd err s
  | .symCtr cmd err => Sys2Proof.Machine.execSymCtr cmd err s
  | .symGcm cmd err => Sys2Proof.Machine.execSymGcm cmd err s
  | .symXts cmd err => Sys2Proof.Machine.execSymXts cmd err s
  | .symMacGenerate cmd err => Sys2Proof.Machine.execSymMacGenerate cmd err s
  | .symMacVerify cmd err => Sys2Proof.Machine.execSymMacVerify cmd err s
  | .hashOne cmd err => Sys2Proof.Machine.execHashOne cmd err s
  | .hashBatch cmd err => Sys2Proof.Machine.execHashBatch cmd err s
  | .hmacGenerate cmd err => Sys2Proof.Machine.execHmacGenerate cmd err s
  | .hmacVerify cmd err => Sys2Proof.Machine.execHmacVerify cmd err s
  | .rsaSign cmd err => Sys2Proof.Machine.execRsaSign cmd err s
  | .rsaDecrypt cmd err => Sys2Proof.Machine.execRsaDecrypt cmd err s
  | .rsaSignLarge cmd err => Sys2Proof.Machine.execRsaSignLarge cmd err s
  | .rsaDecryptLarge cmd err => Sys2Proof.Machine.execRsaDecryptLarge cmd err s
  | .rsaVerify cmd err => Sys2Proof.Machine.execRsaVerify cmd err s
  | .ecdsaSignP256 cmd err => Sys2Proof.Machine.execEcdsaSignP256 cmd err s
  | .ecdsaVerifyP256 cmd err => Sys2Proof.Machine.execEcdsaVerifyP256 cmd err s
  | .ecdsaSignP384 cmd err => Sys2Proof.Machine.execEcdsaSignP384 cmd err s
  | .ecdsaVerifyP384 cmd err => Sys2Proof.Machine.execEcdsaVerifyP384 cmd err s
  | .eddsaSign cmd err => Sys2Proof.Machine.execEddsaSign cmd err s
  | .eddsaVerify cmd err => Sys2Proof.Machine.execEddsaVerify cmd err s
  | .ecAgree cmd err => Sys2Proof.Machine.execEcAgree cmd err s
  | .pkKeygen cmd err => Sys2Proof.Machine.execPkKeygen cmd err s
  | .pkKeygenContinue cmd err => Sys2Proof.Machine.execPkKeygenContinue cmd err s
  | .mlkemKeygen cmd err => Sys2Proof.Machine.execMlkemKeygen cmd err s
  | .mlkemEncaps cmd err => Sys2Proof.Machine.execMlkemEncaps cmd err s
  | .mlkemDecaps cmd err => Sys2Proof.Machine.execMlkemDecaps cmd err s
  | .mldsaSign cmd err => Sys2Proof.Machine.execMldsaSign cmd err s
  | .mldsa87Sign cmd err => Sys2Proof.Machine.execMldsa87Sign cmd err s
  | .mldsaVerify cmd err => Sys2Proof.Machine.execMldsaVerify cmd err s
  | .mldsaKeygen cmd err => Sys2Proof.Machine.execMldsaKeygen cmd err s
  | .keyGenerate cmd err => Sys2Proof.Machine.execKeyGenerate cmd err s
  | .keyDerive cmd err => Sys2Proof.Machine.execKeyDerive cmd err s
  | .keyRewrap cmd err => Sys2Proof.Machine.execKeyRewrap cmd err s
  | .keyInvalidate cmd err => Sys2Proof.Machine.execKeyInvalidate cmd err s
  | .keyComponent cmd err => Sys2Proof.Machine.execKeyComponent cmd err s
  | .keyWrapExport cmd err => Sys2Proof.Machine.execKeyWrapExport cmd err s
  | .keyWrapImport cmd err => Sys2Proof.Machine.execKeyWrapImport cmd err s
  | .keyAttest cmd err => Sys2Proof.Machine.execKeyAttest cmd err s
  | .indexFreed slice index => Sys2Proof.Machine.execIndexFreed slice index s
  | .ctNodeWriteback => Sys2Proof.Machine.execCtNodeWriteback s
  | .contExpiry slice entry => Sys2Proof.Machine.execContExpiry slice entry s
  | .componentTimeout slice => Sys2Proof.Machine.execComponentTimeout slice s
  | .datumGenerate => Sys2Proof.Machine.execDatumGenerate s
  | .domainCreate slice => Sys2Proof.Machine.execDomainCreate slice s
  | .domainAdvance slice => Sys2Proof.Machine.execDomainAdvance slice s
  | .raiseFloor slice => Sys2Proof.Machine.execRaiseFloor slice s
  | .domainRekey slice => Sys2Proof.Machine.execDomainRekey slice s
  | .domainDestroy slice => Sys2Proof.Machine.execDomainDestroy slice s
  | .idGenerate => Sys2Proof.Machine.execIdGenerate s
  | .ksIdDataRead => Sys2Proof.Machine.execKsIdDataRead s
  | .recipeDataWrite src value => Sys2Proof.Machine.execRecipeDataWrite src value s
  | .recipeLock src => Sys2Proof.Machine.execRecipeLock src s
  | .routineDataWrite lattice src value => Sys2Proof.Machine.execRoutineDataWrite lattice src value s
  | .routineLock lattice src => Sys2Proof.Machine.execRoutineLock lattice src s
  | .tuSlicePolicyWrite src slice value => Sys2Proof.Machine.execTuSlicePolicyWrite src slice value s
  | .rawBlockClose cell bits => Sys2Proof.Machine.execRawBlockClose cell bits s
  | .cellHealthFail cell tests => Sys2Proof.Machine.execCellHealthFail cell tests s
  | .restartRunDone cell => Sys2Proof.Machine.execRestartRunDone cell s
  | .healthHoldEnd => Sys2Proof.Machine.execHealthHoldEnd s
  | .expanderAgeStop exp => Sys2Proof.Machine.execExpanderAgeStop exp s
  | .adminDrawServed => Sys2Proof.Machine.execAdminDrawServed s
  | .rngWarmupDone katCond katExp => Sys2Proof.Machine.execRngWarmupDone katCond katExp s
  | .rawTap src value => Sys2Proof.Machine.execRawTap src value s
  | .rawTapDone => Sys2Proof.Machine.execRawTapDone s
  | .rawTapDmaFail => Sys2Proof.Machine.execRawTapDmaFail s
  | .lcTransition value => Sys2Proof.Machine.execLcTransition value s
  | .transitionDrainEnd => Sys2Proof.Machine.execTransitionDrainEnd s
  | .otpBitProgram ok => Sys2Proof.Machine.execOtpBitProgram ok s
  | .lcZeroize => Sys2Proof.Machine.execLcZeroize s
  | .zeroizeDrainEnd => Sys2Proof.Machine.execZeroizeDrainEnd s
  | .dbgChallenge scopes => Sys2Proof.Machine.execDbgChallenge scopes s
  | .dbgRespond scopes response => Sys2Proof.Machine.execDbgRespond scopes response s
  | .tapChallenge scopes => Sys2Proof.Machine.execTapChallenge scopes s
  | .tapRespond scopes response => Sys2Proof.Machine.execTapRespond scopes response s
  | .lcAccess value => Sys2Proof.Machine.execLcAccess value s
  | .lcStatus => Sys2Proof.Machine.execLcStatus s
  | .debugOpen => Sys2Proof.Machine.execDebugOpen s
  | .otpProgram field => Sys2Proof.Machine.execOtpProgram field s
  | .otpRead field => Sys2Proof.Machine.execOtpRead field s
  | .quOpen scope roles life => Sys2Proof.Machine.execQuOpen scope roles life s
  | .quSign scope record => Sys2Proof.Machine.execQuSign scope record s
  | .signInVerified => Sys2Proof.Machine.execSignInVerified s
  | .quClose scope => Sys2Proof.Machine.execQuClose scope s
  | .quEnroll scope record => Sys2Proof.Machine.execQuEnroll scope record s
  | .quRemove scope role index => Sys2Proof.Machine.execQuRemove scope role index s
  | .quPolicy scope record => Sys2Proof.Machine.execQuPolicy scope record s
  | .sessionExpiry scope => Sys2Proof.Machine.execSessionExpiry scope s
  | .debugChallengeExpiry => Sys2Proof.Machine.execDebugChallengeExpiry s
  | .tmpMesh run => Sys2Proof.Machine.execTmpMesh run s
  | .tmpTs input opened => Sys2Proof.Machine.execTmpTs input opened s
  | .tmpZeroize => Sys2Proof.Machine.execTmpZeroize s
  | .tmpRailUv rail => Sys2Proof.Machine.execTmpRailUv rail s
  | .tmpRailOv rail => Sys2Proof.Machine.execTmpRailOv rail s
  | .tmpTemp sensor celsius => Sys2Proof.Machine.execTmpTemp sensor celsius s
  | .tmpLight sensor => Sys2Proof.Machine.execTmpLight sensor s
  | .tmpGlitch source => Sys2Proof.Machine.execTmpGlitch source s
  | .tmpVbat mv => Sys2Proof.Machine.execTmpVbat mv s
  | .batteryCheck check => Sys2Proof.Machine.execBatteryCheck check s
  | .batLow mv => Sys2Proof.Machine.execBatLow mv s
  | .batRev => Sys2Proof.Machine.execBatRev s
  | .tmpBatEvtWrite src value => Sys2Proof.Machine.execTmpBatEvtWrite src value s
  | .fabricAccess acc => Sys2Proof.Machine.execFabricAccess acc s
  | .violClear group => Sys2Proof.Machine.execViolClear group s
  | .mscAlloc => Sys2Proof.Machine.execMscAlloc s
  | .mscRekey entry keyid => Sys2Proof.Machine.execMscRekey entry keyid s
  | .mscRetire keyid => Sys2Proof.Machine.execMscRetire keyid s
  | .mscInit entry => Sys2Proof.Machine.execMscInit entry s
  | .mscFlush => Sys2Proof.Machine.execMscFlush s
  | .walkDone => Sys2Proof.Machine.execWalkDone s
  | .wcbEntryAgeOut line => Sys2Proof.Machine.execWcbEntryAgeOut line s
  | .diagBufferWriteout => Sys2Proof.Machine.execDiagBufferWriteout s
  | .fbExport keep diag scope => Sys2Proof.Machine.execFbExport keep diag scope s
  | .exportEnd => Sys2Proof.Machine.execExportEnd s
  | .exportDmaFail => Sys2Proof.Machine.execExportDmaFail s
  | .fbThaw => Sys2Proof.Machine.execFbThaw s
  | .fbClear => Sys2Proof.Machine.execFbClear s
  | .diagFlush => Sys2Proof.Machine.execDiagFlush s
  | .freezeTimeout => Sys2Proof.Machine.execFreezeTimeout s
  | .fbRefusals => Sys2Proof.Machine.execFbRefusals s
  | .storeRo store => Sys2Proof.Machine.execStoreRo store s
  | .updStart head => Sys2Proof.Machine.execUpdStart head s
  | .verifyDone => Sys2Proof.Machine.execVerifyDone s
  | .updateDrainEnd => Sys2Proof.Machine.execUpdateDrainEnd s
  | .updSector number data => Sys2Proof.Machine.execUpdSector number data s
  | .updSectorWritten ok => Sys2Proof.Machine.execUpdSectorWritten ok s
  | .updWritten => Sys2Proof.Machine.execUpdWritten s
  | .updActivate => Sys2Proof.Machine.execUpdActivate s
  | .updAbort => Sys2Proof.Machine.execUpdAbort s
  | .updConfirm => Sys2Proof.Machine.execUpdConfirm s
  | .trimIntervalEnd interval => Sys2Proof.Machine.execTrimIntervalEnd interval s
  | .refLost => Sys2Proof.Machine.execRefLost s
  | .refReturn => Sys2Proof.Machine.execRefReturn s
  | .clkMuxWrite src value => Sys2Proof.Machine.execClkMuxWrite src value s
  | .muxSwitchDone mux => Sys2Proof.Machine.execMuxSwitchDone mux s
  | .clockFailure monitor kind count => Sys2Proof.Machine.execClockFailure monitor kind count s
  | .fatalReset => Sys2Proof.Machine.execFatalReset s
  | .safeStateWait monitor kind count => Sys2Proof.Machine.execSafeStateWait monitor kind count s
  | .safeStateWaitEnd => Sys2Proof.Machine.execSafeStateWaitEnd s
  | .bkoFail kind count => Sys2Proof.Machine.execBkoFail kind count s
  | .telemetryRound => Sys2Proof.Machine.execTelemetryRound s
  | .pmbusReadDone rail what result => Sys2Proof.Machine.execPmbusReadDone rail what result s
  | .brownoutWarning rail value => Sys2Proof.Machine.execBrownoutWarning rail value s
  | .brownoutClear => Sys2Proof.Machine.execBrownoutClear s
  | .thermalCeilingOn => Sys2Proof.Machine.execThermalCeilingOn s
  | .thermalCeilingOff => Sys2Proof.Machine.execThermalCeilingOff s
  | .netCreate => Sys2Proof.Machine.execNetCreate s
  | .netRequest => Sys2Proof.Machine.execNetRequest s
  | .netAdmit auto member records => Sys2Proof.Machine.execNetAdmit auto member records s
  | .netAccept records => Sys2Proof.Machine.execNetAccept records s
  | .joinRequestExpiry => Sys2Proof.Machine.execJoinRequestExpiry s
  | .netLeave => Sys2Proof.Machine.execNetLeave s
  | .netExpel member => Sys2Proof.Machine.execNetExpel member s
  | .netBench member => Sys2Proof.Machine.execNetBench member s
  | .moveHome member slice => Sys2Proof.Machine.execMoveHome member slice s
  | .portRekey port => Sys2Proof.Machine.execPortRekey port s
  | .linkUp port swap rxInv txInv => Sys2Proof.Machine.execLinkUp port swap rxInv txInv s
  | .linkDown port cause => Sys2Proof.Machine.execLinkDown port cause s
  | .linkRetrain port => Sys2Proof.Machine.execLinkRetrain port s
  | .flitError port flit => Sys2Proof.Machine.execFlitError port flit s
  | .replayTimeout port => Sys2Proof.Machine.execReplayTimeout port s
  | .netAck port seq => Sys2Proof.Machine.execNetAck port seq s
  | .netNak port seq => Sys2Proof.Machine.execNetNak port seq s
  | .netMark port mark => Sys2Proof.Machine.execNetMark port mark s
  | .keySwitch port keyid seq => Sys2Proof.Machine.execKeySwitch port keyid seq s
  | .linkHello port hello => Sys2Proof.Machine.execLinkHello port hello s
  | .netRoute port member hops => Sys2Proof.Machine.execNetRoute port member hops s
  | .netTable h bench rows => Sys2Proof.Machine.execNetTable h bench rows s
  | .netTime h frame elapsed => Sys2Proof.Machine.execNetTime h frame elapsed s
  | .netDomain h record => Sys2Proof.Machine.execNetDomain h record s
  | .netDomainAck h slice rseq => Sys2Proof.Machine.execNetDomainAck h slice rseq s
  | .netLease h frame digest => Sys2Proof.Machine.execNetLease h frame digest s
  | .netSync h slices => Sys2Proof.Machine.execNetSync h slices s
  | .netWitness h seq digest => Sys2Proof.Machine.execNetWitness h seq digest s
  | .joinDone h => Sys2Proof.Machine.execJoinDone h s
  | .leaveMessage h => Sys2Proof.Machine.execLeaveMessage h s
  | .frameStep => Sys2Proof.Machine.execFrameStep s
  | .leaseLapse slice => Sys2Proof.Machine.execLeaseLapse slice s
  | .domainResend => Sys2Proof.Machine.execDomainResend s
  | .gapTimeout slice => Sys2Proof.Machine.execGapTimeout slice s
  | .cfgCheck => Sys2Proof.Machine.execCfgCheck s
  | .cfgCommit => Sys2Proof.Machine.execCfgCommit s
  | .cfgDiscard => Sys2Proof.Machine.execCfgDiscard s
  | .rstCold drain => Sys2Proof.Machine.execRstCold drain s
  | .rstWarm drain => Sys2Proof.Machine.execRstWarm drain s
  | .resetDrainEnd => Sys2Proof.Machine.execResetDrainEnd s
  | .coldReset cause boot => Sys2Proof.Machine.execColdReset cause boot s
  | .warmReset cause boot => Sys2Proof.Machine.execWarmReset cause boot s
  | .powerUp boot => Sys2Proof.Machine.execPowerUp boot s
  | .serviceReady => Sys2Proof.Machine.execServiceReady s
  | .pwrFail => Sys2Proof.Machine.execPwrFail s
  | .pwrFailRise => Sys2Proof.Machine.execPwrFailRise s
  | .perst portB level => Sys2Proof.Machine.execPerst portB level s
  | .expanderRepeat exp => Sys2Proof.Machine.execExpanderRepeat exp s
  | .tapRestart => Sys2Proof.Machine.execTapRestart s
  | .linkKeyChangeAuto port => Sys2Proof.Machine.execLinkKeyChangeAuto port s
  | .ackInterval port => Sys2Proof.Machine.execAckInterval port s
  | .hostLinkUp portB width rate flit => Sys2Proof.Machine.execHostLinkUp portB width rate flit s
  | .pciePowerState portB fn d3 => Sys2Proof.Machine.execPciePowerState portB fn d3 s
  | .vectorUnmask fn vector => Sys2Proof.Machine.execVectorUnmask fn vector s
  | .poweredCheck => Sys2Proof.Machine.execPoweredCheck s
  | .mainPowerLoss => Sys2Proof.Machine.execMainPowerLoss s
  | .pmbStuck => Sys2Proof.Machine.execPmbStuck s

end Sys2Proof.Machine
end

