-- ==== Sys2Proof/Machine/Step.lean ====
section
/-! DEFINITION. One step: the command at the front of the queue is taken and performed; an empty queue idles. -/

namespace Sys2Proof.Machine

/-- The state without the command at the front of its queue. -/
def State.withQueue (s : State) (q : List Instr) : State := { s with pending := q }

/-- One step (assumption 1: commands one at a time, in order of arrival; with none waiting the block idles). -/
def step (s : State) : Host.Outcome State Fault Refusal :=
  match s.pending with
  | [] => .next s
  | c :: rest => exec c (s.withQueue rest)

/-- The state with the command that a word spells put at the front of its queue; unchanged where the word spells none. -/
def State.withFetchWord (s : State) (nbits w : Nat) : State :=
  match Sys2Proof.decodeTableWord nbits w with
  | some c => s.withQueue (c :: s.pending)
  | none => s

end Sys2Proof.Machine
end

