-- ==== Sys2Proof/Safety.lean ====
section
/-! DEFINITION. What a claim may ask of a state: the canonical form of the on-chip memory, and the outputs that follow
the lifecycle state, the tamper latch and OTP. -/

namespace Sys2Proof.Machine

/-- The canonical form of a memory: addresses strictly rising, and no entry equal to the 0 an unlisted byte reads as. -/
def Memory.wf (m : List Host.Cell) : Bool := Tab.wf 0 m

/-- The byte of the on-chip SRAM at an address (R276). -/
def State.ramByte (s : State) (a : Nat) : Byte := Tab.get 0 s.fab.ram a

/-- LC_TOKEN repeats the state code (R257). -/
def State.tokenFollows (s : State) : Prop := s.get R.LC_TOKEN_STATE = s.get R.LC_STATE_CODE % 16

/-- TMP_STS.ARMED says that causes start responses (R259). -/
def State.armedFollows (s : State) : Prop := s.on R.TMP_STS_ARMED = s.armed

/-- TAMPER_OUT reads back the level the device drives (R273). -/
def State.tamperOutFollows (s : State) : Prop := s.on R.MGT_PIN_STS_TAMPER_OUT = s.tamperOut

/-- LC_OTP_DAMAGED lists the damaged fields of codes 0x01 to 0x06, and LC_OTP_STS.ANY_DAMAGED a damaged field or table
(R255). -/
def State.damagedFollows (s : State) : Prop :=
  (∀ k, k < 6 → (s.get R.LC_OTP_DAMAGED_FIELDS).testBit k = (s.otpAt (k + 1)).damaged (k + 1)) ∧
  (∀ k, k < 16 → (s.get R.LC_OTP_DAMAGED_TABLES).testBit k = (s.otpAt (k + 0x10)).damaged (k + 0x10)) ∧
  (s.on R.LC_OTP_STS_ANY_DAMAGED ↔ ∃ code ∈ otpCodes, (s.otpAt code).damaged code = true)

/-- The outputs agree with the state they follow. -/
def State.OutputsFollow (s : State) : Prop :=
  s.tokenFollows ∧ s.armedFollows ∧ s.tamperOutFollows ∧ s.damagedFollows

/-- The step ends in a state that meets `P`: it neither faults nor is refused. -/
def Gives (o : Host.Outcome State Fault Refusal) (P : State → Prop) : Prop := ∃ t, o = .next t ∧ P t

/-- A row of the table that runs a granted step of a command: its constructor, its opcode, and what the opcode does. -/
structure EngineRow where
  cmd : Nat → Bool → Instr
  op : Nat
  spec : OpSpec

/-- The engine rows. PK_KEYGEN has two, one for a descriptor with CONTINUE (R57, R169). -/
def engineRows (cont : Bool) : List EngineRow :=
  (if cont then [⟨.pkKeygenContinue, 0x0330, opKeygen⟩] else [⟨.pkKeygen, 0x0330, opKeygen⟩]) ++
  [
    ⟨.pinTranslate, 0x0100, opPinTranslate⟩,
    ⟨.pinVerifyOffset, 0x0110, opPinVerifyOffset⟩,
    ⟨.pinVerifyPvv, 0x0111, opPinVerifyPvv⟩,
    ⟨.pinOffsetGenerate, 0x0112, opPinOffsetGenerate⟩,
    ⟨.pvvGenerate, 0x0113, opPvvGenerate⟩,
    ⟨.cvvGenerate, 0x0120, opCvvGenerate⟩,
    ⟨.cvvVerify, 0x0121, opCvvVerify⟩,
    ⟨.macGenerate, 0x0130, opMacGenerate⟩,
    ⟨.macVerify, 0x0131, opMacVerify⟩,
    ⟨.wagerSeal, 0x0138, opWagerSeal⟩,
    ⟨.drawSeed, 0x0170, opDrawSeed⟩,
    ⟨.dukptTdesPinTranslate, 0x0140, opDukptTdes⟩,
    ⟨.dukptAesPinTranslate, 0x0141, opDukptAes⟩,
    ⟨.arqcVerify, 0x0150, opArqc⟩,
    ⟨.keyblockImport, 0x0160, opKeyblockImport⟩,
    ⟨.keyblockExport, 0x0161, opKeyblockExport⟩] ++
  [
    ⟨.tr34Recover, 0x0168, opTr34Recover⟩,
    ⟨.tr34Import, 0x0162, opTr34Import⟩,
    ⟨.symEcb, 0x0200, opSymEcb⟩,
    ⟨.symCbc, 0x0201, opSymCbc⟩,
    ⟨.symCtr, 0x0202, opSymCtr⟩,
    ⟨.symGcm, 0x0203, opSymGcm⟩,
    ⟨.symXts, 0x0204, opSymXts⟩,
    ⟨.symMacGenerate, 0x0208, opSymMacGenerate⟩,
    ⟨.symMacVerify, 0x0209, opSymMacVerify⟩,
    ⟨.hashOne, 0x0280, opHash⟩,
    ⟨.hashBatch, 0x0281, opHashBatch⟩,
    ⟨.hmacGenerate, 0x0288, opHmacGenerate⟩,
    ⟨.hmacVerify, 0x0289, opHmacVerify⟩,
    ⟨.rsaSign, 0x0300, opRsaSign⟩,
    ⟨.rsaDecrypt, 0x0301, opRsaDecrypt⟩,
    ⟨.rsaSignLarge, 0x0302, opRsaSignLarge⟩] ++
  [
    ⟨.rsaDecryptLarge, 0x0303, opRsaDecryptLarge⟩,
    ⟨.rsaVerify, 0x0308, opRsaVerify⟩,
    ⟨.ecdsaSignP256, 0x0310, opEcdsaSign 0x40⟩,
    ⟨.ecdsaVerifyP256, 0x0311, opEcdsaVerify 0x40⟩,
    ⟨.ecdsaSignP384, 0x0312, opEcdsaSign 0x41⟩,
    ⟨.ecdsaVerifyP384, 0x0313, opEcdsaVerify 0x41⟩,
    ⟨.eddsaSign, 0x0318, opEddsaSign⟩,
    ⟨.eddsaVerify, 0x0319, opEddsaVerify⟩,
    ⟨.ecAgree, 0x0320, opEcAgree⟩,
    ⟨.mlkemKeygen, 0x0340, opMlkemKeygen⟩,
    ⟨.mlkemEncaps, 0x0341, opMlkemEncaps⟩,
    ⟨.mlkemDecaps, 0x0342, opMlkemDecaps⟩,
    ⟨.mldsaSign, 0x0350, opMldsaSign⟩,
    ⟨.mldsa87Sign, 0x0351, opMldsa87Sign⟩,
    ⟨.mldsaVerify, 0x0358, opMldsaVerify⟩,
    ⟨.mldsaKeygen, 0x0359, opMldsaKeygen⟩] ++
  [
    ⟨.keyGenerate, 0x0400, opKeyGenerate⟩,
    ⟨.keyDerive, 0x0401, opKeyDerive⟩,
    ⟨.keyRewrap, 0x0402, opKeyRewrap⟩,
    ⟨.keyInvalidate, 0x0403, opKeyInvalidate⟩,
    ⟨.keyComponent, 0x0404, opKeyComponent⟩,
    ⟨.keyWrapExport, 0x0408, opKeyWrapExport⟩,
    ⟨.keyWrapImport, 0x0409, opKeyWrapImport⟩,
    ⟨.keyAttest, 0x0410, opKeyAttest⟩]

/-- Command `c` of slot `id` holds a grant for an execution step that has yet to run. -/
def Cmd.due_ (c : Cmd) (op : Nat) : Prop :=
  c.st = .active ∧ c.granted = true ∧ c.ran = false ∧ Desc.opcode c.desc = op ∧ c.step ≠ 0

/-- Nothing voids the granted step of `c` and nothing keeps it from starting: it has tokens (R26), lanes for its blocks
(R221), a good carry record (R88, R132), and two computations that agree (R156, R171). -/
def State.runsOn (s : State) (o : OpSpec) (c : Cmd) : Prop :=
  c.tokens ≠ 0 ∧ c.starved = false ∧ s.carryBad c = false ∧ s.disagrees o c = false

/-- Command `c` of slot `id` runs its last step in this frame, without brown-out, with no failure so far and with every
check of a first step passed. -/
def State.lastStep (s : State) (id op : Nat) (o : OpSpec) (c : Cmd) : Prop :=
  s.cmd? id = some c ∧ c.due_ op ∧ s.runsOn o c ∧ s.on R.DOSE_STS_BROWNOUT = false ∧ c.code = ccOk ∧ c.step = c.s ∧
  ({ s with free := s.free + 1 } : State).stepCode o c = ccOk

/-- The step leaves an entry of command `id` and a state that meet `P`. -/
def Leaves (o : Host.Outcome State Fault Refusal) (id : Nat) (P : State → Cmd → Prop) : Prop :=
  ∃ t c, o = .next t ∧ t.cmd? id = some c ∧ P t c

end Sys2Proof.Machine
end

