-- ==== Sys2Proof/WellFormed.lean ====
section
/-! DEFINITION. Which commands are well formed: every operand within the range its table gives it. A command outside these
ranges names nothing of the device; its meaning changes nothing there or reads the field that the range cuts. -/

namespace Sys2Proof

/-- The header of a Net message: member IDs and a direct port (R347, R354). -/
def NetHeader.ok (h : NetHeader) : Bool :=
  decide (h.src < 4096 ∧ h.dst < 4096) && (match h.port with | some p => decide (p < 4) | none => true)

/-- A transaction of the fabric: 8 guard groups, a 40-bit plane of addresses (R23, R275). -/
def FabricAcc.ok (a : FabricAcc) : Bool :=
  decide (a.group < 8 ∧ a.op < 3 ∧ a.addr + a.len ≤ 2 ^ 40 ∧ 0 < a.len)

/-- The environment of a frame: 4 die sensors, 8 noise cells, 8 pins. -/
def FrameEnv.ok (e : FrameEnv) : Bool :=
  decide (e.temps.length ≤ 4 ∧ e.cellCounts.length ≤ 8 ∧ e.gpio < 256 ∧ e.pins < 256 ∧ e.windows.length ≤ 5 ∧ e.pllLock < 8)

/-- A bit period of the mesh: 8 pairs. -/
def MeshBit.ok (b : MeshBit) : Bool := decide (b.drv < 256 ∧ b.up < 256 ∧ b.down < 256)

/-- The readings of a battery check: 16 periods of 8 mesh pairs, 4 TS inputs in 3 states, light sensors 0 and 1 (R264 to R269). -/
def BatteryReadings.ok (b : BatteryReadings) : Bool :=
  decide (b.mesh.length ≤ 16) && b.mesh.all MeshBit.ok && b.ts.all (fun e => decide (e.1 < 4 ∧ e.2 < 3)) && b.light.all (fun i => decide (i < 2))

/-- A DOMAIN record (R363): a slice, its home member and a root of 32 bytes when the domain is present. -/
def DomainRec.ok (r : DomainRec) : Bool :=
  decide (r.slice < 1024 ∧ r.home < 4096) && (!r.present || decide (r.root.length = 32))

/-- Every operand is in range. -/
def Instr.wellFormed : Instr → Bool
  | .frameBoundary env => env.ok
  | .badAccess off _ _ => decide (off < 2 ^ 22)
  | .gatedAccess off _ => decide (off < 2 ^ 22)
  | .registerWrite _ off _ => decide (off < 2 ^ 22)
  | .irqEnWrite _ off _ => decide (off < 2 ^ 22)
  | .doorbellWrite off _ _ => decide (off < 2 ^ 22)
  | .descriptorFetchDone slice ring _ data => decide (slice < 1024 ∧ ring < 16 ∧ data.length = 128)
  | .descriptorFetchFail slice ring _ => decide (slice < 1024 ∧ ring < 16)
  | .sliceLoad slice => decide (slice < 1024)
  | .sliceReset slice => decide (slice < 1024)
  | .sliceQuiesce slice => decide (slice < 1024)
  | .sliceQuiesceComplete slice => decide (slice < 1024)
  | .sliceResume slice => decide (slice < 1024)
  | .sliceDisable slice => decide (slice < 1024)
  | .logAck slice _ => decide (slice < 1024)
  | .functionLevelReset _ fn => decide (fn < 2)
  | .indexFreed slice _ => decide (slice < 1024)
  | .contExpiry slice _ => decide (slice < 1024)
  | .componentTimeout slice => decide (slice < 1024)
  | .domainCreate slice => decide (slice < 1024)
  | .domainAdvance slice => decide (slice < 1024)
  | .raiseFloor slice => decide (slice < 1024)
  | .domainRekey slice => decide (slice < 1024)
  | .domainDestroy slice => decide (slice < 1024)
  | .tuSlicePolicyWrite _ slice _ => decide (slice < 1024)
  | .rawBlockClose cell _ => decide (cell < 8)
  | .cellHealthFail cell tests => decide (cell < 8 ∧ tests < 16)
  | .restartRunDone cell => decide (cell < 8)
  | .expanderAgeStop exp => decide (exp < 4)
  | .rngWarmupDone _ katExp => decide (katExp < 16)
  | .dbgChallenge scopes => decide (scopes < 16)
  | .dbgRespond scopes _ => decide (scopes < 16)
  | .tapChallenge scopes => decide (scopes < 16)
  | .tapRespond scopes _ => decide (scopes < 16)
  | .quOpen scope roles _ => decide (scope ≤ 1024 ∧ roles < 16)
  | .quSign scope _ => decide (scope ≤ 1024)
  | .quClose scope => decide (scope ≤ 1024)
  | .quEnroll scope _ => decide (scope ≤ 1024)
  | .quRemove scope role _ => decide (scope ≤ 1024 ∧ role < 4)
  | .quPolicy scope _ => decide (scope ≤ 1024)
  | .sessionExpiry scope => decide (scope ≤ 1024)
  | .tmpMesh run => decide (run.pair < 8) && run.periods.all MeshBit.ok
  | .tmpTs input _ => decide (input < 4)
  | .tmpRailUv rail => decide (rail < 7)
  | .tmpRailOv rail => decide (rail < 8)
  | .tmpTemp sensor _ => decide (sensor < 5)
  | .tmpLight sensor => decide (sensor < 16)
  | .tmpGlitch source => decide (source < 3)
  | .batteryCheck check => check.ok
  | .fabricAccess acc => acc.ok
  | .violClear group => decide (group < 8)
  | .mscRekey entry keyid => decide (entry < 16 ∧ keyid < 256)
  | .mscRetire keyid => decide (keyid < 256)
  | .mscInit entry => decide (entry < 16)
  | .fbExport _ _ scope => decide (scope ≤ 1024)
  | .storeRo store => decide (store < 2)
  | .muxSwitchDone mux => decide (mux < 3)
  | .clockFailure monitor _ _ => decide (monitor < 10)
  | .safeStateWait monitor _ _ => decide (monitor < 10)
  | .pmbusReadDone rail _ _ => decide (rail < 7)
  | .brownoutWarning rail _ => decide (rail < 16)
  | .netAdmit _ member _ => decide (member < 4096)
  | .netExpel member => decide (member < 4096)
  | .netBench member => decide (member < 4096)
  | .moveHome member slice => decide (member < 4096 ∧ slice < 1024)
  | .portRekey port => decide (port < 4)
  | .linkUp port _ _ _ => decide (port < 4)
  | .linkDown port cause => decide (port < 4 ∧ cause < 16)
  | .linkRetrain port => decide (port < 4)
  | .flitError port flit => decide (port < 4 ∧ flit.bytes.length = 32)
  | .replayTimeout port => decide (port < 4)
  | .netAck port _ => decide (port < 4)
  | .netNak port _ => decide (port < 4)
  | .netMark port _ => decide (port < 4)
  | .keySwitch port keyid _ => decide (port < 4 ∧ keyid < 16)
  | .linkHello port _ => decide (port < 4)
  | .netRoute port member hops => decide (port < 4 ∧ member < 4096 ∧ hops < 256)
  | .netTable h bench _ => decide (bench < 4096) && h.ok
  | .netTime h _ _ => h.ok
  | .netDomain h record => h.ok && record.ok
  | .netDomainAck h slice _ => decide (slice < 1024) && h.ok
  | .netLease h _ _ => h.ok
  | .netSync h _ => h.ok
  | .netWitness h _ _ => h.ok
  | .joinDone h => h.ok
  | .leaveMessage h => h.ok
  | .leaseLapse slice => decide (slice < 1024)
  | .gapTimeout slice => decide (slice < 1024)
  | .coldReset cause _ => decide (cause < 16)
  | .warmReset cause _ => decide (cause < 16)
  | .expanderRepeat exp => decide (exp < 4)
  | .linkKeyChangeAuto port => decide (port < 4)
  | .ackInterval port => decide (port < 4)
  | .pciePowerState _ fn _ => decide (fn < 2)
  | .vectorUnmask fn v => decide (fn < 2 ∧ v.vector < 1024) && v.table.all (fun e => decide (e.1 < 4096 ∧ e.2 < 2 ^ 32))
  | .dmaReadDone _ _ _ | .dmaReadFault _ _ | .sliceContextReadDone _ | .portLinkLoss _ | .portStall _
   | .portStallEnd _ | .heldRelease _ | .holdExpire _ | .pinTranslate _ _ | .pinVerifyOffset _ _ | .pinVerifyPvv _ _
   | .pinOffsetGenerate _ _ | .pvvGenerate _ _ | .cvvGenerate _ _ | .cvvVerify _ _ | .macGenerate _ _ | .macVerify _ _
   | .wagerSeal _ _ | .drawSeed _ _ | .dukptTdesPinTranslate _ _ | .dukptAesPinTranslate _ _ | .arqcVerify _ _
   | .keyblockImport _ _ | .keyblockExport _ _ | .tr34Recover _ _ | .tr34Import _ _ | .symEcb _ _ | .symCbc _ _
   | .symCtr _ _ | .symGcm _ _ | .symXts _ _ | .symMacGenerate _ _ | .symMacVerify _ _ | .hashOne _ _ | .hashBatch _ _
   | .hmacGenerate _ _ | .hmacVerify _ _ | .rsaSign _ _ | .rsaDecrypt _ _ | .rsaSignLarge _ _ | .rsaDecryptLarge _ _
   | .rsaVerify _ _ | .ecdsaSignP256 _ _ | .ecdsaVerifyP256 _ _ | .ecdsaSignP384 _ _ | .ecdsaVerifyP384 _ _
   | .eddsaSign _ _ | .eddsaVerify _ _ | .ecAgree _ _ | .pkKeygen _ _ | .pkKeygenContinue _ _ | .mlkemKeygen _ _
   | .mlkemEncaps _ _ | .mlkemDecaps _ _ | .mldsaSign _ _ | .mldsa87Sign _ _ | .mldsaVerify _ _ | .mldsaKeygen _ _
   | .keyGenerate _ _ | .keyDerive _ _ | .keyRewrap _ _ | .keyInvalidate _ _ | .keyComponent _ _ | .keyWrapExport _ _
   | .keyWrapImport _ _ | .keyAttest _ _ | .ctNodeWriteback | .datumGenerate | .idGenerate | .ksIdDataRead
   | .recipeDataWrite _ _ | .recipeLock _ | .routineDataWrite _ _ _ | .routineLock _ _ | .healthHoldEnd
   | .adminDrawServed | .rawTap _ _ | .rawTapDone | .rawTapDmaFail | .lcTransition _ | .transitionDrainEnd
   | .otpBitProgram _ | .lcZeroize | .zeroizeDrainEnd | .lcAccess _ | .lcStatus | .debugOpen | .otpProgram _
   | .otpRead _ | .signInVerified | .debugChallengeExpiry | .tmpZeroize | .tmpVbat _ | .batLow _ | .batRev
   | .tmpBatEvtWrite _ _ | .mscAlloc | .mscFlush | .walkDone | .wcbEntryAgeOut _ | .diagBufferWriteout | .exportEnd
   | .exportDmaFail | .fbThaw | .fbClear | .diagFlush | .freezeTimeout | .fbRefusals | .updStart _ | .verifyDone
   | .updateDrainEnd | .updSector _ _ | .updSectorWritten _ | .updWritten | .updActivate | .updAbort | .updConfirm
   | .trimIntervalEnd _ | .refLost | .refReturn | .clkMuxWrite _ _ | .fatalReset | .safeStateWaitEnd | .bkoFail _ _
   | .telemetryRound | .brownoutClear | .thermalCeilingOn | .thermalCeilingOff | .netCreate | .netRequest
   | .netAccept _ | .joinRequestExpiry | .netLeave | .frameStep | .domainResend | .cfgCheck | .cfgCommit | .cfgDiscard
   | .rstCold _ | .rstWarm _ | .resetDrainEnd | .powerUp _ | .serviceReady | .pwrFail | .pwrFailRise | .perst _ _
   | .tapRestart | .hostLinkUp _ _ _ _ | .poweredCheck | .mainPowerLoss | .pmbStuck => true

end Sys2Proof
end

