-- ==== Sys2Proof/Certificates/Slice0/Obligations.lean ====
section
/-! DEFINITION. The statements for the provers. Each is about one command, or several of one shape, in every state that
meets its hypotheses. A conclusion `exec c s = .next t` says that the command completes, and gives its whole next
state, so that whatever `t` does not change keeps its value (the outputs of `State.wires` apart, which follow the state). -/

open Sys2Proof Sys2Proof.Machine

/-! ## The machine -/

/-- A step performs the command at the front of the queue on the state with the queue's rest. The model's own reading
or choice where it rests on assumption 1. -/
def Obligations.StepRunsFrontCommand : Prop :=
  ∀ (c : Instr) (rest : List Instr) (s : State), s.pending = c :: rest → step s = exec c { s with pending := rest }

/-- On an empty queue the block idles: the model's own choice (assumption 1). -/
def Obligations.StepIdlesOnEmptyQueue : Prop := ∀ s : State, s.pending = [] → step s = .next s

/-- No command stops the machine: every one answers a next state (every error of the spec is an effect on the state).
-/
def Obligations.EveryCommandGoesOn : Prop := ∀ (c : Instr) (s : State), ∃ t : State, exec c s = .next t

/-- Every step keeps LC_TOKEN, TMP_STS.ARMED, TAMPER_OUT and LC_OTP_DAMAGED in agreement with the state they follow,
so LC_TOKEN.STATE, ARMED, the pin and the damage bits never lag behind (R257, R259, R273, R255). -/
def Obligations.StepKeepsOutputs : Prop :=
  ∀ s t : State, s.OutputsFollow → step s = .next t → t.OutputsFollow

/-- The outputs follow the state at reset. The model's own reading or choice where it rests on assumption 4. -/
def Obligations.ResetOutputsFollow : Prop := State.reset.OutputsFollow

/-- What the field maps give at reset: the part number, the battery and trim limits, the shares of the slices and the
state codes; no slice enabled, nothing in flight, nothing recorded, no session, FRAME_NO 0. The model's own reading or
choice where it rests on assumption 4. -/
def Obligations.ResetValues : Prop :=
  State.reset.get R.GLB_ID_PART = 0x9640 ∧ State.reset.frameNo = 0 ∧ State.reset.stage = 0 ∧
  State.reset.get R.HIF_PORT_CTL_MODE = 0 ∧
  (∀ n, n < 1024 → State.reset.enabled n = false ∧ State.reset.inflightOf n = 0) ∧
  State.reset.get R.TRV_STS_READY = 0 ∧ State.reset.get R.FB_STS_FROZEN = 0 ∧ State.reset.sessions = [] ∧
  (∀ b ∈ [3, 4, 5, 6, 7, 0xE, 0x10, 0x13, 0x14], State.reset.gated (b * 0x10000) = true)

/-- The interface of a doorbell (R40, R44, R59): of an enabled slice, with the generation right, the ring enabled and
not in fault and no reset waiting, a TAIL within the ring size that differs from the present TAIL replaces it, and
nothing else changes. The doorbells that are not accepted (R40, R44, R59), in the order of R44: a disabled slice
counts BAD_DB whatever the generation; another generation counts as stale; a ring disabled or in fault, or a reset
that waits, counts BAD_DB; a count above the ring size puts the ring in fault; the present TAIL changes nothing. A
write that is no aligned 64-bit write at a ring doorbell counts BAD_DB. -/
def Obligations.Doorbells : Prop :=
  (∀ (s : State) (n r word : Nat),
    let sl := s.slice n
    let rg := sl.ring r
    let tail := bits word 15 0
    n < 1024 → r < 16 → s.hif.dropDoorbells = false →
    bits word 39 32 = sl.gen → sl.st ≠ .disabled → rg.en = true → rg.fault = false → ¬(sl.st = .resetting ∧ sl.op.isSome) →
    (tail + 65536 - rg.head) % 65536 ≤ rg.size → tail ≠ rg.tail →
    exec (.doorbellWrite (n * 0x1000 + 8 * r) 8 word) s =
      .next (s.modSlice n (fun x => x.modRing r (fun g => { g with
        tail := tail, belled := true,
        bells := (if g.belled then g.bells.dropLast else g.bells) ++ [tail] }))).wires) ∧
  (∀ (s : State) (n r word : Nat),
    let sl := s.slice n
    let rg := sl.ring r
    let tail := bits word 15 0
    n < 1024 → r < 16 → s.hif.dropDoorbells = false →
    (sl.st = .disabled →
      exec (.doorbellWrite (n * 0x1000 + 8 * r) 8 word) s = .next (s.hifErr R.HIF_ERR_STS_BAD_DB n r).wires) ∧
    (sl.st ≠ .disabled → bits word 39 32 ≠ sl.gen →
      exec (.doorbellWrite (n * 0x1000 + 8 * r) 8 word) s =
        .next ((s.modSlice n (fun x => { x with staleDrops := (x.staleDrops + 1) % 2 ^ 32 })).hifErr
          R.HIF_ERR_STS_STALE n r).wires) ∧
    (sl.st ≠ .disabled → bits word 39 32 = sl.gen →
      (rg.en = false ∨ rg.fault = true ∨ (sl.st = .resetting ∧ sl.op.isSome)) →
      exec (.doorbellWrite (n * 0x1000 + 8 * r) 8 word) s = .next (s.hifErr R.HIF_ERR_STS_BAD_DB n r).wires) ∧
    (sl.st ≠ .disabled → bits word 39 32 = sl.gen → rg.en = true → rg.fault = false →
      ¬(sl.st = .resetting ∧ sl.op.isSome) → rg.size < (tail + 65536 - rg.head) % 65536 →
      exec (.doorbellWrite (n * 0x1000 + 8 * r) 8 word) s =
        .next ((s.modSlice n (fun x => x.modRing r (fun g => { g with fault := true, held := [], failed := none }))).hifErr
          R.HIF_ERR_STS_RING_FAULT n r).wires) ∧
    (sl.st ≠ .disabled → bits word 39 32 = sl.gen → rg.en = true → rg.fault = false →
      ¬(sl.st = .resetting ∧ sl.op.isSome) → (tail + 65536 - rg.head) % 65536 ≤ rg.size → tail = rg.tail →
      exec (.doorbellWrite (n * 0x1000 + 8 * r) 8 word) s = .next s.wires) ∧
    (∀ o width, o < 0x1000 → (width ≠ 8 ∨ o % 8 ≠ 0 ∨ 128 ≤ o) →
      exec (.doorbellWrite (n * 0x1000 + o) width word) s = .next (s.hifErr R.HIF_ERR_STS_BAD_DB n 0).wires))

/-- A descriptor that a fetch brings while the DMA of the slice's home port runs is held for its ring, cut or extended to
128 bytes, and a fetch that fails marks the descriptor, the earliest in ring order of several; one that is not announced,
or of a ring that is not enabled or in fault, changes nothing (R36, R37, R401). -/
def Obligations.DescriptorFetch : Prop :=
  ∀ (s : State) (n r k : Nat) (data : Bytes),
    (((s.slice n).ring r).awaits k = true →
      (s.dmaOn (s.slice n).port = true →
        exec (.descriptorFetchDone n r k data) s =
          .next (s.modSlice n (fun x => x.modRing r (fun g => { g with held := g.held.ins k (fitTo 128 data) }))).wires) ∧
      (s.dmaOn (s.slice n).port = false → exec (.descriptorFetchDone n r k data) s = .next s.wires) ∧
      exec (.descriptorFetchFail n r k) s =
        .next (s.modSlice n (fun x => x.modRing r (fun g => { g with failed := match g.failed with
          | none => some k
          | some j => if (k + 65536 - g.head) % 65536 < (j + 65536 - g.head) % 65536 then some k else some j }))).wires) ∧
    (((s.slice n).ring r).awaits k = false →
      exec (.descriptorFetchDone n r k data) s = .next s.wires ∧
      exec (.descriptorFetchFail n r k) s = .next s.wires)

/-- An input read of an in-flight command that completes while the DMA of its slice's home port runs fills its target and
waits no more; one that fails is noted as failed; a read the command does not wait for is discarded (R36, R37, R54).
Nothing but the command's entry changes. The model's own reading or choice where it rests on assumption 6. -/
def Obligations.InputReads : Prop :=
  ∀ (s : State) (c : Cmd) (target : Nat) (data : Bytes), s.cmd? c.id = some c →
    (target ∈ c.want →
      (s.dmaOn (s.slice c.slice).port = true →
        exec (.dmaReadDone c.id target data) s =
          .next (s.putCmd { c with
            want := c.want.filter (· != target),
            inputs := c.inputs.ins target (fitTo (if target < 4 then Desc.bufLen c.desc target else data.length) data) }).wires) ∧
      (s.dmaOn (s.slice c.slice).port = false → exec (.dmaReadDone c.id target data) s = .next s.wires) ∧
      exec (.dmaReadFault c.id target) s =
        .next (s.putCmd { c with want := c.want.filter (· != target), failed := c.failed ++ [target] }).wires) ∧
    (target ∉ c.want →
      exec (.dmaReadDone c.id target data) s = .next s.wires ∧ exec (.dmaReadFault c.id target) s = .next s.wires)

/-- RESET, QUIESCE, RESUME and DISABLE of a slice that is not disabled and has no operation under way are accepted
with ERR 0 and wait for the boundary. RESET and DISABLE make the slice RESETTING at once and ask for its new ephemeral
key, a draw of 32 bytes (R58, R59, R221). A slice operation is rejected with ERR 4 while an earlier one has not taken
effect, and with ERR 5 on a slice that is disabled; nothing else changes (R59). -/
def Obligations.SliceOperations : Prop :=
  (∀ (s : State) (n : Nat),
    s.writable 0x010010 = true → s.on R.HIF_SLICE_CMD_STS_BUSY = false → s.sliceBusy n = false →
    s.hif.staged.any (fun e => e.1 == n) = false → (s.slice n).st ≠ .disabled →
    let acc := s.set R.HIF_SLICE_CMD_STS_ERR 0 0
    let ek (t : State) : State :=
      ({ t with rng := { t.rng with waiting := t.rng.waiting ++ [(32, AdminOp.ephemeral n)] } }).set R.RNG_POOL_STS_WAITING 0
        (t.rng.waiting.length + 1)
    exec (.sliceReset n) s =
      .next (ek (acc.modSlice n (fun x => { x with op := some .reset, st := .resetting }))).wires ∧
    exec (.sliceDisable n) s =
      .next (ek (acc.modSlice n (fun x => { x with op := some .disable, st := .resetting }))).wires ∧
    exec (.sliceQuiesce n) s = .next (acc.modSlice n (fun x => { x with op := some .quiesce })).wires ∧
    exec (.sliceResume n) s = .next (acc.modSlice n (fun x => { x with op := some .resume })).wires) ∧
  (∀ (s : State) (n : Nat), s.writable 0x010010 = true → s.on R.HIF_SLICE_CMD_STS_BUSY = false →
    ∀ c ∈ [Instr.sliceReset n, .sliceQuiesce n, .sliceResume n, .sliceDisable n],
      (s.sliceBusy n = true → exec c s = .next (s.set R.HIF_SLICE_CMD_STS_ERR 0 4).wires) ∧
      (s.sliceBusy n = false → s.hif.staged.any (fun e => e.1 == n) = false → (s.slice n).st = .disabled →
        exec c s = .next (s.set R.HIF_SLICE_CMD_STS_ERR 0 5).wires))

/-- LOAD begins the read of the context block with BUSY, and the block that was read is staged with ERR 0 when it
meets R41 and, for a READY slice, changes only INTR_EN and the log fields (R41, R42, R64). A QUIESCING slice with
nothing in flight becomes QUIESCED (R59), and HIF_LOG_ACK sets the acknowledged count of the slice's log (R60);
nothing else changes. The model's own reading or choice where it rests on assumption 56. -/
def Obligations.SliceUpkeep : Prop :=
  (∀ (s : State) (n : Nat),
    (s.writable 0x010010 = true → s.on R.HIF_SLICE_CMD_STS_BUSY = false → s.on R.GLB_CFG_STS_BUSY = false →
      s.sliceBusy n = false →
      exec (.sliceLoad n) s =
        .next ({ s.set R.HIF_SLICE_CMD_STS_BUSY 0 1 with
          hif := { s.hif with loading := some n } }).wires) ∧
    (∀ (b : Bytes) (c : SliceCtx), s.hif.loading = some n → parseCtx b = some c → s.on R.GLB_CFG_STS_BUSY = false →
      s.dmaOn s.adminPort = true →
      s.sliceBusy n = false → ((s.slice n).st = .ready → sameForReady c (s.slice n).ctx = true) →
      exec (.sliceContextReadDone (some b)) s =
        .next (({ s.set R.HIF_SLICE_CMD_STS_BUSY 0 0 with
          hif := { s.hif with loading := none, staged := s.hif.staged.ins n c },
          glb := { s.glb with clean := false } }).set R.HIF_SLICE_CMD_STS_ERR 0 0).wires)) ∧
  (∀ (s : State) (n count : Nat),
    ((s.slice n).st = .quiescing → s.inflightOf n = 0 →
      exec (.sliceQuiesceComplete n) s = .next (s.modSlice n (fun x => { x with st := .quiesced })).wires) ∧
    (s.writable 0x010018 = true →
      exec (.logAck n count) s = .next (s.modSlice n (fun x => { x with logAck := count % 2 ^ 32 })).wires))

/-- A port that has been without posted-write credit is stalled: STALL is set, reported and recorded at severity 2 once,
and its descriptors are refused from then on (R53). When credit returns the flag clears and, with the port's link up and its
functions in D0, its queued writes leave in order; writes of the other port keep their place, and without the link they wait
(R38). A function moved to D3hot sends nothing more; with the link up, both functions of the port in D0 and credit its queued
writes leave in order (R36, R53). The table entries that the host writes hold their dwords, and a vector that is unmasked sends
its pending message, with the address and data of its entry, and only then (R39, R55). The model's own reading or choice where it
rests on assumptions 17, 55, 60. -/
def Obligations.PostedWrites : Prop :=
  (∀ (s : State) (portB : Bool),
    let p := portOf portB
    let dry : State := { s with hif := if p = 0 then { s.hif with creditA := false, dryA := max 64 s.hif.dryA, lostA := true }
      else { s.hif with creditB := false, dryB := max 64 s.hif.dryB, lostB := true } }
    let h := if p = 0 then { s.hif with creditA := true, dryA := 0, lostA := false }
      else { s.hif with creditB := true, dryB := 0, lostB := false }
    (s.on (stallField p) = false →
      exec (.portStall portB) s =
        .next (((dry.set (stallField p) 0 1).hifErr (if p = 0 then R.HIF_ERR_STS_STALL_A else R.HIF_ERR_STS_STALL_B) 0 0).record
          0x0202 2 devScope p).wires) ∧
    (s.on (stallField p) = true → exec (.portStall portB) s = .next dry.wires) ∧
    (s.dmaOn p = true →
      exec (.portStallEnd portB) s =
        .next ({ s.set (stallField p) 0 0 with
          hif := { h with
            sent := s.hif.sent ++ s.hif.txq.filter (fun (w : Post) => w.port == p),
            txq := s.hif.txq.filter (fun (w : Post) => w.port != p) } }).wires) ∧
    (s.dmaOn p = false →
      exec (.portStallEnd portB) s = .next ({ s.set (stallField p) 0 0 with hif := h }).wires)) ∧
  (∀ (s : State),
    (∀ portB fn, fn < 2 →
      exec (.pciePowerState portB fn true) s =
        .next ({ s with hif := { s.hif with d3 := Tab.put false s.hif.d3 (portOf portB * 2 + fn) true } }).wires) ∧
    (∀ portB fn, fn < 2 → (if portOf portB = 0 then s.hif.creditA else s.hif.creditB) = true → s.linkUp (portOf portB) = true →
      Tab.get false s.hif.d3 (portOf portB * 2 + (1 - fn)) = false →
      exec (.pciePowerState portB fn false) s =
        .next ({ s with hif := { s.hif with
          d3 := Tab.put false s.hif.d3 (portOf portB * 2 + fn) false,
          sent := s.hif.sent ++ s.hif.txq.filter (fun (w : Post) => w.port == portOf portB),
          txq := s.hif.txq.filter (fun (w : Post) => w.port != portOf portB) } }).wires) ∧
    (∀ fn vec table, fn < 2 → vec < 1024 →
      let k := fn * 1024 + vec
      let w := table.foldl (fun (u : State) (e : Nat × Nat) => u.msixWrite fn e.1 e.2) s
      let t := { w with hif := { w.hif with unmasked := Tab.put false w.hif.unmasked k true, pba := Tab.put false w.hif.pba k false } }
      (Tab.get false w.hif.pba k = false → exec (.vectorUnmask fn ⟨vec, table⟩) s = .next t.wires) ∧
      (Tab.get false w.hif.pba k = true →
        exec (.vectorUnmask fn ⟨vec, table⟩) s =
          .next (t.post { port := if fn = 1 then (w.slice vec).port else w.adminPort, kind := .msix,
                          slice := if fn = 1 then vec else 0, gen := 0, cmd := k,
                          addr := w.msixEntry fn vec 1 * 2 ^ 32 + w.msixEntry fn vec 0 / 4 * 4,
                          data := toLE 4 (w.msixEntry fn vec 2) }).wires)) ∧
    (∀ fn vec i v, vec < pcieVectors fn → i < 3 →
      let w := s.msixWrite fn (4 * vec + i) v
      w.msixEntry fn vec i = v % 2 ^ 32 ∧ w.hif.sent = s.hif.sent ∧ w.hif.pba = s.hif.pba ∧
      (∀ vec' j, vec' < 1024 → vec < 1024 → j < 3 → (vec' ≠ vec ∨ j ≠ i) → w.msixEntry fn vec' j = s.msixEntry fn vec' j)))

/-- A host link that trains shows its width, rate and FLIT mode, and what waited for it leaves, unless the port mode holds
the port in reset (R37, R38, R369). The loss of a host port's link (R38): in joined mode with the other port up its slices move there at the next
boundary; else a warm reset of cause 0xA is asked for, unless the port mode holds the port in reset. A Function Level
Reset of function 0 asks for a warm reset of cause 9, and one of function 1 resets every slice whose home port is that port
and that is READY, QUIESCING or QUIESCED, in ascending slice number (R39): it waits for the boundary as RESETTING, with its new
ephemeral key asked for. The model's own reading or choice where it
rests on assumption 64. -/
def Obligations.HostLinks : Prop :=
  (∀ (s : State) (width rate : Nat) (flit : Bool),
    (s.portInReset 0 = false →
      exec (.hostLinkUp false width rate flit) s =
        .next ((((s.set R.HIF_PORT_STS_LINK_A 0 1).set R.HIF_PORT_STS_WIDTH_A 0 width).set R.HIF_PORT_STS_RATE_A 0 rate).set
          R.HIF_PORT_STS_FLIT_A 0 (b2n flit) |>.drainPort 0).wires) ∧
    (s.portInReset 1 = false →
      exec (.hostLinkUp true width rate flit) s =
        .next ((((s.set R.HIF_PORT_STS_LINK_B 0 1).set R.HIF_PORT_STS_WIDTH_B 0 width).set R.HIF_PORT_STS_RATE_B 0 rate).set
          R.HIF_PORT_STS_FLIT_B 0 (b2n flit) |>.drainPort 1).wires) ∧
    (∀ portB, s.portInReset (portOf portB) = true → exec (.hostLinkUp portB width rate flit) s = .next s.wires)) ∧
  (∀ (s : State) (portB : Bool), s.glb.rst = none →
    let p := portOf portB
    let t := (s.set (linkField p) 0 0).set (if p = 0 then R.HIF_PORT_STS_RATE_A else R.HIF_PORT_STS_RATE_B) 0 0
    (s.get R.HIF_PORT_CTL_MODE = 2 → s.linkUp (1 - p) = true →
      exec (.portLinkLoss portB) s = .next ({ t with hif := { s.hif with moving := some p } }).wires) ∧
    (s.get R.HIF_PORT_CTL_MODE = 2 → s.linkUp (1 - p) = false →
      exec (.portLinkLoss portB) s = .next ({ t with glb := { s.glb with rst := some ⟨true, 0xA, false⟩ } }).wires) ∧
    (s.get R.HIF_PORT_CTL_MODE ≠ 2 → s.portInReset p = false →
      exec (.portLinkLoss portB) s = .next ({ t with glb := { s.glb with rst := some ⟨true, 0xA, false⟩ } }).wires) ∧
    (s.get R.HIF_PORT_CTL_MODE ≠ 2 → s.portInReset p = true → exec (.portLinkLoss portB) s = .next t.wires)) ∧
  (∀ (s : State) (portB : Bool),
    (s.glb.rst = none →
      exec (.functionLevelReset portB 0) s =
        .next ({ s with glb := { s.glb with rst := some ⟨true, 9, false⟩ } }).wires) ∧
    exec (.functionLevelReset portB 1) s =
      .next (s.sliceNos.foldl (fun t n =>
        if (t.slice n).port = portOf portB ∧
            ((t.slice n).st = .ready ∨ (t.slice n).st = .quiescing ∨ (t.slice n).st = .quiesced)
        then
          let u := t.modSlice n (fun x => { x with op := some .reset, st := .resetting })
          ({ u with rng := { u.rng with waiting := u.rng.waiting ++ [(32, AdminOp.ephemeral n)] } }).set R.RNG_POOL_STS_WAITING 0
            (u.rng.waiting.length + 1)
        else t) s).wires)

/-! ## Registers and the fabric -/

/-- R10. Widths and alignment of the registers, what a badly shaped access returns and changes, and its one record. -/
def Obligations.BadAccess : Prop :=
  (∀ (off i : Nat) (r : Reg), regAt off = some (r, i) →
    off % 4 = 0 ∧ (r.wide = true → off % 8 = 0) ∧ ∀ width, badShape off width = true ↔ width ≠ if r.wide then 8 else 4) ∧
  (∀ (s : State) (off width : Nat) (isWrite : Bool), badShape off width = true →
    s.bar0Read off width = 0 ∧
    (s.glb.powered = true → s.stage ≠ 0 → s.glb.badSeen = false →
      exec (.badAccess off width isWrite) s =
        .next (({ s with glb := { s.glb with badSeen := true } }).record 0x0203 1 devScope off width (b2n isWrite)).wires) ∧
    (s.glb.powered = false ∨ s.stage = 0 ∨ s.glb.badSeen = true → exec (.badAccess off width isWrite) s = .next s.wires)) ∧
  (∀ (s : State) (cause : Nat) (boot : BootEnv), s.glb.powered = true →
    ∃ t, exec (.coldReset cause boot) s = .next t ∧ t.glb.badSeen = false)

/-- R14. Offsets without a register, and blocks whose clock gate is off. -/
def Obligations.UnoccupiedAndGated : Prop :=
  (∀ (s : State) (src : Src) (off width value : Nat), regAt off = none →
    s.bar0Read off width = 0 ∧ exec (.registerWrite src off value) s = .next s.wires) ∧
  (∀ (s : State) (off width value : Nat), (regAt off).isSome = true → s.glb.powered = true → s.gated off = true →
    s.bar0Read off width = 0 ∧
    exec (.registerWrite .admin off value) s = .next (s.violate 2 1 1 (0x10000000 + off) 1024 0).wires ∧
    (∀ isWrite, exec (.gatedAccess off isWrite) s = .next (s.violate 2 1 (b2n isWrite) (0x10000000 + off) 1024 0).wires)) ∧
  (∀ (s : State) (a : FabricAcc) (off : Nat), a.ok = true → a.addr % 4096 + a.len ≤ 4096 → a.group ≠ 7 → s.glb.powered = true →
    fabStore a.addr = some (.regs, off) → s.gated off = true →
    exec (.fabricAccess a) s = .next (((s.flipDescs a.descFlips).dramErrors a.badReads []).refusePiece a 1 0).wires)

/-- What a capture of the guards holds: a violation of a group with no capture fills ADDR, CAUSE, OP, COLOUR and
MASTER of that group and counts from 0; while a capture stands the count rises and the capture keeps (R284). A write
of 1 to VALID clears both. -/
def Obligations.ViolationCapture : Prop :=
  ∀ (s : State) (g cause op addr master colour : Nat), g < 8 → cause < 16 → op < 4 → addr < 2 ^ 40 → master < 2 ^ 11 → colour < 16 →
    (s.on R.GRD_VIOL_INFO_VALID g = false →
      let t := s.violate g cause op addr master colour
      t.on R.GRD_VIOL_INFO_VALID g = true ∧ t.get R.GRD_VIOL_INFO_CAUSE g = cause ∧ t.get R.GRD_VIOL_INFO_OP g = op ∧
      t.get R.GRD_VIOL_ADDR_ADDR g = addr ∧ t.get R.GRD_VIOL_INFO_MASTER g = master ∧ t.get R.GRD_VIOL_INFO_COLOUR g = colour ∧
      t.get R.GRD_VIOL_OVF_COUNT g = 0) ∧
    (s.on R.GRD_VIOL_INFO_VALID g = true →
      s.violate g cause op addr master colour = s.bumpSat R.GRD_VIOL_OVF_COUNT g) ∧
    (s.writable 0x0D0108 = true →
      ∃ t, exec (.violClear g) s = .next t ∧ t.on R.GRD_VIOL_INFO_VALID g = false ∧ t.get R.GRD_VIOL_OVF_COUNT g = 0 ∧
        t.get R.GRD_VIOL_ADDR_ADDR g = 0 ∧ t.fab = s.fab ∧ t.fb = s.fb ∧ t.trv = s.trv)

/-- A register write by the access type of each field (R11, R13): RW and RWS take the value, W1C clears and W1S sets
where the word has a 1, ST is staged, RO and WO keep. For a register whose write does nothing more. A block that takes
no write keeps everything: in END and INVALID, while halted, and before stage 2, a write of any register but
GLB_RST_CMD, LC_TRANSITION, KS_DATUM_CMD (its write is recorded while CLAMP is 1) and the W1C of TMP_EVT_STS changes nothing (R238,
R263, R369). The model's own reading or
choice where it rests on assumption 58. -/
def Obligations.PlainRegisterWrites : Prop :=
  (∀ (s : State) (src : Src) (off word i : Nat) (r : Reg), regAt off = some (r, i) →
    s.writable off = true → guardOwned off = false → s.specialWrite src off word = none →
    off ≠ 0x000030 → off ≠ 0x0A0008 →
    exec (.registerWrite src off word) s =
      .next (r.fields.foldl (fun t f =>
        let v := word / 2 ^ f.lo % 2 ^ f.width
        match f.acc with
        | .rw | .rws => t.set f i v
        | .w1c => t.set f i (t.get f i ^^^ (t.get f i &&& v))
        | .w1s => t.set f i (t.get f i ||| v)
        | .st => t.stageField f i v none
        | .ro | .wo => t) s).wires) ∧
  (∀ (s : State) (src : Src) (off word : Nat), s.gated off = false → s.writable off = false →
    off ≠ 0x000030 → off ≠ 0x080008 → off ≠ 0x0A0008 → off ≠ 0x0C0008 →
    exec (.registerWrite src off word) s = .next s.wires)

/-- R287. Writes of the GRD and MSC registers. -/
def Obligations.GuardRegisterWrites : Prop :=
  ∀ (s : State) (src : Src) (off word i : Nat) (r : Reg), regAt off = some (r, i) → guardOwned off = true →
    s.writable off = true →
    (∀ g, g < 8 → off = 0x0D0108 + 16 * g →
      (src = .admin ∨ src = .corePriv →
        exec (.registerWrite src off word) s = .next (if bit word 31 then s.violClear g else s).wires)) ∧
    (src = .core ∨ src = .tamp ∨ src = .debug → exec (.registerWrite src off word) s = .next s.wires) ∧
    ((∀ g, off = 0x0D0108 + 16 * g → 8 ≤ g) →
    let clears := (r.fields.filter (fun f => f.acc == .w1c)).foldl (fun t f =>
      t.set f i (t.get f i ^^^ (t.get f i &&& (word / 2 ^ f.lo % 2 ^ f.width)))) s
    ((∃ f ∈ r.fields, f.acc = .rw ∨ f.acc = .st ∨ f.acc = .wo ∨ f.acc = .rws ∨ f.acc = .w1s) →
      exec (.registerWrite .admin off word) s = .next (clears.record 0x0502 2 devScope off).wires) ∧
    ((∀ f ∈ r.fields, f.acc = .w1c ∨ f.acc = .ro) →
      exec (.registerWrite .admin off word) s = .next clears.wires) ∧
    (s.specialWrite .corePriv off word = none →
      exec (.registerWrite .corePriv off word) s =
        .next (r.fields.foldl (fun t f => t.writeField none f i word) s).wires))

/-- An IRQ_EN write sets the enables, and a bit enabled whose status bit is 1 already raises the block's vector (R55).
-/
def Obligations.InterruptEnableWrite : Prop :=
  ∀ (s : State) (src : Src) (off word sts vec : Nat) (en : Field), irqOf off = some (en, sts, vec) → s.writable off = true →
    (guardOwned off = true → src = .corePriv) →
    let t := s.set en 0 (word % 2 ^ 32)
    ((t.get en &&& s.storedAt sts) &&& (2 ^ 64 - 1 - s.get en) = 0 →
      exec (.irqEnWrite src off word) s = .next t.wires ∧ exec (.registerWrite src off word) s = .next t.wires) ∧
    ((t.get en &&& s.storedAt sts) &&& (2 ^ 64 - 1 - s.get en) ≠ 0 →
      exec (.irqEnWrite src off word) s = .next (t.raise vec).wires ∧ exec (.registerWrite src off word) s = .next (t.raise vec).wires)

/-- The writes that need a session or a mode (R121, R274): TU_SLICE_POLICY of a slice is staged while a session of the
slice holds the Security Officer role and is dropped and recorded else; TMP_BAT_EVT clears the bits written 1, but in
SERVICE only under the device's Security Officers. The raw-bit tap and the clock muxes (R226, R334): RNG_RAW_CTL with
EN takes its fields and asks for the tap of an enabled cell, unless it is tapped already, when four other cells stay in use and, in SERVICE, the
device's Security Officers cover it; it is dropped and recorded else. CLK_MUX takes its selections from Tamp or a privileged
core before SERVICE_READY, each changed mux BUSY; any other write is dropped, flagged and recorded. The model's own
reading or choice where it rests on assumption 58. -/
def Obligations.GuardedWrites : Prop :=
  (∀ (s : State) (src : Src) (n word : Nat), n < 1024 →
    (s.writable (0x031000 + 4 * n) = true →
      (s.holds n roleSO = true →
        exec (.tuSlicePolicyWrite src n word) s =
          .next (s.writeFields (some (s.session n).id) (0x031000 + 4 * n) word).wires) ∧
      (s.holds n roleSO = false →
        exec (.tuSlicePolicyWrite src n word) s = .next (s.record 0x0502 2 devScope (0x031000 + 4 * n)).wires)) ∧
    (s.writable 0x0C000C = true →
      ((s.get R.LC_STATE_CODE ≠ 3 ∨ s.holds devSession roleSO = true) →
        exec (.tmpBatEvtWrite src word) s =
          .next (s.set R.TMP_BAT_EVT_EVT 0
            (s.get R.TMP_BAT_EVT_EVT ^^^ (s.get R.TMP_BAT_EVT_EVT &&& word % 2 ^ 32))).wires) ∧
      (s.get R.LC_STATE_CODE = 3 → s.holds devSession roleSO = false →
        exec (.tmpBatEvtWrite src word) s = .next (s.record 0x0502 2 devScope 0x0C000C).wires))) ∧
  (∀ (s : State) (src : Src) (v : Nat),
    let c := bits v 3 1
    let free := ((List.range 8).filter (fun i => i != c && s.rng.cell i == .inUse)).length
    (s.writable 0x090040 = true → bit v 0 = true → 4 ≤ free → bit (s.get R.RNG_CTL_CELL_EN) c = true →
      (s.get R.LC_STATE_CODE ≠ 3 ∨ s.holds devSession roleSO = true) →
      let t := (((s.set R.RNG_RAW_CTL_EN 0 1).set R.RNG_RAW_CTL_CELL 0 c).set R.RNG_RAW_CTL_RESTART 0 (bits v 4 4)).set
        R.RNG_RAW_CTL_RESTART_LEN 0 (bits v 31 16)
      (s.rng.tap ≠ some c → exec (.rawTap src v) s = .next ({ t with rng := { s.rng with tapReq := some c } }).wires) ∧
      (s.rng.tap = some c → Gives (exec (.rawTap src v) s) (fun u => u.rng.tapReq = none ∧ u.rng.tap = s.rng.tap ∧
        u.rng.tapLeft = s.rng.tapLeft ∧ u.get R.RNG_RAW_CTL_RESTART = bits v 4 4))) ∧
    (s.writable 0x090040 = true → bit v 0 = true →
      (free < 4 ∨ bit (s.get R.RNG_CTL_CELL_EN) c = false ∨ (s.get R.LC_STATE_CODE = 3 ∧ s.holds devSession roleSO = false)) →
      exec (.rawTap src v) s = .next s.rngEventRecord.wires) ∧
    (s.writable 0x110010 = true → (src = .corePriv ∨ src = .tamp) → s.on R.GLB_STS_SERVICE_READY = false →
      exec (.clkMuxWrite src v) s =
        .next ((((s.set R.CLK_MUX_CORE 0 (bits v 0 0)).set R.CLK_MUX_SEQ 0 (bits v 1 1)).set R.CLK_MUX_DDR 0 (bits v 2 2)).set
          R.CLK_MUX_STS_BUSY 0 (s.get R.CLK_MUX_STS_BUSY ||| ((s.storedAt 0x110010 ^^^ v) % 8))).wires) ∧
    (s.writable 0x110010 = true → ((src ≠ .corePriv ∧ src ≠ .tamp) ∨ s.on R.GLB_STS_SERVICE_READY = true) →
      exec (.clkMuxWrite src v) s = .next ((s.clkErr R.CLK_ERR_STS_MUX_DROP 0 0).clkRecord 7).wires))

/-- Recipe and routine stores (R90, R153): a word that Tamp writes goes to both copies at the index, good in both, and the
index advances and wraps, while the store is not locked; setting LOCK shows SHA-384 of the store as its digest, and the version
of its header (an uninterpreted function of its words, assumption 22); no other source loads or locks a store. Nothing else
changes. The model's own reading or choice where it rests on assumptions 2, 22, 53. -/
def Obligations.StoreLoading : Prop :=
  ∀ (s : State) (src : Src) (value : Nat) (lattice : Bool),
    let x : StoreId := if lattice then .luRoutine else .pkRoutine
    let put (i : StoreId) (st : Store) : Store :=
      let n := s.get i.idx
      { st with copyA := Tab.put 0 st.copyA n (BitVec.ofNat 64 value), copyB := Tab.put 0 st.copyB n (BitVec.ofNat 64 value),
                badA := Tab.put false st.badA n false, badB := Tab.put false st.badB n false }
    let digest (i : StoreId) : Bytes := hashOf 0x03 48 ((s.store i).bytes i.words)
    let version (i : StoreId) : Nat := Config.storeVersion (s.store i).copyA
    let locked (i : StoreId) : State :=
      (((List.range 6).foldl (fun t k => t.set i.digest k (fieldLE (digest i) (8 * k) 8)) (s.set i.lock 0 1)).set i.major 0
        (version i / 65536 % 65536)).set i.minor 0 (version i % 65536)
    (src = .corePriv ∨ src = .tamp → s.writable 0x030010 = true → s.on R.TU_CTL_LOCK = false →
      exec (.recipeDataWrite src value) s =
        .next (({ s with tuStore := put .recipe s.tuStore }).set R.TU_RECIPE_IDX_WORD 0 ((s.get R.TU_RECIPE_IDX_WORD + 1) % 32768)).wires) ∧
    (src = .corePriv ∨ src = .tamp → s.writable 0x050010 = true → s.on R.PK_CTL_LOCK = false →
      exec (.routineDataWrite false src value) s =
        .next (({ s with pkStore := put .pkRoutine s.pkStore }).set R.PK_ROUTINE_IDX_WORD 0
          ((s.get R.PK_ROUTINE_IDX_WORD + 1) % 65536)).wires) ∧
    (src = .corePriv ∨ src = .tamp → s.writable 0x060010 = true → s.on R.LU_CTL_LOCK = false →
      exec (.routineDataWrite true src value) s =
        .next (({ s with luStore := put .luRoutine s.luStore }).set R.LU_ROUTINE_IDX_WORD 0
          ((s.get R.LU_ROUTINE_IDX_WORD + 1) % 32768)).wires) ∧
    (src = .corePriv ∨ src = .tamp → s.writable 0x030000 = true → s.on R.TU_CTL_LOCK = false →
      exec (.recipeLock src) s = .next (locked .recipe).wires) ∧
    (src = .corePriv ∨ src = .tamp → s.writable (if lattice then 0x060000 else 0x050000) = true → s.on x.lock = false →
      exec (.routineLock lattice src) s = .next (locked x).wires) ∧
    (s.gated 0x030000 = false → s.gated 0x050000 = false → s.gated 0x060000 = false → src ≠ .corePriv → src ≠ .tamp →
      ∀ c ∈ [Instr.recipeDataWrite src value, .recipeLock src, .routineDataWrite lattice src value,
        .routineLock lattice src], exec c s = .next s.wires)

/-- A piece that a region or the default map grants at on-chip memory, with the colours open to it: a write stores its
bytes at its addresses and nowhere else, a read returns the bytes and stores nothing, and the memory keeps its form
(R23, R276, R278, R281). A piece that no region matches is refused: with cause 4 for every group but that of the
privileged cores, the violation is captured and a read returns zeros (R280, R284). A transaction is split at every 4 KB
boundary into pieces of one page that make up its length (R23). The model's own reading or choice
where it rests on assumption 41. -/
def Obligations.FabricPieces : Prop :=
  (∀ (s : State) (a : FabricAcc) (x : FabStore) (off : Nat) (gr : Grant),
    a.ok = true → a.addr % 4096 + a.len ≤ 4096 → a.op < 2 → a.group ≠ 7 → s.glb.powered = true → fabStore a.addr = some (x, off) →
    (x = .staging ∨ x = .coreMem ∨ x = .otherSram) →
    let w := (s.flipDescs a.descFlips).dramErrors a.badReads []
    w.regionCheck a x off = (0xF, gr, w) → gr.anycol = true →
    ∃ t, exec (.fabricAccess a) s = .next t ∧
      (a.op = 1 → ∀ b, t.ramByte b =
        if a.addr ≤ b ∧ b < a.addr + a.len then (fitTo a.len a.data).getD (b - a.addr) 0 else s.ramByte b) ∧
      (a.op = 0 → t.fab.reply.cause = 0xF ∧ t.fab.reply.data = (List.range a.len).map (fun i => s.ramByte (a.addr + i))) ∧
      (a.op = 0 → ∀ b, t.ramByte b = s.ramByte b) ∧
      (Memory.wf s.fab.ram = true → Memory.wf t.fab.ram = true) ∧
      t.fab.lines = w.fab.lines ∧ t.trv = s.trv ∧ t.hif = s.hif ∧ t.ks = s.ks ∧ t.fb = s.fb) ∧
  (∀ (s : State) (a : FabricAcc) (x : FabStore) (off : Nat),
    a.ok = true → a.addr % 4096 + a.len ≤ 4096 → a.group ≠ 7 → a.group ≠ 0 → s.glb.powered = true → fabStore a.addr = some (x, off) →
    s.storeGated x off = false →
    lockedFor x off a.group a.master a.op = false → s.groupBad a.group = false → s.matching a.group a.addr = [] →
    exec (.fabricAccess a) s = .next (((s.flipDescs a.descFlips).dramErrors a.badReads []).refusePiece a 4 0).wires) ∧
  (∀ a : FabricAcc,
    let ps := fabPieces (a.len / 4096 + 2) a
    (∀ p ∈ ps, p.addr % 4096 + p.len ≤ 4096) ∧ (ps.map (fun p => p.len)).sum = a.len ∧ ps.head?.map (fun p => p.addr) = some a.addr)

/-! ## The engines (classes 0x01 to 0x08, 0x10, 0x11, 0x20 to 0x33) -/

/-- Every row of an engine runs the step its command holds a grant for, with tokens and without anything that voids it: the
code of the first failing check of a first step ends the output (R92, R93, R143, R155); otherwise the step that does the
opcode's work takes its code, its output and its effect on keys, slices and record from it, and the other steps leave them
alone. The command moves to its next step and uses up its grant, every other command stays as it is, and outside the key
store, the record, the host interface, the random numbers, Traverse, Dose, the tiles, the slots the command holds and the
registers nothing changes. What a step meters keeps an attempt within the table of R176 or its Dose price, a bulk step within
the energy of its blocks (R144). The model's own reading or choice where it rests on assumptions 2, 3, 6, 68, 69. -/
def Obligations.EngineStepRuns : Prop :=
  (∀ (s : State) (c : Cmd) (cl hl : Nat),
    (isBulk c.desc = false → c.used ≤ energyCap c → c.used + (s.stepEnergy c cl hl).1 ≤ energyCap c) ∧
    (isBulk c.desc = true → (s.stepEnergy c cl hl).1 ≤ bulkCap c cl hl)) ∧
  ∀ (s : State) (id : Nat) (c : Cmd), ∀ r ∈ engineRows (s.isContinue id),
    s.cmd? id = some c → c.due_ r.op → s.runsOn r.spec c → s.on R.DOSE_STS_BROWNOUT = false →
    let x := { s with free := s.free + 1 }
    let code := x.stepCode r.spec c
    let ahead := x.drawAhead (r.spec.pre c) c
    let works := r.spec.worksIn c = true
    let w := r.spec.work ahead.2 ahead.1
    ∃ t c', exec (r.cmd id false) s = .next t ∧ t.cmd? id = some c' ∧
      c'.ran = true ∧ c'.granted = false ∧ c'.step = c.step + 1 ∧
      (code ≠ ccOk → c'.code = code ∧ c'.outs = []) ∧
      (c.code ≠ ccOk → c'.code = c.code ∧ c'.outs = c.outs) ∧
      (code = ccOk → c.code = ccOk → works →
        c'.code = w.1.code ∧ c'.outs = w.1.outs ∧ t.ks = w.2.ks ∧ t.fb = w.2.fb ∧ t.hif = w.2.hif) ∧
      (code ≠ ccOk ∨ c.code ≠ ccOk ∨ ¬works → t.ks = s.ks ∧ t.fb = s.fb ∧ t.hif = s.hif) ∧
      (code = ccOk → c.code = ccOk → ¬works → c'.code = ccOk ∧ c'.outs = c.outs) ∧
      (∀ n, n ≠ id → t.cmd? n = s.cmd? n) ∧
      (∀ a, (∀ k ∈ s.heldSlots id, a < slotBase k ∨ slotBase k + slotSize k ≤ a) → t.ramByte a = s.ramByte a) ∧
      t = { s with
        free := t.free, regs := t.regs, hif := t.hif, fb := t.fb, ks := t.ks, rng := t.rng, dose := t.dose, trv := t.trv
        tiles := t.tiles, fab := { s.fab with ram := t.fab.ram }
        tmp := { s.tmp with outLatch := t.tmp.outLatch } }

/-- R26, R343: a step without tokens does not start, and under brown-out one that meters more than its tokens stops: the
command ends with INTEGRITY_FAULT and without output; where the step is one of a repeat, RECOMP_FAIL is set too (R86). R31, R71, R88, R156, R221: the first step that its unit, its carry
record, its two computations or missing lanes void starts the repeat of the command; a step voided in the repeat ends the
command with INTEGRITY_FAULT and sets RECOMP_FAIL. No other command changes. A row whose command holds no grant, has run in the
frame, or has another opcode leaves all but the outputs alone; PK_KEYGEN runs one of its two rows (R57). The model's own
reading or choice where it rests on assumptions 3, 6, 9, 69, 71. -/
def Obligations.EngineStepsLost : Prop :=
  (∀ (s : State) (id : Nat) (c : Cmd) (err : Bool), ∀ r ∈ engineRows (s.isContinue id),
    s.cmd? id = some c → c.due_ r.op → c.tokens = 0 →
    ∃ t c', exec (r.cmd id err) s = .next t ∧ t.cmd? id = some c' ∧ c'.code = ccIntegrityFault ∧ c'.outs = [] ∧
      c'.ran = true ∧ c'.granted = false ∧ c'.due = s.frameNo + 1 ∧ c'.energy = c.energy ∧ t.dose.energy = s.dose.energy ∧
      t.get R.TRV_ERR_STS_RECOMP_FAIL = (if c.repeating then 1 else s.get R.TRV_ERR_STS_RECOMP_FAIL) ∧ (∀ n, n ≠ id → t.cmd? n = s.cmd? n)) ∧
  (∀ (s : State) (id : Nat) (c : Cmd), ∀ r ∈ engineRows (s.isContinue id),
    s.cmd? id = some c → c.due_ r.op → s.runsOn r.spec c → s.on R.DOSE_STS_BROWNOUT = true →
    let blocks (total : Nat) : Nat := if isBulk c.desc && s.stepCode r.spec c != ccOk then 0 else share total c.s c.step
    100 * c.tokens < (s.stepEnergy c (blocks c.cost.cl) (blocks c.cost.hl)).1 →
    ∃ t c', exec (r.cmd id false) s = .next t ∧ t.cmd? id = some c' ∧ c'.code = ccIntegrityFault ∧ c'.outs = [] ∧
      c'.ran = true ∧ c'.granted = false ∧ c'.due = s.frameNo + 1 ∧ c'.energy = c.energy + 100 * c.tokens ∧
      t.dose.energy = s.dose.energy + 100 * c.tokens ∧ (∀ n, n ≠ id → t.cmd? n = s.cmd? n)) ∧
  (∀ (s : State) (id : Nat) (c : Cmd) (err : Bool), ∀ r ∈ engineRows (s.isContinue id),
    s.cmd? id = some c → c.due_ r.op → c.tokens ≠ 0 →
    (err = true ∨ c.starved = true ∨ s.carryBad c = true ∨ s.disagrees r.spec c = true) →
    ∃ t c', exec (r.cmd id err) s = .next t ∧ t.cmd? id = some c' ∧ c'.ran = true ∧ c'.granted = false ∧
      (c.repeats = 0 → c'.repeats = 1 ∧ c'.repeating = true ∧ c'.code = ccOk ∧
        c'.step = (if isBulk c.desc then c.step else 1) ∧ c'.due = (if isBulk c.desc then c.due + 1 else s.frameNo + c.s + 1)) ∧
      (1 ≤ c.repeats → c'.code = ccIntegrityFault ∧ c'.outs = [] ∧ c'.due = s.frameNo + 1 ∧ t.get R.TRV_ERR_STS_RECOMP_FAIL = 1) ∧
      (∀ n, n ≠ id → t.cmd? n = s.cmd? n)) ∧
  (∀ (s : State) (id : Nat) (err : Bool),
    (∀ (b : Bool), ∀ r ∈ engineRows b, (∀ c, s.cmd? id = some c → ¬c.due_ r.op) → exec (r.cmd id err) s = .next s.wires) ∧
    (∀ r ∈ engineRows (!s.isContinue id), r.op = 0x0330 → exec (r.cmd id err) s = .next s.wires))

/-- What some opcodes write in their last step when no check fails. The MAC opcodes of classes 0x01, 0x10 and 0x11
write the MAC, or compare it and answer OK or SIG_INVALID without output (R106, R129, R141); HASH writes the digest
(R139); WAGER_SEAL writes the CMAC over its input, FRAME_NO and USE, and the two numbers (R108); KEY_INVALIDATE puts a
persistent key, and its partner, on the revocation list with the slice's epoch (R199). The model's own reading or
choice where it rests on assumptions 2, 6, 74. -/
def Obligations.EngineAnswers : Prop :=
  ∀ (s : State) (id : Nat) (c : Cmd),
    let d : Desc := c.desc
    let answer (same : Prop) (t : State) (c' : Cmd) : Prop :=
      (same → c'.code = ccOk) ∧ (¬same → c'.code = ccSigInvalid) ∧ (same → c'.outs = c.outs) ∧ t.ks = s.ks
    let writes (m : Bytes) (t : State) (c' : Cmd) : Prop := c'.code = ccOk ∧ c'.outs = c.outs ++ [(1, 0, m)] ∧ t.ks = s.ks
    (s.lastStep id 0x0131 opMacVerify c → Leaves (exec (.macVerify id false) s) id
      (answer ((macOf d c.alg0 c.mat0 (c.input 0)).take (d.pb 106) = d.param 108 (d.pb 106)))) ∧
    (s.lastStep id 0x0209 opSymMacVerify c → Leaves (exec (.symMacVerify id false) s) id
      (answer ((macOf d c.alg0 c.mat0 (c.chunk 1)).take (d.pb 106) = d.param 108 (d.pb 106)))) ∧
    (s.lastStep id 0x0289 opHmacVerify c → Leaves (exec (.hmacVerify id false) s) id (answer (hmacOf c = c.input 1))) ∧
    (s.lastStep id 0x0130 opMacGenerate c → ((macOf d c.alg0 c.mat0 (c.input 0)).take (d.pb 106)).length ≤ d.bufLen 1 →
      Leaves (exec (.macGenerate id false) s) id (writes ((macOf d c.alg0 c.mat0 (c.input 0)).take (d.pb 106)))) ∧
    (s.lastStep id 0x0208 opSymMacGenerate c → ((macOf d c.alg0 c.mat0 (c.chunk 1)).take (d.pb 106)).length ≤ d.bufLen 1 →
      Leaves (exec (.symMacGenerate id false) s) id (writes ((macOf d c.alg0 c.mat0 (c.chunk 1)).take (d.pb 106)))) ∧
    (s.lastStep id 0x0288 opHmacGenerate c → (hmacOf c).length ≤ d.bufLen 1 →
      Leaves (exec (.hmacGenerate id false) s) id (writes (hmacOf c))) ∧
    (s.lastStep id 0x0280 opHash c → digestLen (d.pb 104) (d.paramN 106 2) ≤ d.bufLen 1 →
      Leaves (exec (.hashOne id false) s) id (writes (hashOf (d.pb 104) (digestLen (d.pb 104) (d.paramN 106 2)) (c.chunk 1)))) ∧
    (s.lastStep id 0x0138 opWagerSeal c → 32 ≤ d.bufLen 1 →
      let tail := toLE 8 s.frameNo ++ toLE 8 c.use0
      Leaves (exec (.wagerSeal id false) s) id (writes (cmacOf 0x12 c.mat0 (c.input 0 ++ tail) ++ tail))) ∧
    (∀ k, c.key0 = some k → s.lastStep id 0x0403 opKeyInvalidate c → hEphem k.handle = false →
      let p := ({ s with free := s.free + 1 } : State).partner c.slice k
      let q := p.2.needLeaf .epoch c.slice
      let hs := k.handle :: p.1.toList
      q.1 = true → s.ks.revoked.length + hs.length ≤ 16384 →
      Leaves (exec (.keyInvalidate id false) s) id (fun t c' => c'.code = ccOk ∧ c'.outs = c.outs ∧
        t.ks.revoked = s.ks.revoked ++ hs.map (fun h => (h, q.2.epochOf c.slice))))

/-! ## The boundary and Traverse -/

/-- A boundary does nothing without power (R367, R400). On the fatal clock path and in the safe-state wait the queued status words
leave, FRAME_NO rises, ports taking their credit in the former, and the tamper pins are sampled; in the wait the clock monitors count
on and end it once those that failed have passed 16 windows; a reset that is due is performed (R336, R337). Else FRAME_NO rises after
the frame ends, its administrative draws are served and its frame step is taken, the random numbers follow (R222), and the
events run in the order of R9: the staged configuration, Dose and the calendar; keys, sessions, slices and the other commands
that take effect at a boundary; the messages of the frame that ended (R55), the holds of Traverse and observation; releases and
the holds that expire. Then the frame begins, with what falls due in it. The model's own
reading or choice where it rests on assumptions 1, 6, 54. -/
def Obligations.FrameBoundaryOrder : Prop :=
  ∀ (s : State) (env : FrameEnv),
    (s.glb.powered = false → exec (.frameBoundary env) s = .next s.wires) ∧
    (s.glb.powered = true → s.clk.fatal = false → s.clk.safe.isSome = true → s.trv.words = [] →
      let u := ({ s with frameNo := s.frameNo + 1 } : State).tamperPins env
      let v := u.clockWindows env
      (u.clk.safe.isSome = true → (v.clk.safe = none ∨ v.clk.passRun < 16) → v.glb.rst = none →
        exec (.frameBoundary env) s = .next v.wires) ∧
      (u.clk.safe.isSome = true → v.clk.safe.isSome = true → 16 ≤ v.clk.passRun →
        exec (.frameBoundary env) s = .next (v.askReset false 4 false).resetDue.wires)) ∧
    (s.glb.powered = true → s.clk.fatal = true → s.trv.words = [] →
      let t := (s.creditFrame 0 env.creditA).creditFrame 1 env.creditB
      let u := ({ t with frameNo := t.frameNo + 1 } : State).tamperPins env
      t.clk.fatal = true → u.clk.safe = none → u.glb.rst = none → exec (.frameBoundary env) s = .next u.wires) ∧
    (s.glb.powered = true → s.clk.fatal = false → s.clk.safe = none →
      let words := ({ s with glb := { s.glb with marks := [] } } : State).queueWords
      let ended := (words.endFrame env).fbLost
      let served := if ended.rngServes then ended.serveDraws ended.rng.waiting else ([], ended)
      let stepped := (served.2.createStep (served.1.map Prod.fst)).stepFrames
      let begun := (({ stepped with frameNo := stepped.frameNo + 1 }).fbFrame).rngBoundary
      let event1 := (begun.cfgEvent.alertPin env.alertHigh).doseEvents.calendarAdvance
      let event2 := event1.event2 env (begun.sliceNos.filter (fun n => (begun.slice n).st != .disabled)) served.1
      let event3 := event2.sliceMessages.holds3.observeAll
      let event4 := event3.releaseAll.expireHolds.netAdmit
      let t := ((((event4.beginFrame.dueAtBoundary).samplePins env).bootStep).fbLost).resetDue
      exec (.frameBoundary env) s = .next t.wires)

/-- A held command whose delay will have passed at the next boundary and whose predecessors have finished is released for it,
and one that is not ready stays as it is. At event 4 of that boundary what checks 1 to 9 say of it decides it: admitted with its
cost and delay, refused with the code of the first check that fails, or tried again up to 64 times and then refused with
NOT_ADMITTED; while an update holds admission it stays released (R78). A command held for its predecessors for 4,096 frames is refused with NOT_ADMITTED, and HOLD_EXPIRE is set (R80); before, nothing
happens. The model's own reading or choice where it rests on assumption 20. -/
def Obligations.HeldWork : Prop :=
  (∀ (s : State) (id : Nat) (r : Cmd), s.cmd? id = some r → r.st = .released →
    (s.on R.TRV_STS_UPDATE = true ∨ s.on R.TRV_STS_FATAL = true → s.reprice id = s) ∧
    (s.on R.TRV_STS_UPDATE = false → s.on R.TRV_STS_FATAL = false → Desc.continue_ r.desc = false →
      (∀ cost k, s.decide_ r.slice r.desc true = .accept cost k → s.reprice id = s.admitCmd r cost k) ∧
      (∀ code aux, s.decide_ r.slice r.desc true = .refuse code aux → s.reprice id = s.refuseCmd r code aux) ∧
      (∀ aux, s.decide_ r.slice r.desc true = .wait aux →
        (r.tries < 64 → s.reprice id = s.putCmd { r with tries := r.tries + 1 }) ∧
        (64 ≤ r.tries → s.reprice id = s.refuseCmd r ccNotAdmitted aux)))) ∧
  ∀ (s : State) (id : Nat) (c : Cmd), s.cmd? id = some c → c.st = .held →
    (c.dep = 0 → c.release ≤ s.frameNo + 1 →
      exec (.heldRelease id) s = .next (s.putCmd { c with st := .released, release := s.frameNo + 1 }).wires) ∧
    (c.dep ≠ 0 ∨ s.frameNo + 1 < c.release → exec (.heldRelease id) s = .next s.wires) ∧
    (c.dep ≠ 0 → c.waitFrom + 4096 ≤ s.frameNo →
      exec (.holdExpire id) s = .next ((s.refuseCmd c ccNotAdmitted 0).trvErr R.TRV_ERR_STS_HOLD_EXPIRE).wires) ∧
    (c.dep = 0 ∨ s.frameNo < c.waitFrom + 4096 → exec (.holdExpire id) s = .next s.wires)

/-! ## The key store (R182 to R186, R199, R200, R203, R211, R214) -/

/-- KS_DOMAIN_CMD of an open Security Officer session of the slice, at its home member, with BUSY clear: accepted, it
shows BUSY with error 0; CREATE, REKEY and DESTROY ask for their draw of 32 bytes, ADVANCE and RAISE_FLOOR wait for
event 2 of the next boundary. BUSY drops a command; the error codes of R214 reject it with no other effect. The
model's own reading or choice where it rests on assumption 20. -/
def Obligations.DomainCommands : Prop :=
  ∀ (s : State) (n : Nat), s.writable 0x08000C = true → s.notHome n = false →
    let d := s.domain n
    let accepted := (s.set R.KS_CMD_STS_BUSY 0 1).set R.KS_CMD_STS_ERR 0 0
    let draws (op : AdminOp) : State :=
      ({ accepted with rng := { s.rng with waiting := s.rng.waiting ++ [(32, op)] } }).set R.RNG_POOL_STS_WAITING 0
        (s.rng.waiting.length + 1)
    let waits (op : Nat) : State := { accepted with ks := { s.ks with cmd := some (op, n) } }
    let fails (code : Nat) : State := (s.set R.KS_CMD_STS_BUSY 0 0).set R.KS_CMD_STS_ERR 0 code
    let rows : List (Instr × Nat) :=
      [(.domainCreate n, 1), (.domainAdvance n, 2), (.raiseFloor n, 3), (.domainRekey n, 4), (.domainDestroy n, 5)]
    (s.on R.KS_CMD_STS_BUSY = true → ∀ r ∈ rows, exec r.1 s = .next s.wires) ∧
    (s.on R.KS_CMD_STS_BUSY = false → s.holds n roleSO = true →
      (s.on R.KS_STS_DATUM = true → s.ks.ctRo = false →
        (d.present = false → s.ks.leaves.length + 3 ≤ 31744 → exec (.domainCreate n) s = .next (draws (AdminOp.domainCreate n)).wires) ∧
        (d.present = true →
          exec (.domainRekey n) s = .next (draws (AdminOp.domainRekey n)).wires ∧
          exec (.domainDestroy n) s = .next (draws (AdminOp.domainDestroy n)).wires ∧
          (s.epochOf n - d.floor ≠ 3 → s.epochOf n ≠ 2 ^ 48 - 1 → exec (.domainAdvance n) s = .next (waits 2).wires) ∧
          (d.floor ≠ s.epochOf n → exec (.raiseFloor n) s = .next (waits 3).wires))) ∧
      (d.present = true → exec (.domainCreate n) s = .next (fails 3).wires ∧
        (s.epochOf n - d.floor = 3 → exec (.domainAdvance n) s = .next (fails 4).wires) ∧
        (d.floor = s.epochOf n → exec (.raiseFloor n) s = .next (fails 4).wires) ∧
        (s.epochOf n = 2 ^ 48 - 1 → s.epochOf n - d.floor ≠ 3 → exec (.domainAdvance n) s = .next (fails 5).wires) ∧
        (s.on R.KS_STS_DATUM = true → s.ks.ctRo = true → exec (.domainRekey n) s = .next (fails 7).wires)) ∧
      (d.present = false → exec (.domainRekey n) s = .next (fails 6).wires ∧ exec (.domainDestroy n) s = .next (fails 6).wires)) ∧
    (s.on R.KS_CMD_STS_BUSY = false → s.holds n roleSO = false → ∀ r ∈ rows,
      exec r.1 s = .next ((fails 2).writeDropped 0x08000C).wires)

/-- The device's own keys: Datum is asked for by a Security Officer in SERVICE with the generator in service (R182),
and not while the tamper clamp holds (R263); the identity keys, with a draw of 80 bytes, in PROVISION (R183). A read of KS_ID_DATA returns the
word of the selected item and moves on (R214). The key store's upkeep: an invalidated index becomes free once its
entries have left the KRC, unless its generation is used up, and its record stays until its descendants have left too (R185,
R200), counter-tree nodes are written back (R203), a continuation entry is freed after
65,536 frames (R169) and an accumulator after 256 frames without the next component (R211); before that each leaves
all as it is. The model's own reading or choice where it rests on assumption 27. -/
def Obligations.KeyStoreCommands : Prop :=
  (∀ (s : State),
    let accepted := (s.set R.KS_CMD_STS_BUSY 0 1).set R.KS_CMD_STS_ERR 0 0
    let draws (n : Nat) (op : AdminOp) : State :=
      ({ accepted with rng := { s.rng with waiting := s.rng.waiting ++ [(n, op)] } }).set R.RNG_POOL_STS_WAITING 0
        (s.rng.waiting.length + 1)
    let fails (code : Nat) : State := (s.set R.KS_CMD_STS_BUSY 0 0).set R.KS_CMD_STS_ERR 0 code
    (s.writable 0x080008 = true → s.on R.TMP_STS_CLAMP = false → s.on R.KS_CMD_STS_BUSY = false → s.holds devSession roleSO = true →
      (s.get R.LC_STATE_CODE = 3 → s.rngState = rngService →
        exec .datumGenerate s = .next (draws 32 .datum).wires) ∧
      (s.get R.LC_STATE_CODE ≠ 3 → exec .datumGenerate s = .next (fails 8).wires)) ∧
    (s.on R.TMP_STS_CLAMP = true → 2 ≤ s.stage → s.stage ≠ 0xB → s.gated 0x080008 = false →
      exec .datumGenerate s = .next (s.writeDropped 0x080008).wires) ∧
    (s.writable 0x080014 = true → s.on R.KS_CMD_STS_BUSY = false → s.holds devSession roleSO = true →
      (s.get R.LC_STATE_CODE = 2 → exec .idGenerate s = .next (draws 80 .identity).wires) ∧
      (s.get R.LC_STATE_CODE ≠ 2 → exec .idGenerate s = .next (fails 8).wires)) ∧
    (s.writable 0x080088 = true →
      let w := s.get R.KS_ID_SEL_WORD
      exec .ksIdDataRead s = .next ((s.set R.KS_ID_DATA_DATA 0 (fieldLE (fitTo 8 (cut s.idItem (8 * w) 8)) 0 8)).set
        R.KS_ID_SEL_WORD 0 (w + 1)).wires)) ∧
  (∀ (s : State) (n i : Nat),
    (∀ e, (s.domain n).dying.find? (fun y => y.index == i && !y.freed) = some e → s.ks.krc.any (s.dyingEntry n e) = false →
      exec (.indexFreed n i) s = .next (s.modDomain n (fun x => { x with
        dying := if s.ks.krc.any (s.bumpedEntry n) then x.dying.map (fun y => if y = e then { y with freed := true } else y)
          else x.dying.filter (fun y => y != e)
        freed := x.freed ++ ((List.range e.slots).map (· + i)).filter (fun j =>
          decide (j < 0x800000) && decide (Tab.get 0 x.gens j < 0xFFFF) && !x.freed.contains j) })).wires) ∧
    (∀ e, (s.domain n).dying.find? (fun y => y.index == i && !y.freed) = some e → s.ks.krc.any (s.dyingEntry n e) = true →
      exec (.indexFreed n i) s = .next s.wires) ∧
    exec .ctNodeWriteback s = .next ({ s with ks := { s.ks with nodesAt := s.frameNo, nodesStale := [] } }).wires ∧
    (∀ seq typ f, (s.slice n).cont.find? (fun e => e.1 == i) = some (i, seq, typ, f) →
      (f + 65536 ≤ s.frameNo →
        exec (.contExpiry n i) s = .next (s.modSlice n (fun x => { x with cont := x.cont.del i })).wires) ∧
      (s.frameNo < f + 65536 → exec (.contExpiry n i) s = .next s.wires)) ∧
    ((∃ a ∈ s.ks.accums, a.slice = n ∧ a.frame + 256 ≤ s.frameNo) → exec (.componentTimeout n) s =
      .next ({ s with ks := { s.ks with accums := s.ks.accums.filter (fun a => a.slice != n) } }).wires) ∧
    ((∀ a ∈ s.ks.accums, a.slice = n → s.frameNo < a.frame + 256) → exec (.componentTimeout n) s = .next s.wires))

/-! ## Random numbers (R216 to R226) -/

/-- A raw block that closes (R216 to R218, R223). A failed test of a cell in use, in its restart run or past it, after the refill of the
frame so far, stops the cell for two boundaries, drops its blocks, counts the failure, stops the expanders' refill and asks for
the health hold of the next boundary unless one begins no later, and below 8 failures raises no alarm; in WARMUP it counts towards
the 8 and asks for no hold. A passed block of a cell in use waits for the frame tests of its cell, and one of a restart run counts towards its 4
blocks; with 4 the cell returns at the next boundary, before not. Released at the end of the frame, a block counts towards the
1,024 of WARMUP once every enabled cell has run its restart run, and in service is hashed into the queue of 16 unless it repeats the output before it, which is an alarm. The
model's own reading or choice where it rests on assumptions 2, 63, 75. -/
def Obligations.RawBlocks : Prop :=
  ∀ (s : State) (c : Nat) (b : BitVec 1024), c < 8 →
    let out := hashOf 0x02 32 (blockBytes b)
    let q := s.rng.queue ++ [out]
    let end_ := (runOn (s.rng.runOf c) (blockBits b)).1
    let passed : State := { s with rng := { s.rng with runs := Tab.put (0, 0) s.rng.runs c (b2n end_.1, end_.2) } }
    let failed (tests : Nat) : State :=
      let r := s.refill true
      let t := (((r.rngErr (setBits 4 tests) false c).bump R.RNG_CELL_FAIL_COUNT 1 c).bump R.RNG_CNT_FAIL_COUNT).setCell c
        (.stopped (s.frameNo + 2))
      { t with rng := { t.rng with
        exps := (List.range 4).map (fun x => { t.rng.exp x with refill := false })
        closed := t.rng.closed.filter (fun e => e.1 != c)
        runs := t.rng.runs.del c
        fails := t.rng.fails ++ [s.frameNo] } }
    let live : Prop := s.rng.cell c = .inUse ∨ s.rng.cell c = .passed ∨ ∃ n, s.rng.cell c = .restart n
    (live → s.rngState ≠ rngWarmup → s.recentFails < 7 →
      let t (tests : Nat) : State :=
        let u := failed tests
        (if u.rng.holdReq.any (fun h => decide (h.1 ≤ s.frameNo + 1)) then u
          else { u with rng := { u.rng with holdReq := some (s.frameNo + 1, false, c) } }).rngSync
      (∀ tests, exec (.cellHealthFail c tests) s = .next (t tests).wires) ∧
      (s.blockTests c b ≠ 0 → exec (.rawBlockClose c b) s = .next (t (s.blockTests c b)).wires)) ∧
    (live → s.rngState = rngWarmup → s.rng.warmFails < 7 →
      let t (tests : Nat) : State :=
        let u := failed tests
        ({ u with rng := { u.rng with warmFails := s.rng.warmFails + 1 } }).rngSync
      (∀ tests, exec (.cellHealthFail c tests) s = .next (t tests).wires) ∧
      (s.blockTests c b ≠ 0 → exec (.rawBlockClose c b) s = .next (t (s.blockTests c b)).wires)) ∧
    (s.rng.cell c = .inUse → s.blockTests c b = 0 →
      exec (.rawBlockClose c b) s = .next ({ passed with rng := { passed.rng with closed := s.rng.closed ++ [(c, b)] } }).wires) ∧
    (∀ n, s.rng.cell c = .restart n →
      (s.blockTests c b = 0 → exec (.rawBlockClose c b) s = .next (passed.setCell c (.restart (n + 1))).wires) ∧
      (4 ≤ n → s.cellsBoundary.rng.cell c = .inUse ∧ exec (.restartRunDone c) s = .next ((s.setCell c .passed).rngSync).wires) ∧
      (n < 4 → exec (.restartRunDone c) s = .next s.wires)) ∧
    ((∀ n, s.rng.cell c ≠ .restart n) → exec (.restartRunDone c) s = .next s.wires) ∧
    (s.rng.cell c = .passed → s.cellsBoundary.rng.cell c = .inUse) ∧
    (s.rngState = rngWarmup → s.rng.blocks < 1024 →
      s.release b = { s with rng := { s.rng with blocks := if s.rng.warmRan then s.rng.blocks + 1 else s.rng.blocks } }) ∧
    (s.rngState = rngService ∨ s.rngState = rngHold →
      (out ≠ s.rng.last → s.release b =
        { s with rng := { s.rng with last := out, queue := if 16 < q.length then q.drop 1 else q } }) ∧
      (out = s.rng.last → s.release b = (s.rngErr [4] true 0).rngAlarm))

/-- The health hold and the alarms: the hold ends with every cell in use and every expander running and reseeded
since, and not before (R224); an expander whose age is 16 stops, and asks for a hold where draws are served, and one below it
does not stop (R219); an output that repeats is an alarm (R218, R219), after which nothing is served: the reserve, the pool and the
queue are empty; once fatal, an alarm changes nothing more. The model's own reading or choice where it rests on
assumption 63. -/
def Obligations.HoldAndAlarm : Prop :=
  ∀ (s : State) (x : Nat),
    (s.rngState = rngHold → s.cellsWell = true → (∀ i, i < 4 → (s.rng.exp i).fresh = true ∧ (s.rng.exp i).run = true) →
      exec .healthHoldEnd s = .next (s.set R.RNG_STS_STATE 0 rngService).wires) ∧
    (s.rngState ≠ rngHold ∨ s.cellsWell = false ∨ (∃ i, i < 4 ∧ ((s.rng.exp i).fresh = false ∨ (s.rng.exp i).run = false)) →
      exec .healthHoldEnd s = .next s.wires) ∧
    (x < 4 →
      let t := s.setExp x { s.rng.exp x with aged := true }
      let soon := s.rng.holdReq.any (fun h => decide (h.1 ≤ s.frameNo))
      (16 ≤ (s.rng.exp x).age → s.rngServes = true → soon = false → exec (.expanderAgeStop x) s =
        .next (({ t with rng := { t.rng with holdReq := some (s.frameNo, true, x) } }).rngSync).wires) ∧
      (16 ≤ (s.rng.exp x).age → s.rngServes = false ∨ soon = true → exec (.expanderAgeStop x) s = .next t.rngSync.wires) ∧
      ((s.rng.exp x).age < 16 → exec (.expanderAgeStop x) s = .next s.wires)) ∧
    (s.rngState ≠ rngFatal → Gives (exec (.expanderRepeat x) s) (fun t =>
      t.rng.fill = 0 ∧ t.rng.pool = 0 ∧ t.rng.queue = [] ∧ t.rngState = rngFatal ∧ t.rngServes = false)) ∧
    (s.rngState = rngFatal → exec (.expanderRepeat x) s = .next ((s.rngErr [4] true x).wires))

/-- The end of WARMUP (R223, R225): with 1,024 blocks passed, six conditioned outputs after them and every enabled cell in use,
passed known-answer tests instantiate the expanders, fill empty stores with 32,768 and 262,144 bytes and bring the generator into service; the keys of
start-up, a member's BOOT and the ephemeral keys of as many slices as the pool holds bytes for are drawn from it, and the other
slices wait. A failed test reports its unit and keeps the device from SERVICE_READY. Before, and after a failed test, nothing happens. The raw-bit port: its bytes all written, DONE is set, not before (R226); a write
that fails sets ERR and ends the tap, the cell going back through a restart run; RESTART stops the cell for two boundaries after
RESTART_LEN bits, not before, and the next restart counts from that bit. Without a tap nothing happens. The model's own reading or choice where it
rests on assumptions 3, 62, 75, 76, 84. -/
def Obligations.WarmupAndTap : Prop :=
  (∀ (s : State) (cond : Bool) (exps : Nat),
    (s.rngState = rngWarmup → 1024 ≤ s.rng.blocks → s.cellsWell = true → 6 ≤ s.rng.queue.length →
        s.get R.RNG_KAT_STS_COND = 0 → s.get R.RNG_KAT_STS_EXP = 0 →
      (cond = false → exps % 16 = 0 → s.rng.admin = [] → s.rng.reserve = [] →
        let drawn := if s.on R.NET_STS_MEMBER then 176 else 160
        let n := (32768 - drawn) / 32
        Gives (exec (.rngWarmupDone cond exps) s) (fun t =>
          t.rngState = rngService ∧ t.get R.RNG_STS_KAT_DONE = 1 ∧ t.rng.fill = 262144 ∧ t.rng.pool = 32768 - drawn - 32 * n ∧
          (∀ x, x < 4 → (t.rng.exp x).run = true) ∧ t.ks.krcKey.length = 32 ∧ t.ks.contKey.length = 32 ∧
          t.rng.waiting = s.rng.waiting ++ (List.range (1024 - n)).map (fun i => (32, AdminOp.ephemeral (n + i))))) ∧
      (cond = true ∨ exps % 16 ≠ 0 → Gives (exec (.rngWarmupDone cond exps) s) (fun t =>
        t.get R.GLB_STS_FAIL = 5 ∧ t.stage = 8 ∧ t.rng.pool = s.rng.pool ∧ t.rng.fill = s.rng.fill))) ∧
    (s.rngState ≠ rngWarmup ∨ s.rng.blocks < 1024 ∨ s.cellsWell = false ∨ s.rng.queue.length < 6 ∨
      s.get R.RNG_KAT_STS_COND ≠ 0 ∨ s.get R.RNG_KAT_STS_EXP ≠ 0 → exec (.rngWarmupDone cond exps) s = .next s.wires)) ∧
  (∀ (s : State),
    (s.rng.tap.isSome = true →
      (s.rng.tapLeft = 0 → exec .rawTapDone s = .next (s.set R.RNG_RAW_STS_DONE 0 1).wires) ∧
      (s.rng.tapLeft ≠ 0 → exec .rawTapDone s = .next s.wires) ∧
      exec .rawTapDmaFail s = .next ((s.set R.RNG_RAW_STS_ERR 0 1).set R.RNG_RAW_CTL_EN 0 0).tapEnd.wires ∧
      (let n := s.get R.RNG_RAW_CTL_RESTART_LEN
       (s.on R.RNG_RAW_CTL_RESTART = true → s.rng.tapStop = none → 0 < n → s.rng.tapFrom + n ≤ s.rng.tapBits + 1023 →
        exec .tapRestart s = .next ({ s with rng := { s.rng with tapFrom := s.rng.tapFrom + n, tapStop := some (s.frameNo + 2) } }).wires) ∧
       (s.on R.RNG_RAW_CTL_RESTART = false ∨ s.rng.tapStop.isSome = true ∨ n = 0 ∨ s.rng.tapBits + 1023 < s.rng.tapFrom + n →
        exec .tapRestart s = .next s.wires))) ∧
    (s.rng.tap = none → exec .rawTapDone s = .next s.wires ∧ exec .rawTapDmaFail s = .next s.wires ∧ exec .tapRestart s = .next s.wires))

/-- R221: the first administrative draw that waits is called when the pool holds its bytes; the next boundary hands them out,
and the operation takes effect there. At a boundary the draws are served in order of request: each takes its bytes, which leave
the pool and are counted, until the pool holds too few for one, which waits with those behind it. With too few bytes, or none
waiting, nothing happens. The model's own reading or choice where it rests on assumptions 3, 28. -/
def Obligations.AdminDraws : Prop :=
  ∀ (s : State),
    (∀ n op rest, s.rng.waiting = (n, op) :: rest → s.rngServes = true →
      (n ≤ s.rng.pool → exec .adminDrawServed s = .next ({ s with rng := { s.rng with called := true } }).wires) ∧
      (s.rng.pool < n → exec .adminDrawServed s = .next s.wires)) ∧
    (s.rng.waiting = [] ∨ s.rngServes = false → exec .adminDrawServed s = .next s.wires) ∧
    (∀ n op rest,
      (n ≤ s.rng.pool →
        let d := s.drawPool n
        d.1.length = n ∧ d.2.rng.pool = s.rng.pool - n ∧
        d.2.get R.RNG_CNT_OUT_COUNT = (s.get R.RNG_CNT_OUT_COUNT + n) % 2 ^ 64 ∧
        (s.serveDraws ((n, op) :: rest)).1 = (op, d.1) :: (d.2.serveDraws rest).1 ∧
        (s.serveDraws ((n, op) :: rest)).2 = (d.2.serveDraws rest).2) ∧
      (s.rng.pool < n →
        (s.serveDraws ((n, op) :: rest)).1 = [] ∧ (s.serveDraws ((n, op) :: rest)).2.rng.waiting = (n, op) :: rest ∧
        (s.serveDraws ((n, op) :: rest)).2.rng.pool = s.rng.pool))

/-! ## Lifecycle, OTP and debug (R228 to R257) -/

/-- A write of LC_TRANSITION, by the administrative function or as LC_ACCESS of the TAP in BLANK and FOUNDRY (R233):
SEQ advances, ERR holds the first failure of R233 or 0, an accepted target waits with BUSY set, and the write is
recorded. LC_STATUS changes nothing. LC_ZEROIZE is accepted of a Security Officer in SERVICE with nothing else in
progress, and rejected by code (R236). The model's own reading or choice where it rests on assumption 39. -/
def Obligations.LifecycleWrites : Prop :=
  ∀ (s : State) (value : Nat),
    let target := bits value 3 0
    let said (e : Nat) : State := (s.bump R.LC_TOKEN_SEQ).set R.LC_STS_ERR 0 e
    let accepted : State :=
      (({ said 0 with lc := { s.lc with target := some target, begun := false } }).set R.LC_STATE_TARGET 0 target).set R.LC_STS_BUSY 0 1
    let after : State := if s.lcCheck value = 0 then accepted else said (s.lcCheck value)
    let t := after.record 0x0504 2 devScope target (after.get R.LC_STS_ERR)
    (s.lcWritable = true → exec (.lcTransition value) s = .next t.wires) ∧
    (s.lcWritable = false → exec (.lcTransition value) s = .next s.wires) ∧
    (s.tapAnswers = true → s.get R.LC_STATE_CODE ≤ 1 → exec (.lcAccess value) s = .next t.wires) ∧
    (s.tapAnswers = false ∨ 1 < s.get R.LC_STATE_CODE → exec (.lcAccess value) s = .next s.wires) ∧
    exec .lcStatus s = .next s.wires ∧
    (s.writable 0x0A0014 = true →
      (s.holds devSession roleSO = true →
        (s.get R.LC_STATE_CODE = 3 →
          (s.on R.LC_STS_BUSY = false → s.updating = false → exec .lcZeroize s =
            .next ((({ s with lc := { s.lc with zeroize := true, zeroBegun := false } }).set R.LC_STS_ERR 0 0).set R.LC_STS_BUSY 0 1).wires) ∧
          (s.on R.LC_STS_BUSY = true ∨ s.updating = true → exec .lcZeroize s = .next (s.set R.LC_STS_ERR 0 6).wires)) ∧
        (s.get R.LC_STATE_CODE ≠ 3 → exec .lcZeroize s = .next (s.set R.LC_STS_ERR 0 5).wires)) ∧
      (s.holds devSession roleSO = false → exec .lcZeroize s = .next ((s.set R.LC_STS_ERR 0 3).writeDropped 0x0A0014).wires))

/-- The end of a drain (R9, R234, R236, R237): with no command in flight it is announced, and at the boundary an accepted
transition starts to program, after the draw of a device secret where PROVISION wants one, and an accepted zeroization runs and
leaves neither DRAIN nor BUSY. With a command in flight nothing happens, there or before. The model's own reading or choice where it
rests on assumptions 43, 81. -/
def Obligations.DrainsEnd : Prop :=
  ∀ (s : State),
    (∀ m, s.mark m true = if m ∈ s.glb.marks then s else { s with glb := { s.glb with marks := s.glb.marks ++ [m] } }) ∧
    (∀ b, s.lc.target = some b → s.lc.begun = true → s.lc.programming = false → s.on R.LC_STS_DRAIN = true → s.trv.cmds = [] →
      let t := s.set R.LC_STS_DRAIN 0 0
      (exec .transitionDrainEnd s = .next (s.mark .transitionDrain true).wires) ∧
      (b = 2 → s.otpAt otpDeviceSecret = {} → s.lcDrained =
        ({ t with rng := { s.rng with waiting := s.rng.waiting ++ [(32, AdminOp.deviceSecret)] } }).set
          R.RNG_POOL_STS_WAITING 0 (s.rng.waiting.length + 1)) ∧
      (b ≠ 2 → s.lcBits b ≠ [] → s.lcDrained =
        { t with lc := { s.lc with programming := true, bits := s.lcBits b, tries := 0 } })) ∧
    (s.lc.zeroize = true → s.lc.zeroBegun = true → s.trv.cmds = [] →
      let z := s.zeroization
      (exec .zeroizeDrainEnd s = .next (s.mark .zeroizeDrain true).wires) ∧
      s.zeroizeDrained = (({ z with lc := { z.lc with zeroize := false, zeroBegun := false } }).set
        R.LC_STS_DRAIN 0 0).set R.LC_STS_BUSY 0 0) ∧
    (s.trv.cmds ≠ [] → exec .transitionDrainEnd s = .next s.wires ∧ exec .zeroizeDrainEnd s = .next s.wires ∧
      s.lcDrained = s ∧ s.zeroizeDrained = s)

/-- LC_OTP_CMD (R254): with BUSY clear, PROGRAM of a field in its state and over its own bits starts with the bits
still to set, a value already programmed finishes at once, and a wrong field, state, overwrite or too few units
answers ERR 1 to 4; READ shows the field in LC_OTP_BUF. One bit is programmed in a frame, the first of the list, and a
bit that fails is tried again up to four times; after power failure, in the fatal path or in the safe-state wait none is (R234, R235). R255:
what a damaged field reads as. The model's own reading or choice where it rests on assumption 43. -/
def Obligations.OtpAccess : Prop :=
  (∀ (s : State) (code : Nat), s.writable 0x0A0040 = true →
    let f := s.otpAt code
    let raw := s.otpBuf % 2 ^ (8 * otpSize code)
    let v := if code = 5 then raw &&& fuseMask else raw
    let todo := missingBits code 0 (8 * otpSize code) v f.a ++ missingBits code 1 (8 * otpSize code) v f.b ++ (if code = 5 then [] else [(code, 2, 0)])
    (s.on R.LC_OTP_STS_BUSY = true → exec (.otpProgram code) s = .next s.wires ∧ exec (.otpRead code) s = .next s.wires) ∧
    (s.on R.LC_OTP_STS_BUSY = false →
      (code ∉ otpCodes → exec (.otpProgram code) s = .next (s.set R.LC_OTP_STS_ERR 0 1).wires ∧
        exec (.otpRead code) s = .next (s.set R.LC_OTP_STS_ERR 0 1).wires) ∧
      (code ∈ otpCodes →
        (s.get R.LC_STATE_CODE ≠ otpState code → exec (.otpProgram code) s = .next (s.set R.LC_OTP_STS_ERR 0 2).wires) ∧
        (s.get R.LC_STATE_CODE = otpState code → code ≠ 5 →
          (f.lock = false → subBits f.a v = true → subBits f.b v = true → exec (.otpProgram code) s =
            .next ((({ s with lc := { s.lc with otpBits := todo, otpTries := 0 } }).set R.LC_OTP_STS_ERR 0 0).set R.LC_OTP_STS_BUSY 0 1).wires) ∧
          (f.lock = true ∨ subBits f.a v = false ∨ subBits f.b v = false →
            exec (.otpProgram code) s = .next (s.set R.LC_OTP_STS_ERR 0 3).wires)) ∧
        (s.get R.LC_STATE_CODE = otpState code → code = 5 →
          (fuseMinimum (f.a ||| f.b ||| v) = true → todo ≠ [] → exec (.otpProgram code) s =
            .next ((({ s with lc := { s.lc with otpBits := todo, otpTries := 0 } }).set R.LC_OTP_STS_ERR 0 0).set R.LC_OTP_STS_BUSY 0 1).wires) ∧
          (fuseMinimum (f.a ||| f.b ||| v) = false → exec (.otpProgram code) s = .next (s.set R.LC_OTP_STS_ERR 0 4).wires)) ∧
        (code ≠ 6 → f.damaged code = false → exec (.otpRead code) s =
          .next ((((List.range 6).foldl (fun u i => u.set R.LC_OTP_BUF_DATA i (f.a / 2 ^ (64 * i))) s).set R.LC_OTP_STS_ERR 0 0).lcEvt
            R.LC_EVT_STS_OTP_DONE).wires))) ∧
    (∀ b rest, s.glb.pwrFail = false → s.clk.fatal = false → s.clk.safe = none → s.lc.bitRan = false → s.lc.bits = [] → s.lc.otpBits = b :: rest → rest ≠ [] →
      (exec (.otpBitProgram true) s = .next ({ s.otpSetBit b with lc := { (s.otpSetBit b).lc with
        bits := [], otpBits := rest, otpTries := 0, bitRan := true } }).wires) ∧
      (s.lc.otpTries < 3 → exec (.otpBitProgram false) s = .next ({ s with lc := { s.lc with otpTries := s.lc.otpTries + 1, bitRan := true } }).wires)) ∧
    (∀ good, s.glb.pwrFail = true ∨ s.clk.fatal = true ∨ s.clk.safe.isSome = true → exec (.otpBitProgram good) s = .next s.wires)) ∧
  (∀ (s : State) (code : Nat), code ∈ otpCodes → (s.otpAt code).damaged code = true → s.writable 0x0A0040 = true → s.on R.LC_OTP_STS_BUSY = false →
    let shown (v : Nat) : Host.Outcome State Fault Refusal :=
      .next ((((List.range 6).foldl (fun u i => u.set R.LC_OTP_BUF_DATA i (v / 2 ^ (64 * i))) s).set R.LC_OTP_STS_ERR 0 0).lcEvt
        R.LC_EVT_STS_OTP_DONE).wires
    (code = 1 → exec (.otpRead code) s = shown (2 ^ 128 - 1)) ∧
    (code = 5 → exec (.otpRead code) s = shown ((s.otpAt code).a ||| (s.otpAt code).b)) ∧
    (code = 2 → 1 < s.get R.LC_STATE_CODE → s.authorityHash = none) ∧
    s.otpGood code = false)

/-- Debug: a challenge asks for its draw of 16 bytes wherever debug can open (R249), in END and INVALID it is answered
with 6 (R253); in RETURN a response opens its scopes without one (R253); otherwise a response that passes every check
of R250 is to open its scopes, and one that fails is answered with its code, VERIFY being set for each (R257). At the boundary the scopes open, with the
event and the record, and every session ends in PROVISION and SERVICE (R251). A challenge lapses after 65,536 frames
(R249). The TAP's commands are those of the registers while it answers (R238). The model's own reading or choice where
it rests on assumptions 2, 44. -/
def Obligations.DebugCommands : Prop :=
  ∀ (s : State) (scopes : Nat) (r : Bytes), s.on R.LC_DBG_STS_BUSY = false →
    let lc := s.get R.LC_STATE_CODE
    let reply (t : State) (e : Nat) : State := (t.set R.LC_DBG_STS_BUSY 0 0).set R.LC_DBG_STS_ERR 0 e
    let asked := (s.set R.LC_DBG_STS_BUSY 0 1).set R.LC_DBG_STS_ERR 0 0
    (s.writable 0x0A0020 = true → s.tapAnswers = true → lc ≠ 5 → lc ≠ 7 →
      let t := (({ asked with rng := { s.rng with waiting := s.rng.waiting ++ [(16, AdminOp.debug (scopes % 16))] } }).set
        R.RNG_POOL_STS_WAITING 0 (s.rng.waiting.length + 1)).wires
      exec (.dbgChallenge scopes) s = .next t ∧ exec (.tapChallenge scopes) s = .next t) ∧
    (s.writable 0x0A0020 = true → lc = 5 ∨ lc = 7 →
      exec (.dbgChallenge scopes) s = .next (reply s 6).wires ∧ exec (.dbgRespond scopes (some r)) s =
        .next ((reply s 6).lcEvt R.LC_EVT_STS_VERIFY).wires ∧
      exec (.tapChallenge scopes) s = .next s.wires ∧ exec (.tapRespond scopes r) s = .next s.wires) ∧
    (s.writable 0x0A0020 = true → lc = 4 → exec (.dbgRespond scopes none) s =
      .next (reply { s with lc := { s.lc with toOpen := some (scopes % 16, 0) } } 0).wires) ∧
    (s.writable 0x0A0020 = true → s.tapAnswers = true → lc ≠ 4 → lc ≠ 5 → lc ≠ 7 →
      (s.dbgCheck (some r) = 0 →
        let u := (reply { s with lc := { s.lc with chal := none } } 0).lcEvt R.LC_EVT_STS_VERIFY
        let t := ({ u with lc := { u.lc with
          toOpen := some (fieldLE (fitTo 224 r) 4 1, fieldLE (hashOf 0x03 48 (cut (fitTo 224 r) 8 97)) 0 8) } }).wires
        exec (.dbgRespond scopes (some r)) s = .next t ∧ exec (.tapRespond scopes r) s = .next t) ∧
      (s.dbgCheck (some r) = 2 → exec (.dbgRespond scopes (some r)) s = .next ((reply s 2).lcEvt R.LC_EVT_STS_VERIFY).wires) ∧
      (∀ e, s.dbgCheck (some r) = e → e ≠ 0 → e ≠ 2 →
        exec (.dbgRespond scopes (some r)) s = .next ((reply { s with lc := { s.lc with chal := none } } e).lcEvt R.LC_EVT_STS_VERIFY).wires)) ∧
    (∀ sc who, s.lc.toOpen = some (sc, who) → lc ≠ 2 → lc ≠ 3 →
      let t : State := { s with lc := { s.lc with toOpen := none, lockSeen := false } }
      let u := ((t.set R.LC_DBG_STS_OPEN 0 (t.get R.LC_DBG_STS_OPEN ||| sc)).lcEvt R.LC_EVT_STS_DBG_OPEN).record 0x0506 3 devScope sc who
      s.debugOpenNet = netPorts.foldl (fun t p => t.unkey p) u ∧
      (exec .debugOpen s = .next (s.mark .debugOpen true).wires)) ∧
    (s.lc.toOpen = none → s.debugOpenNet = s ∧ exec .debugOpen s = .next s.wires) ∧
    (∀ f sc, s.lc.chal = some (f, sc) →
      (f + 65536 ≤ s.frameNo → exec .debugChallengeExpiry s = .next ({ s with lc := { s.lc with chal := none } }).wires) ∧
      (s.frameNo < f + 65536 → exec .debugChallengeExpiry s = .next s.wires))

/-! ## Quorum (R239 to R247) -/

/-- QU_CMD with BUSY clear (R241 to R244): a command that passes its checks shows BUSY with error 0 and waits, OPEN
for its draw of 64 bytes, SIGN for the verifier, the others for the next boundary; one that fails a check answers the
lowest code that applies, a sign-in with VERIFY set (R257), and one no session covers is recorded (R246). With BUSY set a command is dropped. The
model's own reading or choice where it rests on assumptions 20, 45. -/
def Obligations.QuorumCommands : Prop :=
  ∀ (s : State) (scope roles life role index : Nat) (r : Bytes), s.writable 0x0B0004 = true →
    let waits (c : QuCmd) : State :=
      (({ s with lc := { s.lc with cmd := some c } }).set R.QU_CMD_STS_BUSY 0 1).set R.QU_CMD_STS_ERR 0 0
    let rejected (e : Nat) : State :=
      let t := (s.set R.QU_CMD_STS_BUSY 0 0).set R.QU_CMD_STS_ERR 0 e
      if e = 7 then t.writeDropped 0x0B0004 else t
    (s.on R.QU_CMD_STS_BUSY = true → ∀ c ∈ [Instr.quOpen scope roles life, .quSign scope (some r), .quClose scope,
      .quEnroll scope (some r), .quRemove scope role index, .quPolicy scope (some r)], exec c s = .next s.wires) ∧
    (s.on R.QU_CMD_STS_BUSY = false →
      (scope ≤ devSession → s.debugIsOpen = false → s.quorumState = true → exec (.quOpen scope roles life) s =
        .next (({ waits { op := 1, scope := scope, roles := roles % 16, life := life % 256 } with
          rng := { s.rng with waiting := s.rng.waiting ++ [(64, AdminOp.session scope)] } }).set R.RNG_POOL_STS_WAITING 0
            (s.rng.waiting.length + 1)).wires) ∧
      (scope ≤ devSession → (s.session scope).st ≠ 0 →
        exec (.quSign scope (some r)) s =
          .next (waits { op := 2, scope := scope, record := fitTo 256 r, start := s.frameNo }).wires ∧
        exec (.quSign scope none) s = .next ((rejected 0xA).lcEvt R.LC_EVT_STS_VERIFY).wires ∧
        exec (.quClose scope) s = .next (waits { op := 3, scope := scope }).wires) ∧
      (scope ≤ devSession → (s.session scope).st = 0 →
        exec (.quSign scope (some r)) s = .next ((rejected 3).lcEvt R.LC_EVT_STS_VERIFY).wires ∧ exec (.quClose scope) s = .next (rejected 3).wires) ∧
      (devSession < scope → exec (.quSign scope (some r)) s = .next ((rejected 2).lcEvt R.LC_EVT_STS_VERIFY).wires ∧
        ∀ c ∈ [Instr.quOpen scope roles life, .quClose scope, .quEnroll scope (some r), .quRemove scope role index,
          .quPolicy scope (some r)], exec c s = .next (rejected 2).wires) ∧
      (s.enrollErr scope (some r) = 0 → exec (.quEnroll scope (some r)) s = .next (waits { op := 4, scope := scope, record := r }).wires) ∧
      (s.removeErr scope role index = 0 → exec (.quRemove scope role index) s =
        .next (waits { op := 5, scope := scope, roles := role, life := index }).wires) ∧
      (s.policyErr scope (some r) = 0 → exec (.quPolicy scope (some r)) s = .next (waits { op := 6, scope := scope, record := r }).wires) ∧
      (∀ e, e ≠ 0 →
        (s.enrollErr scope (some r) = e → exec (.quEnroll scope (some r)) s = .next (rejected e).wires) ∧
        (s.removeErr scope role index = e → exec (.quRemove scope role index) s = .next (rejected e).wires) ∧
        (s.policyErr scope (some r) = e → exec (.quPolicy scope (some r)) s = .next (rejected e).wires)))

/-- The verifier's answer to a sign-in (R243): BUSY clears with its code, and with code 0 the officer's sign-in joins
the session, with its transport key when the record carries a key (R247). A session at the end of its lifetime ends:
its sign-ins and accumulators go, the event and the record follow, and what it had staged is discarded (R242, R244,
R245, R377); no other does. The model's own reading or choice where it rests on assumptions 2, 45. -/
def Obligations.SignInAndExpiry : Prop :=
  ∀ (s : State) (c : QuCmd) (n : Nat),
    (s.lc.cmd = some c → c.op = 2 →
      let e := s.signErr c.scope c.record
      let t := (((({ s with lc := { s.lc with cmd := none } }).set R.QU_CMD_STS_BUSY 0 0).set R.QU_CMD_STS_ERR 0 e).lcEvt R.LC_EVT_STS_VERIFY)
      (e ≠ 0 → exec .signInVerified s = .next t.wires) ∧
      (e = 0 → exec .signInVerified s = .next (t.modSession c.scope (fun x => { x with signIns := x.signIns ++ [{
        officer := fieldLE c.record 0 1, role := fieldLE c.record 1 1
        tk := if allZero (cut c.record 4 97) then none
              else some (transportKey x.scalar (cut c.record 4 97) x.id (fieldLE c.record 0 1)) }] })).wires)) ∧
    (s.lc.cmd = none → exec .signInVerified s = .next s.wires) ∧
    ((s.session n).st ≠ 0 → (s.session n).start + (s.session n).life ≤ s.frameNo →
      let se := s.session n
      let t : State := { s with
        sessions := s.sessions.del n
        ks := { s.ks with accums := s.ks.accums.filter (fun a => !(a.slice == n && a.session == se.id)) } }
      exec (.sessionExpiry n) s =
        .next (((t.lcEvt R.LC_EVT_STS_SESSION).record 0x0501 1 n se.id 0).discardCovered n se.id).wires) ∧
    ((s.session n).st = 0 ∨ s.frameNo < (s.session n).start + (s.session n).life → exec (.sessionExpiry n) s = .next s.wires)

/-! ## Tamper (R259 to R274) -/

/-- The causes: a mesh pair, whose second mismatching bit period in a row is one (R264), a TS input, ZEROIZE_N, a rail, a temperature, a light sensor, a glitch and VBAT, where
they are checked (R264 to R269), show in their status register and raise their cause with their source; an under-voltage
that is not armed shows alone, an opened TS input that is not to respond is reported (R266), VBAT out of its service range is
reported while powered, and reversed VBAT too, which is out of its range as well; on battery reversed VBAT takes Datum and the canary
with it (R270). What is not checked does nothing, and in END and INVALID the monitor is off (R259). A temperature beyond −40 to 100 degrees in two
samples in a row is a cause of its sensor, one inside is shown and clears the mark of the sensor (R259, R269). A battery check
that finds nothing wrong clears the clamp, with what the sensors of the battery domain showed (R263); so does a check while powered,
unless ZEROIZE_N is low (R267), and on battery none of the powered kind runs. The model's own reading or choice where it rests on
assumptions 61, 86. -/
def Obligations.TamperSensors : Prop :=
  (∀ (s : State) (i mv : Nat) (opened : Bool), s.tmpOff = false →
    let two (f : Field) (x : Nat) : State := s.set f 0 (put2 (s.get f) i x)
    let ts := s.get R.TMP_TS_CFG_INPUT / 256 ^ i % 256
    let abnormal := two R.TMP_TS_STS_INPUT (if opened then 2 else if bit ts 1 then 0 else 1)
    let rail8 (x : Nat) : State := (s.set R.TMP_RAIL_STS_UV 0 (s.get R.TMP_RAIL_STS_UV % 256 + 256 * b2n (decide (x < 2300)))).set
      R.TMP_RAIL_STS_OV 0 (s.get R.TMP_RAIL_STS_OV % 256 + 256 * b2n (decide (3900 < x)))
    (i < 8 → bit (s.get R.TMP_MESH_CFG_EN) i = true → ∀ (b : MeshBit) (later : List MeshBit),
      let seen := (b :: Tab.get [] s.tmp.meshSeen i).take 16
      let run := if (bit b.up i = bit b.drv i ∧ bit b.down i = bit b.drv i) then 0 else Tab.get 0 s.tmp.meshRun i + 1
      let shown := ({ s with tmp := { s.tmp with
        meshSeen := Tab.put [] s.tmp.meshSeen i seen, meshRun := Tab.put 0 s.tmp.meshRun i run } } : State).set R.TMP_MESH_STS_PAIR 0
          (put2 (s.get R.TMP_MESH_STS_PAIR) i (meshState (s.get R.TMP_MESH_STS_PAIR / 4 ^ i % 4) i seen))
      let t := if run = 2 then shown.cause 0 i else shown
      exec (.tmpMesh ⟨i, [b]⟩) s = .next t.wires ∧ exec (.tmpMesh ⟨i, b :: later⟩) s = exec (.tmpMesh ⟨i, later⟩) t) ∧
    (8 ≤ i ∨ bit (s.get R.TMP_MESH_CFG_EN) i = false → ∀ bs, exec (.tmpMesh ⟨i, bs⟩) s = .next s.wires) ∧
    (i < 4 → bit ts 0 = true →
      (opened = false ∨ bit ts 2 = true → exec (.tmpTs i opened) s = .next (abnormal.cause 1 i).wires) ∧
      (opened = true → bit ts 2 = false → exec (.tmpTs i opened) s = .next (abnormal.tmpReport 16).wires)) ∧
    (4 ≤ i ∨ bit ts 0 = false → exec (.tmpTs i opened) s = .next s.wires) ∧
    exec .tmpZeroize s =
      .next ((({ s with tmp := { s.tmp with zeroLow := true } }).set R.MGT_PIN_STS_ZEROIZE_N 0 0).cause 2 0).wires ∧
    (i ≤ 6 ∧ s.glb.powered = true ∨ i = 7 →
      let uv := s.set R.TMP_RAIL_STS_UV 0 (s.get R.TMP_RAIL_STS_UV ||| 2 ^ i)
      exec (.tmpRailOv i) s = .next ((s.set R.TMP_RAIL_STS_OV 0 (s.get R.TMP_RAIL_STS_OV ||| 2 ^ i)).cause 4 i).wires ∧
      (s.tmp.uvArmed = true ∨ i = 7 → exec (.tmpRailUv i) s = .next (uv.cause 3 i).wires) ∧
      (s.tmp.uvArmed = false → i ≠ 7 → exec (.tmpRailUv i) s = .next uv.wires)) ∧
    (7 < i ∨ i ≤ 6 ∧ s.glb.powered = false → exec (.tmpRailOv i) s = .next s.wires ∧ exec (.tmpRailUv i) s = .next s.wires) ∧
    (i < 16 → s.glb.powered = true ∨ i < 2 →
      exec (.tmpLight i) s = .next ((s.set R.TMP_LIGHT_STS_TRIP 0 (s.get R.TMP_LIGHT_STS_TRIP ||| 2 ^ i)).cause 6 i).wires) ∧
    (16 ≤ i ∨ s.glb.powered = false ∧ 2 ≤ i → exec (.tmpLight i) s = .next s.wires) ∧
    (s.glb.powered = true → exec (.tmpGlitch i) s = .next (s.cause 7 i).wires ∧ exec (.tmpVbat mv) s = .next s.wires ∧
      exec .batRev s = .next (((((rail8 0).set R.TMP_VBAT_MV 0 0).set R.TMP_VBAT_REV 0 1).set R.TMP_STS_BAT_OK 0 0).tmpReport 17
        |>.tmpReport 18).wires ∧
      (let t := ((rail8 mv).set R.TMP_VBAT_MV 0 mv).set R.TMP_VBAT_REV 0 0
       (2500 ≤ mv → mv ≤ 3600 → exec (.batLow mv) s = .next (t.set R.TMP_STS_BAT_OK 0 1).wires) ∧
       (mv < 2500 ∨ 3600 < mv → exec (.batLow mv) s = .next ((t.set R.TMP_STS_BAT_OK 0 0).tmpReport 17).wires))) ∧
    (s.glb.powered = false → exec (.tmpGlitch i) s = .next s.wires ∧ exec (.batLow mv) s = .next s.wires ∧
      (mv < 2300 ∨ 3900 < mv → exec (.tmpVbat mv) s = .next ((rail8 mv).cause 8 8).wires) ∧
      (2300 ≤ mv → mv ≤ 3900 → exec (.tmpVbat mv) s = .next (rail8 mv).wires))) ∧
  (∀ (s : State) (i : Nat) (celsius : Int) (c : BatteryReadings), s.tmpOff = false →
    let t := s.set R.TMP_TEMP_TEMP i (16 * celsius % 65536).toNat
    (i < 5 → -40 ≤ celsius → celsius ≤ 100 →
      exec (.tmpTemp i celsius) s =
        .next ({ t with tmp := { s.tmp with tempOut := s.tmp.tempOut.filter (· != i) } }).wires) ∧
    (i < 5 → celsius < -40 ∨ 100 < celsius →
      let out := if s.tmp.tempOut.contains i then s.tmp.tempOut else s.tmp.tempOut ++ [i]
      exec (.tmpTemp i celsius) s = .next (({ t with tmp := { s.tmp with tempOut := out } }).cause 5 i).wires) ∧
    (5 ≤ i → exec (.tmpTemp i celsius) s = .next s.wires) ∧
    (s.glb.powered = true → exec (.batteryCheck c) s = .next s.wires ∧
      (s.tmp.zeroLow = true → exec .poweredCheck s = .next s.wires) ∧
      (s.tmp.zeroLow = false → Gives (exec .poweredCheck s) (fun t => t.get R.TMP_STS_CLAMP = 0 ∧ t.get R.TMP_STS_ACTIVE = 0 ∧
        t.get R.TMP_MESH_STS_PAIR = 0 ∧ t.get R.TMP_LIGHT_STS_TRIP = 0 ∧ t.get R.TMP_RAIL_STS_UV % 256 = 0 ∧
        t.tmp.tempOut = s.tmp.tempOut ∧ t.ks = s.ks ∧ t.otp = s.otp))) ∧
    (s.glb.powered = false → exec .poweredCheck s = .next s.wires) ∧
    (s.glb.powered = false → c.mesh = [] → c.ts = [] → c.light = [] → c.zeroize = false → c.reversed = false →
      -640 ≤ c.temp → c.temp ≤ 1600 → 2300 ≤ c.vbat → c.vbat ≤ 3900 →
      Gives (exec (.batteryCheck c) s) (fun t => t.get R.TMP_STS_CLAMP = 0 ∧ t.get R.TMP_STS_ACTIVE = 0 ∧ t.get R.TMP_MESH_STS_PAIR = 0 ∧
        t.get R.TMP_LIGHT_STS_TRIP % 4 = 0 ∧ t.get R.TMP_RAIL_STS_UV = s.get R.TMP_RAIL_STS_UV % 256 ∧
        t.tmp.tempOut = s.tmp.tempOut.filter (· != 4) ∧ t.ks = s.ks ∧ t.otp = s.otp))) ∧
  (∀ (s : State) (i mv : Nat) (bs : List MeshBit) (opened : Bool) (celsius : Int) (c : BatteryReadings),
    (s.tmpOff = true → ∀ x ∈ [Instr.tmpMesh ⟨i, bs⟩, .tmpTs i opened, .tmpRailOv i, .tmpRailUv i, .tmpLight i, .tmpGlitch i, .tmpVbat mv,
      .batLow mv, .tmpTemp i celsius, .poweredCheck, .batteryCheck c], exec x s = .next s.wires) ∧
    (s.glb.powered = false → exec .batRev s =
      .next ({ s with ks := { s.ks with datum := [] }, tmp := { s.tmp with canary := false, bbOver := [] } }).wires))

/-- What a cause does, shown by ZEROIZE_N and by the temperature sensors (R259 to R263): nothing latches in END and
INVALID; where causes are not armed the event and UNARMED latch and no key goes; where they are, on battery stage 1
runs, so Datum and BBRAM are cleared, the clamp is set, the response counted and the record kept for power-up; while
powered all three stages run, unless a response is under way. The model's own reading or choice where it rests on
assumption 5. -/
def Obligations.TamperResponse : Prop :=
  ∀ (s : State),
    let z := ({ s with tmp := { s.tmp with zeroLow := true } }).set R.MGT_PIN_STS_ZEROIZE_N 0 0
    let seen := (z.tmpCapture 2 0).tmpEvent 2
    (s.get R.LC_STATE_CODE = 5 ∨ s.get R.LC_STATE_CODE = 7 → exec .tmpZeroize s = .next z.wires) ∧
    (s.get R.LC_STATE_CODE = 0 ∨ s.get R.LC_STATE_CODE = 1 → s.on R.TMP_CTL_TEST_ARM = false →
      Gives (exec .tmpZeroize s) (fun t => t.ks = s.ks ∧ t.get R.KS_STS_DATUM = s.get R.KS_STS_DATUM ∧ t.get R.TMP_STS_CLAMP = s.get R.TMP_STS_CLAMP ∧
        bit (t.get R.TMP_BAT_EVT_EVT) 2 = true ∧ bit (t.get R.TMP_BAT_EVT_EVT) 20 = true)) ∧
    (2 ≤ s.get R.LC_STATE_CODE → s.get R.LC_STATE_CODE ≤ 4 →
      (s.glb.powered = false → s.tmp.once ≠ 2 → Gives (exec .tmpZeroize s) (fun t =>
        t.ks = { s.ks with datum := [] } ∧ t.tmp.bbOver = [] ∧ t.get R.KS_STS_DATUM = 0 ∧ t.get R.TMP_STS_CLAMP = 1 ∧ t.tmp.canary = true ∧
        t.tmp.battRecord = true ∧ bit (t.get R.TMP_BAT_EVT_EVT) 2 = true ∧
        t.get R.TMP_CNT_RESP_COUNT = (s.get R.TMP_CNT_RESP_COUNT + 1) % 2 ^ R.TMP_CNT_RESP_COUNT.width)) ∧
      (s.glb.powered = true →
        let active := seen.set R.TMP_STS_ACTIVE 0 (seen.get R.TMP_STS_ACTIVE ||| 4)
        (s.frameNo < s.tmp.respEnd → exec .tmpZeroize s = .next active.wires) ∧
        (s.tmp.respEnd ≤ s.frameNo →
          let one := active.tamperStage1
          exec .tmpZeroize s = .next (({ one with tmp := { one.tmp with respEnd := s.frameNo + 10 } }).fatalRecords.tamperStage2.tamperStage3).wires)))

/-! ## Memory security (R292 to R295) -/

/-- MSC_CMD with BUSY clear waits for its boundary with BUSY set and error 0, with BUSY set it is dropped (R293); while the block
is gated the guard of the privileged cores captures the write (R14, R287). The walker, at the rate of the boundary before (R299), that
passes its last line in the frame walks the lines that remain, reports WALK_DONE and stops; INIT leaves
each of them zero, of colour 0 under the key ID of the entry, and every other line as it was (R294). A partial entry
of the write-combining buffer without a write for 16 frames leaves the buffer and is merged into its line; a younger
one stays (R292). The model's own reading or choice where it rests on assumption 41. -/
def Obligations.MemorySecurityCommands : Prop :=
  ∀ (s : State) (entry keyid line : Nat),
    let rows : List (Instr × Nat × Nat × Nat) :=
      [(.mscAlloc, 1, 0, 0), (.mscRekey entry keyid, 2, entry, keyid), (.mscRetire keyid, 3, 0, keyid), (.mscInit entry, 4, entry, 0),
       (.mscFlush, 5, 0, 0)]
    let j := s.get R.MSC_WALK_STS_ENTRY
    let pos := s.get R.MSC_WALK_STS_POS
    let top := (s.get R.MSC_MAP_BASE j + s.get R.MSC_MAP_SIZE j) * 2 ^ 22
    let k := s.get R.MSC_MAP_KEYID j
    let walks : Prop := s.on R.MSC_WALK_STS_ACTIVE = true ∧ top ≤ pos + min 4096 s.fab.walkRate
    (s.writable 0x0E0008 = true →
      (s.on R.MSC_CMD_STS_BUSY = false → ∀ r ∈ rows, exec r.1 s =
        .next ((({ s with fab := { s.fab with cmd := some (r.2.1, r.2.2.1 % 16, r.2.2.2 % 256) } }).set R.MSC_CMD_STS_BUSY 0 1).set
          R.MSC_CMD_STS_ERR 0 0).wires) ∧
      (s.on R.MSC_CMD_STS_BUSY = true → ∀ r ∈ rows, exec r.1 s = .next s.wires)) ∧
    (s.writable 0x0E0008 = false → s.glb.powered = true → s.gated 0x0E0008 = true → ∀ r ∈ rows, exec r.1 s =
      .next (s.violate 0 1 1 0x100E0008 0 0).wires) ∧
    (walks → Gives (exec .walkDone s) (fun t => t.get R.MSC_WALK_STS_ACTIVE = 0 ∧ t.get R.MSC_ERR_STS_WALK_DONE = 1 ∧
      (s.on R.MSC_WALK_STS_INIT = true →
        t.fab.wcb = s.fab.wcb.filter (fun e => !(decide (pos ≤ e.line) && decide (e.line < top))) ∧
        ∀ n, t.lineAt n = if pos ≤ n ∧ n < top then
          { data := fill 64 0, colour := 0, keyId := k, alloc := Tab.get 0 s.fab.allocs k } else s.lineAt n))) ∧
    (¬walks → exec .walkDone s = .next s.wires) ∧
    (∀ e, s.fab.wcb.find? (fun e => e.line == line) = some e →
      (e.frame + 16 ≤ s.frameNo → Gives (exec (.wcbEntryAgeOut line) s) (fun t =>
        t.fab.wcb = s.fab.wcb.filter (fun x => x.line != line) ∧ (∀ n, n ≠ line → t.lineAt n = s.lineAt n) ∧
        (∀ i, e.mask ≠ 2 ^ 64 - 1 → Tab.get 0 s.fab.badReads line < 3 → s.lineFault line = none → e.anycol = true →
          e.setcol = false → s.debugBars e.group (s.lineAt line).colour = false → s.mapOf (line * 64) = some i →
          t.lineAt line = {
            data := e.overlay (fitTo 64 (s.lineAt line).data)
            colour := (s.lineAt line).colour
            keyId := s.get R.MSC_MAP_KEYID i
            alloc := Tab.get 0 s.fab.allocs (s.get R.MSC_MAP_KEYID i) }))) ∧
      (s.frameNo < e.frame + 16 → exec (.wcbEntryAgeOut line) s = .next s.wires)) ∧
    (s.fab.wcb.any (fun e => e.line == line) = false → exec (.wcbEntryAgeOut line) s = .next s.wires)

/-! ## Fieldbook (R305, R309 to R315) -/

/-- FB_CMD with BUSY clear (R311 to R313, R315): covered by its session, EXPORT and FLUSH outside a freeze, CLEAR
after an export that qualifies, and THAW always, wait for the boundary with BUSY set and error 0; else the lowest code
that applies answers, and a command that no session covers is recorded. With BUSY set a command is dropped. The
model's own reading or choice where it rests on assumption 46. -/
def Obligations.FieldbookCommands : Prop :=
  ∀ (s : State) (keep diag : Bool) (scope : Nat), s.writable 0x0F0008 = true →
    let waits (op : Nat) (keep diag : Bool) (scope : Nat) : State :=
      (({ s with fb := { s.fb with cmd := some (op, keep, diag, scope) } }).set R.FB_CMD_STS_BUSY 0 1).set R.FB_CMD_STS_ERR 0 0
    let fails (e : Nat) : State := (s.set R.FB_CMD_STS_BUSY 0 0).set R.FB_CMD_STS_ERR 0 e
    let audits : Prop := s.holds devSession roleAud = true ∨ s.holds scope roleAud = true ∨
      (diag = true ∧ bit (s.get R.LC_DBG_STS_OPEN) 2 = true)
    let clears : Prop := s.holds devSession roleSO = true ∧ s.holds devSession roleAud = true
    let still : Prop := s.fb.frozenAt = none ∧ s.fb.exporting = false
    (s.on R.FB_CMD_STS_BUSY = true →
      ∀ c ∈ [Instr.fbExport keep diag scope, .fbThaw, .fbClear, .diagFlush], exec c s = .next s.wires) ∧
    (s.on R.FB_CMD_STS_BUSY = false →
      exec .fbThaw s = .next (waits 2 false false 0).wires ∧
      (still → exec .diagFlush s = .next (waits 4 false false 0).wires) ∧
      (¬still → exec .diagFlush s = .next (fails 3).wires) ∧
      (audits → still → scope ≤ 1024 → exec (.fbExport keep diag scope) s = .next (waits 1 keep diag scope).wires) ∧
      (audits → ¬still → exec (.fbExport keep diag scope) s = .next (fails 3).wires) ∧
      (audits → still → 1024 < scope → exec (.fbExport keep diag scope) s = .next (fails 6).wires) ∧
      (¬audits → exec (.fbExport keep diag scope) s = .next ((fails 2).writeDropped 0x0F0008).wires) ∧
      (clears → s.fb.frozenAt.isSome = true → s.fb.keep = true → s.fb.clearOk = true → s.fb.exporting = false →
        exec .fbClear s = .next (waits 3 false false 0).wires) ∧
      (clears → s.fb.frozenAt = none ∨ s.fb.keep = false ∨ s.fb.clearOk = false ∨ s.fb.exporting = true →
        exec .fbClear s = .next (fails 4).wires) ∧
      (¬clears → exec .fbClear s = .next ((fails 2).writeDropped 0x0F0008).wires))

/-- Events of the Fieldbook: an export ends with its EXPORT record when the length is reached or the records run out, in a frame with room
for it, and a failed write ends it without one, with FB_CMD_STS.ERR 5 (R311); a freeze ends 4,096 frames after it began and
not before (R312); the diagnostic buffer is written out when it passes 96 KB outside a freeze (R305); the refusals
counted since the last are recorded at a frame divisible by 4,096 (R314); a store without a reserve sector turns
read-only and is recorded (R206, R310). The model's own reading or choice where it rests on assumptions 21, 46. -/
def Obligations.FieldbookEvents : Prop :=
  ∀ (s : State) (store : Nat),
    (s.fb.exporting = true → s.credit s.adminPort = true → (s.fb.exLeft = 0 ∨ s.fb.toExport = []) → s.fb.exNow < s.fb.exRate →
      Gives (exec .exportEnd s) (fun t => t.fb.exporting = false ∧ t.on R.FB_STS_EXPORT = false ∧ t.fb.exNow = 0 ∧
        (s.fb.pending.length < 64 → (s.triggers 0x0002).length = 0 → t.fb.seq = s.fb.seq + 1) ∧ t.get R.FB_ERR_STS_EXPORT_DONE = 1)) ∧
    (s.fb.exporting = false ∨ s.credit s.adminPort = false ∨ (s.fb.exLeft ≠ 0 ∧ s.fb.toExport ≠ []) ∨ s.fb.exRate ≤ s.fb.exNow →
      exec .exportEnd s = .next s.wires) ∧
    (s.fb.exporting = true →
      let t := ((s.exportStop.set R.FB_CMD_STS_BUSY 0 0).set R.FB_CMD_STS_ERR 0 5)
      exec .exportDmaFail s = .next ({ t with fb := { t.fb with endFreeze := !t.fb.keep } }).wires) ∧
    (s.fb.exporting = false → exec .exportDmaFail s = .next s.wires) ∧
    (∀ f, s.fb.frozenAt = some f →
      (f + 4096 ≤ s.frameNo → s.fb.exporting = false →
        exec .freezeTimeout s = .next (s.unfreeze.fbAfterFreeze).wires ∧
        Gives (exec .freezeTimeout s) (fun t => t.fb.frozenAt = none ∧ t.on R.FB_STS_FROZEN = false ∧ t.fb.pending = [])) ∧
      (s.frameNo < f + 4096 → exec .freezeTimeout s = .next s.wires)) ∧
    (s.fb.frozenAt = none → exec .freezeTimeout s = .next s.wires ∧
      (98304 < s.fb.bufferBytes → exec .diagBufferWriteout s =
        .next (s.fb.buffer.foldl (fun (t : State) r => t.fbWrite r) { s with fb := { s.fb with buffer := [] } }).wires)) ∧
    (s.fb.bufferBytes ≤ 98304 ∨ s.fb.frozenAt.isSome = true → exec .diagBufferWriteout s = .next s.wires) ∧
    (s.frameNo % 4096 = 0 → s.fb.refused ≠ 0 → exec .fbRefusals s =
      .next (({ s with fb := { s.fb with refused := 0, refusedSlices := [] } }).record 0x0007 0 1024 s.fb.refused
        s.fb.refusedSlices.length).wires) ∧
    (s.frameNo % 4096 ≠ 0 ∨ s.fb.refused = 0 → exec .fbRefusals s = .next s.wires) ∧
    exec (.storeRo 0) s =
      .next (((({ s with fb := { s.fb with ro := true } }).set R.FB_STS_RO 0 1).fbErr R.FB_ERR_STS_RO).record 0x0805 3 1024 0).wires ∧
    exec (.storeRo 1) s =
      .next ((({ s with ks := { s.ks with ctRo := true } }).set R.KS_STS_CT_RO 0 1).record 0x0805 3 1024 1).wires ∧
    (2 ≤ store → exec (.storeRo store) s = .next (s.record 0x0805 3 1024 store).wires)

/-! ## Updates (R324 to R330) -/

/-- UPD_CMD with BUSY clear (R324, R325, R328): START in IDLE or RECOVERY while no head sector is being checked, SECTOR of the number that is expected,
ABORT while nothing is written, CONFIRM of an unconfirmed image, wait for the boundary with BUSY set and error 0;
ACTIVATE in READY also asks for a warm reset of cause 0xC and is recorded. A command out of its state answers 3, and
one no session covers 2. With BUSY set a command is dropped. The model's own reading or choice where it rests on
assumption 47. -/
def Obligations.UpdateCommands : Prop :=
  ∀ (s : State) (number : Nat) (data : Option Bytes), s.writable 0x100004 = true →
    let st := s.get R.UPD_STS_STATE
    let waits (op : Nat) (data : Option Bytes) : State :=
      (({ s with upd := { s.upd with cmd := some (op, data) } }).set R.UPD_CMD_STS_BUSY 0 1).set R.UPD_CMD_STS_ERR 0 0
    let fails (e : Nat) : State := (s.set R.UPD_CMD_STS_BUSY 0 0).set R.UPD_CMD_STS_ERR 0 e
    (s.on R.UPD_CMD_STS_BUSY = true →
      ∀ c ∈ [Instr.updStart data, .updSector number data, .updActivate, .updAbort, .updConfirm], exec c s = .next s.wires) ∧
    (s.on R.UPD_CMD_STS_BUSY = false →
      (s.upd.cand = none → st = 6 ∨ (st = 0 ∧ s.holds devSession roleOper = true) →
        (s.on R.LC_STS_BUSY = false → exec (.updStart data) s = .next (waits 1 data).wires) ∧
        (s.on R.LC_STS_BUSY = true → exec (.updStart data) s =
          .next (((fails 0xE).updErr R.UPD_ERR_STS_START_FAIL).updRecord 2 (data.getD []) 0xE).wires)) ∧
      (st ≠ 6 → s.holds devSession roleOper = false → exec (.updStart data) s = .next ((fails 2).writeDropped 0x100004).wires) ∧
      ((st = 6 ∨ s.holds devSession roleOper = true) → ((st ≠ 0 ∧ st ≠ 6) ∨ s.upd.cand.isSome = true) → exec (.updStart data) s =
        .next (((fails 3).updErr R.UPD_ERR_STS_START_FAIL).updRecord 2 (data.getD []) 3).wires) ∧
      (st = 3 ∨ (st = 6 ∧ s.get R.UPD_PROGRESS_NEXT ≠ 0) →
        (number = s.get R.UPD_PROGRESS_NEXT → exec (.updSector number data) s = .next (waits 2 data).wires) ∧
        (number ≠ s.get R.UPD_PROGRESS_NEXT →
          exec (.updSector number data) s = .next ((fails 9).updErr R.UPD_ERR_STS_SECTOR_FAIL).wires)) ∧
      (st ≠ 3 → st ≠ 6 → exec (.updSector number data) s = .next ((fails 3).updErr R.UPD_ERR_STS_SECTOR_FAIL).wires) ∧
      (st = 5 → exec .updActivate s =
        .next (((waits 3 none).updRecord 5 s.upd.head 0).askReset true 0xC false).wires) ∧
      (st ≠ 5 → exec .updActivate s = .next (fails 3).wires) ∧
      (st = 1 ∨ st = 2 → exec .updAbort s = .next (waits 4 none).wires) ∧
      (st ≠ 1 → st ≠ 2 → exec .updAbort s = .next (fails 3).wires) ∧
      (s.holds devSession roleSO = true →
        (s.on R.UPD_STS_UNCONFIRMED = true → (s.get R.LC_STATE_CODE = 2 ∨ s.get R.LC_STATE_CODE = 3) → s.ks.ctRo = false →
          exec .updConfirm s = .next (waits 5 none).wires) ∧
        (s.on R.UPD_STS_UNCONFIRMED = false → exec .updConfirm s = .next (fails 3).wires)) ∧
      (s.holds devSession roleSO = false → exec .updConfirm s = .next ((fails 2).writeDropped 0x100004).wires))

/-- The steps of an update (R319, R324, R325): the check of a head sector, which reads the floor leaf first, starts the drain, or answers
the first failure of R319 and returns to IDLE; in RECOVERY an acceptable head replaces the image under way and the writing begins anew;
a drain that is over starts the writing at sector 1, with the journal and the record; a sector that was written moves the journal and
NEXT on, the last one to SEAL, and one that fails is tried four times; SEAL writes sector 0, and READY follows. Power failure holds each
write off (R327), and a device halted, in the safe-state wait or without the clocks of the flash does none of it (R329, R337, R338). The
model's own reading or choice where it rests on assumptions 2, 39, 73. -/
def Obligations.UpdateSteps : Prop :=
  ∀ (s : State) (b : Bytes) (good : Bool),
    let n := s.get R.UPD_PROGRESS_NEXT
    let r := s.readFloor
    let began (t : State) (head : Bytes) : Prop := t.get R.UPD_PROGRESS_NEXT = 1 ∧
      (t.upd.journal.map (fun j => (j.state, j.next, j.imageId))) = some (2, 1, headId head) ∧ t.flashAt 0 = []
    (∀ c, s.upd.cand = some c → s.upd.passed = none → s.upd.sector = none → s.updHalted = false →
      let h := fitTo 65536 c
      (s.get R.UPD_STS_STATE = 1 →
        (r.imageErr h = 0 → exec .verifyDone s =
          .next ({ r with upd := { r.upd with head := h, recorded := false, passed := some s.frameNo } }).wires) ∧
        (r.imageErr h ≠ 0 → exec .verifyDone s =
          .next ((((((({ r with upd := { r.upd with cand := none } }).set R.UPD_STS_STATE 0 0).set R.UPD_CMD_STS_BUSY 0 0).set
            R.UPD_CMD_STS_ERR 0 (r.imageErr h)).updErr R.UPD_ERR_STS_START_FAIL).updRecord 2 h (r.imageErr h))).wires)) ∧
      (s.get R.UPD_STS_STATE = 6 →
        (r.imageErr h = 0 → s.glb.pwrFail = false → Gives (exec .verifyDone s) (fun t =>
          t.get R.UPD_STS_STATE = 6 ∧ t.upd.head = h ∧ t.upd.cand = none ∧ began t h)) ∧
        (r.imageErr h ≠ 0 → exec .verifyDone s =
          .next (((((({ r with upd := { r.upd with cand := none } }).set R.UPD_CMD_STS_BUSY 0 0).set
            R.UPD_CMD_STS_ERR 0 (r.imageErr h)).updErr R.UPD_ERR_STS_START_FAIL).updRecord 2 h (r.imageErr h))).wires))) ∧
    (s.upd.cand = none ∨ s.updHalted = true ∨ (s.get R.UPD_STS_STATE ≠ 1 ∧ s.get R.UPD_STS_STATE ≠ 6) →
      exec .verifyDone s = .next s.wires) ∧
    (s.get R.UPD_STS_STATE = 2 → s.upd.recorded = true → s.updStopped = false → s.trv.cmds = [] →
      Gives (exec .updateDrainEnd s) (fun t => t.get R.UPD_STS_STATE = 3 ∧ began t s.upd.head)) ∧
    (s.get R.UPD_STS_STATE ≠ 2 ∨ s.upd.recorded = false ∨ s.updStopped = true ∨ (∃ c ∈ s.trv.cmds, c.isHeld = false) →
      exec .updateDrainEnd s = .next s.wires) ∧
    (s.upd.sector = some b → s.updHalted = false →
      let t := ((({ s with upd := { s.upd with sector := none, tries := 0 } }).program n b).putJournal
        (if headSectors s.upd.head ≤ n then 3 else 2) (n + 1) s.upd.head).set R.UPD_PROGRESS_NEXT 0 (n + 1)
      (headSectors s.upd.head ≤ n → exec (.updSectorWritten true) s =
        .next (((t.set R.UPD_STS_STATE 0 4).set R.UPD_CMD_STS_BUSY 0 0).set R.UPD_CMD_STS_ERR 0 0).wires) ∧
      (n < headSectors s.upd.head → exec (.updSectorWritten true) s =
        .next ((t.set R.UPD_CMD_STS_BUSY 0 0).set R.UPD_CMD_STS_ERR 0 0).wires) ∧
      (s.glb.pwrFail = true → exec (.updSectorWritten false) s =
        .next ({ s with upd := { s.upd with sector := none, tries := 0 } }).wires) ∧
      (s.glb.pwrFail = false → s.upd.tries < 3 → exec (.updSectorWritten false) s = .next ({ s with upd := { s.upd with tries := s.upd.tries + 1 } }).wires) ∧
      (s.glb.pwrFail = false → 3 ≤ s.upd.tries → exec (.updSectorWritten false) s =
        .next ((((({ s with upd := { s.upd with sector := none, tries := 0 } }).set R.UPD_CMD_STS_BUSY 0 0).set
          R.UPD_CMD_STS_ERR 0 0xC).updErr R.UPD_ERR_STS_FLASH)).wires)) ∧
    (s.upd.sector = none ∨ s.updHalted = true → exec (.updSectorWritten good) s = .next s.wires) ∧
    (s.get R.UPD_STS_STATE = 4 → s.updStopped = false → exec .updWritten s =
      .next (((((s.program 0 s.upd.head).putJournal 4 n s.upd.head).set R.UPD_STS_STATE 0 5).updErr R.UPD_ERR_STS_WRITTEN).updRecord 4
        s.upd.head 0).wires) ∧
    (s.get R.UPD_STS_STATE ≠ 4 ∨ s.updStopped = true → exec .updWritten s = .next s.wires)

/-! ## Clocks (R332 to R337) -/

/-- The trim and the muxes. The end of a measurement interval shows its error, with the phase of the boundary where the reference is the
PPS or the marks (R360), and what is to move, LOCK rising after
two intervals within 5 ppm and falling past 20 ppm; without a source or in holdover it does nothing, and the first
interval after holdover is skipped (R332). A reference that is lost starts holdover, with monitor 9 for one at a pin, and one that returns ends it (R333, R345).
A mux completes a switch whose old clock runs, and no other (R334). The model's own reading or choice where it rests
on assumption 23. -/
def Obligations.TrimAndMuxes : Prop :=
  ∀ (s : State) (count m : Nat) (phase : Int),
    let src := s.get R.CLK_TRIM_CFG_SRC
    let e := trimError src count phase
    let good := if e.natAbs ≤ 500 then s.clk.good + 1 else 0
    let shown := (({ s with clk := { s.clk with good := good, toMove := e.natAbs / 5, moveUp := decide (e < 0) } }).set
      R.CLK_TRIM_ERR_ERR 0 (e % (2 ^ 24 : Nat)).toNat).set R.CLK_TRIM_ERR_VALID 0 1
    let busy := s.get R.CLK_MUX_STS_BUSY
    (src ≠ 0 → s.on R.CLK_STS_HOLDOVER = false →
      (s.clk.skip = true → exec (.trimIntervalEnd ⟨count, phase⟩) s =
        .next (State.sendTime { s with clk := { s.clk with skip := false } }).wires) ∧
      (s.clk.skip = false →
        (good < 2 → e.natAbs ≤ 2000 ∨ s.on R.CLK_STS_LOCK = false → exec (.trimIntervalEnd ⟨count, phase⟩) s = .next shown.sendTime.wires) ∧
        (s.on R.CLK_STS_LOCK = true → e.natAbs ≤ 2000 → exec (.trimIntervalEnd ⟨count, phase⟩) s = .next shown.sendTime.wires) ∧
        (2 ≤ good → s.on R.CLK_STS_LOCK = false → exec (.trimIntervalEnd ⟨count, phase⟩) s =
          .next (((shown.set R.CLK_STS_LOCK 0 1).clkErr R.CLK_ERR_STS_LOCK_GAINED 0 0).clkRecord 1).sendTime.wires) ∧
        (2000 < e.natAbs → s.on R.CLK_STS_LOCK = true → exec (.trimIntervalEnd ⟨count, phase⟩) s =
          .next (((shown.set R.CLK_STS_LOCK 0 0).clkErr R.CLK_ERR_STS_LOCK_LOST 0 0).clkRecord 2).sendTime.wires)) ∧
      exec .refLost s = .next ((((({ s with clk := { s.clk with lostTemp := s.hottest, good := 0, toMove := 0 } }).set
        R.CLK_STS_HOLDOVER 0 1).set R.CLK_STS_TREF_OK 0 0).clkErr R.CLK_ERR_STS_REF_LOST (if src = 3 then 0 else 9) 0).clkRecord 3).wires) ∧
    (src = 0 ∨ s.on R.CLK_STS_HOLDOVER = true →
      exec (.trimIntervalEnd ⟨count, phase⟩) s = .next s.sendTime.wires ∧ exec .refLost s = .next s.wires) ∧
    (s.on R.CLK_STS_HOLDOVER = true → exec .refReturn s = .next ((((({ s with clk := { s.clk with skip := true } }).set
      R.CLK_STS_HOLDOVER 0 0).set R.CLK_STS_TREF_OK 0 (if src = 1 ∨ src = 2 then 1 else 0))).clkRecord 4).wires) ∧
    (s.on R.CLK_STS_HOLDOVER = false → exec .refReturn s = .next s.wires) ∧
    (m < 3 → bit busy m = true → s.oldClockRuns m = true →
      exec (.muxSwitchDone m) s = .next (s.set R.CLK_MUX_STS_BUSY 0 (busy - 2 ^ m)).wires) ∧
    (3 ≤ m ∨ bit busy m = false ∨ s.oldClockRuns m = false → exec (.muxSwitchDone m) s = .next s.wires)

/-- Clock failures. The backup oscillator's is reported and recorded and service goes on; a host port's is link loss, the Net's brings
its ports down, and TREF's, where it is the reference, ends its use (R335, R333). One of monitors 0, 1,
3, 4 and 5 in service breaks the promises, records the failure and flushes while a clock of the fatal path is left; when none
is, the records that wait are lost and the fatal reset is asked for at once (R307); the fatal reset ends it (R336). Outside service it
starts the safe-state wait, in which no granted step goes on and which ends in a cold reset once the clocks that failed have passed
their windows (R337). The model's own reading or choice where it rests on assumptions 48, 86, 87. -/
def Obligations.ClockFailures : Prop :=
  ∀ (s : State) (m kind count : Nat),
    let now := s.get R.CLK_MON_STS_OK
    let left := if bit now m then now - 2 ^ m else now
    let failed := ((((s.set R.CLK_MON_STS_OK 0 left).set R.CLK_STS_XIN_OK 0 (bits left 1 1)).set R.CLK_STS_BKO_OK 0 (bits left 2 2)).set
      R.CLK_MON_CNT_COUNT m count).locksLost m kind
    let watched : Prop := m = 0 ∨ m = 1 ∨ m = 3 ∨ m = 4 ∨ m = 5
    let service : Prop := s.get R.LC_STATE_CODE = 3 ∧ s.on R.GLB_STS_SERVICE_READY = true
    let fatal : State := { failed with clk := { failed.clk with fatal := true } }
    let waits : State := ((({ failed with
      clk := { failed.clk with
        safe := some (match s.clk.safe with | some l => if l.contains m then l else l ++ [m] | none => [m]), passRun := 0 }
      trv := { failed.trv with cmds := s.trv.cmds.map (fun (c : Cmd) => { c with granted := false }) } } : State).set
        R.GLB_STS_STAGE 0 0xA).set R.TRV_STS_READY 0 0)
    (m = 2 →
      exec (.bkoFail kind count) s = .next ((failed.clkErr R.CLK_ERR_STS_BKO_FAIL 2 kind).clkRecord 6).wires ∧
      (s.glb.powered = true → exec (.clockFailure m kind count) s = exec (.bkoFail kind count) s)) ∧
    (watched → s.glb.powered = true → service → s.clk.fatal = false →
      (bit (failed.get R.CLK_MON_STS_OK) 2 = true ∨ bit (failed.get R.CLK_MON_STS_OK) 0 = true →
        exec (.clockFailure m kind count) s =
          .next (((fatal.fatalRecords.breakPromises ccFatalClock).recordAs false true 0x0603 3 1024 m kind count 0).flush 4).wires) ∧
      (bit (failed.get R.CLK_MON_STS_OK) 2 = false → bit (failed.get R.CLK_MON_STS_OK) 0 = false → failed.glb.rst = none →
        exec (.clockFailure m kind count) s = .next ({ fatal with
          fb := { failed.fb with pending := [], buffer := [] }
          glb := { failed.glb with rst := some ⟨false, 5, false⟩ } }).wires)) ∧
    (watched → s.glb.powered = true → ¬service → exec (.clockFailure m kind count) s = .next waits.wires) ∧
    (watched → (service ∧ s.clk.fatal = true) ∨ s.glb.powered = false → exec (.clockFailure m kind count) s = .next s.wires) ∧
    (m = 6 ∨ m = 7 → s.glb.powered = true → exec (.clockFailure m kind count) s = .next (failed.linkLoss (m - 6) 0xA).wires) ∧
    (m = 8 → s.glb.powered = true →
      exec (.clockFailure m kind count) s = .next (netPorts.foldl (fun t p => t.portDown p 3) failed).wires) ∧
    (m = 9 → s.glb.powered = true →
      (s.get R.CLK_TRIM_CFG_SRC ≠ 1 → s.get R.CLK_TRIM_CFG_SRC ≠ 2 →
        exec (.clockFailure m kind count) s = .next failed.wires) ∧
      (s.get R.CLK_TRIM_CFG_SRC = 1 ∨ s.get R.CLK_TRIM_CFG_SRC = 2 →
        exec (.clockFailure m kind count) s = .next failed.refLost.wires)) ∧
    (9 < m → exec (.clockFailure m kind count) s = .next s.wires) ∧
    (s.clk.fatal = true → exec .fatalReset s = .next (s.queueWords.coldReset 5 s.bootAgain).wires) ∧
    (s.clk.fatal = false → exec .fatalReset s = .next s.wires) ∧
    (watched → kind ≠ 0 → ¬service → exec (.safeStateWait m kind count) s = .next waits.wires) ∧
    (¬watched ∨ kind = 0 ∨ service → exec (.safeStateWait m kind count) s = .next s.wires) ∧
    (s.clk.safe.isSome = true → 11 ≤ s.clk.passRun → s.glb.rst = none →
      exec .safeStateWaitEnd s = .next ({ s with glb := { s.glb with rst := some ⟨false, 4, false⟩ } }).wires) ∧
    (s.clk.safe = none ∨ s.clk.passRun < 11 → exec .safeStateWaitEnd s = .next s.wires)

/-! ## Dose (R340 to R343, R399) -/

/-- Telemetry. A read of an enabled rail shows its command on the bus and its value in units of mV or 0.25 A: an
exponent of VOUT_MODE that is no linear one switches the rail off, a voltage below 95 percent of nominal or bits 15
and 14 of STATUS_WORD warn, a current above the limit is reported; a read that fails voids the round (R340, R343,
R399). A round that has every value of every rail moves the last four round values on; a void one counts, and the
fourth in a row ends the history. The model's own reading or choice where it rests on assumptions 24, 25. -/
def Obligations.Telemetry : Prop :=
  ∀ (s : State) (rail v : Nat) (what : PmbRead) (result : PmbResult),
    let shown := (((s.set R.MGT_PMB_STS_ADDR 0 (s.get R.DOSE_RAIL_CFG_ADDR rail)).set R.MGT_PMB_STS_CMD 0 (pmbCode what)).set
      R.MGT_PMB_STS_PAGE 0 (s.get R.DOSE_RAIL_CFG_PAGE rail)).set R.MGT_PMB_STS_BUSY 0 0
    let seen (l : List Nat) : List Nat := if l.contains rail then l else l ++ [rail]
    let void : Prop := s.dose.roundVoid = true ∨ ∃ r ∈ s.railsOn, r ∉ s.dose.readV ∨ r ∉ s.dose.readI
    let runs : Prop := bit (s.get R.CLK_GATE_ON) 8 = true ∧ s.clk.safe = none
    (rail ∉ s.railsOn ∨ ¬runs → exec (.pmbusReadDone rail what result) s = .next s.wires) ∧
    (rail ∈ s.railsOn → runs →
      exec (.pmbusReadDone rail what .nack) s = .next ((({ shown with dose := { s.dose with roundVoid := true } }).set
        R.MGT_PMB_ERR_NACK 0 1).doseErr R.DOSE_ERR_STS_PMB_ERR rail).wires ∧
      exec (.pmbusReadDone rail what .timeout) s = .next ((({ shown with dose := { s.dose with roundVoid := true } }).set
        R.MGT_PMB_ERR_TIMEOUT 0 1).doseErr R.DOSE_ERR_STS_PMB_ERR rail).wires ∧
      (what = .voutMode →
        (bits v 7 5 = 0 → exec (.pmbusReadDone rail what (.value v)) s =
          .next ({ shown with dose := { s.dose with modes := s.dose.modes.ins rail (64 + v % 32) } }).wires) ∧
        (bits v 7 5 ≠ 0 → exec (.pmbusReadDone rail what (.value v)) s =
          .next ((({ shown with dose := { s.dose with off := s.dose.off ++ [rail] } }).set R.MGT_PMB_ERR_MODE 0 1).doseErr
            R.DOSE_ERR_STS_PMB_ERR rail).wires)) ∧
      (what = .vout → ∀ mode, Tab.get 0 s.dose.modes rail = 64 + mode →
        let mv := scaled (v % 65536) mode 1000
        let t := ({ shown with dose := { s.dose with readV := seen s.dose.readV } }).set R.DOSE_RAIL_TEL_VOUT rail (min mv 4095)
        (95 * railNominal rail ≤ 100 * mv → exec (.pmbusReadDone rail what (.value v)) s = .next t.wires) ∧
        (100 * mv < 95 * railNominal rail → exec (.pmbusReadDone rail what (.value v)) s = .next (t.brownWarn rail mv).wires)) ∧
      (what = .iout →
        let q := scaled (v % 2048) (v / 2048 % 32) 4
        let t := ({ shown with dose := { s.dose with readI := seen s.dose.readI } }).set R.DOSE_RAIL_TEL_IOUT rail (min q 4095)
        (q ≤ 2 * s.railLimit (s.get R.DOSE_RAIL_CFG_LIMIT rail) rail →
          exec (.pmbusReadDone rail what (.value v)) s = .next t.wires) ∧
        (2 * s.railLimit (s.get R.DOSE_RAIL_CFG_LIMIT rail) rail < q →
          exec (.pmbusReadDone rail what (.value v)) s = .next (t.doseErr R.DOSE_ERR_STS_OVER rail).wires)) ∧
      (what = .statusWord →
        (bit v 15 = true ∨ bit v 14 = true → exec (.pmbusReadDone rail what (.value v)) s = .next (shown.brownWarn rail v).wires) ∧
        (bit v 15 = false → bit v 14 = false → exec (.pmbusReadDone rail what (.value v)) s = .next shown.wires))) ∧
    (s.frameNo % 256 = 0 → s.dose.roundAt ≠ s.frameNo + 1 → Gives (exec .telemetryRound s) (fun t =>
      t.dose.readV = [] ∧ t.dose.readI = [] ∧ t.dose.roundVoid = false ∧ t.dose.warned = false ∧ t.dose.roundEnergy = 0 ∧
      (void → t.dose.voids = s.dose.voids + 1 ∧ (3 ≤ s.dose.voids → t.dose.rounds = [] ∧ t.dose.hist = false ∧ t.on R.DOSE_STS_HIST = false) ∧
        (s.dose.voids < 3 → t.dose.rounds = s.dose.rounds ∧ t.get R.DOSE_STS_HIST = s.get R.DOSE_STS_HIST)) ∧
      (¬void → s.railsOn = [] → t.dose.voids = 0 ∧ t.dose.rounds = s.dose.rounds) ∧
      (¬void → s.railsOn ≠ [] → t.dose.voids = 0 ∧ t.dose.rounds = (s.roundValue :: s.dose.rounds).take 4 ∧
        (3 ≤ s.dose.rounds.length → t.dose.hist = true ∧ t.on R.DOSE_STS_HIST = !s.on R.DOSE_BASE_CFG_FIXED ∧
          t.dose.telBase = (s.roundValue :: s.dose.rounds.take 3).foldl max 0 + s.get R.DOSE_BASE_CFG_MARGIN) ∧
        (s.dose.rounds.length < 3 → t.dose.hist = s.dose.hist ∧ t.dose.telBase = s.dose.telBase)))) ∧
    (s.frameNo % 256 ≠ 0 ∨ s.dose.roundAt = s.frameNo + 1 → exec .telemetryRound s = .next s.wires)

/-- Warnings, the thermal ceiling and the stuck bus. The first brown-out warning of a frame waits for the boundary
(R343); brown-out clears after 256 frames with the pin high and a clean round (R343). The ceiling is reached with two
boundaries at T_HI, and left after 256 cool ones or when it is disabled (R341). A bus that is stuck is flagged and no
longer busy (R399). -/
def Obligations.WarningsAndCeiling : Prop :=
  ∀ (s : State) (rail value : Nat),
    (s.dose.brownReq = none → exec (.brownoutWarning rail value) s =
      .next ({ s with dose := { s.dose with warned := true, brownReq := some (rail, value) } }).wires) ∧
    (s.dose.brownReq.isSome = true → exec (.brownoutWarning rail value) s =
      .next ({ s with dose := { s.dose with warned := true } }).wires) ∧
    (s.on R.DOSE_STS_BROWNOUT = true → s.dose.brownAt + 256 ≤ s.frameNo → s.dose.alertHigh = true → s.dose.clean = true →
      exec .brownoutClear s =
        .next (((s.set R.DOSE_STS_BROWNOUT 0 0).doseErr R.DOSE_ERR_STS_BROWN_CLR s.dose.brownBy.1).record 0x0803 2 1024 2 s.dose.brownBy.1
          s.dose.brownBy.2).wires) ∧
    (s.on R.DOSE_STS_BROWNOUT = false ∨ s.frameNo < s.dose.brownAt + 256 ∨ s.dose.alertHigh = false ∨ s.dose.clean = false →
      exec .brownoutClear s = .next s.wires) ∧
    (s.on R.DOSE_THERM_EN = true → 2 ≤ s.dose.hot → s.on R.DOSE_STS_THERM = false →
      exec .thermalCeilingOn s = .next ((s.set R.DOSE_STS_THERM 0 1).doseErr R.DOSE_ERR_STS_THERM 0).wires) ∧
    (s.on R.DOSE_THERM_EN = false ∨ s.dose.hot < 2 ∨ s.on R.DOSE_STS_THERM = true → exec .thermalCeilingOn s = .next s.wires) ∧
    (s.on R.DOSE_STS_THERM = true → 256 ≤ s.dose.cool → exec .thermalCeilingOff s = .next (s.set R.DOSE_STS_THERM 0 0).wires) ∧
    (s.on R.DOSE_STS_THERM = false ∨ s.dose.cool < 256 → exec .thermalCeilingOff s = .next s.wires) ∧
    (bit (s.get R.CLK_GATE_ON) 8 = true → s.clk.safe = none →
      exec .pmbStuck s = .next ((s.set R.MGT_PMB_ERR_STUCK 0 1).set R.MGT_PMB_STS_BUSY 0 0).wires) ∧
    (bit (s.get R.CLK_GATE_ON) 8 = false ∨ s.clk.safe.isSome = true → exec .pmbStuck s = .next s.wires)

/-! ## Configuration, start-up and resets (R367 to R377) -/

/-- GLB_CFG_CMD (R375, R376): with BUSY clear and from stage 4, CHECK and DISCARD wait with BUSY set, COMMIT only with
a staged set that passed, is not stale and was not written since; before stage 4 the answer is 2, a COMMIT that may
not run answers 3. With BUSY set the write is dropped. -/
def Obligations.ConfigurationCommands : Prop :=
  ∀ (s : State), s.writable 0x000048 = true →
    let waits (op : Nat) : State :=
      { (s.set R.GLB_CFG_STS_ERR 0 0).set R.GLB_CFG_STS_BUSY 0 1 with glb := { s.glb with cfg := some (op, false) } }
    let passed : Prop := s.on R.GLB_CFG_STS_PASSED = true ∧ s.glb.clean = true ∧ s.on R.GLB_CFG_STS_STALE = false
    (s.on R.GLB_CFG_STS_BUSY = true → ∀ c ∈ [Instr.cfgCheck, .cfgCommit, .cfgDiscard], exec c s = .next s.wires) ∧
    (s.on R.GLB_CFG_STS_BUSY = false →
      (s.stage < 4 → ∀ c ∈ [Instr.cfgCheck, .cfgCommit, .cfgDiscard], exec c s = .next (s.set R.GLB_CFG_STS_ERR 0 2).wires) ∧
      (4 ≤ s.stage →
        exec .cfgCheck s = .next (waits 1).wires ∧ exec .cfgDiscard s = .next (waits 3).wires ∧
        (passed → exec .cfgCommit s = .next (waits 2).wires) ∧
        (¬passed → exec .cfgCommit s = .next (s.set R.GLB_CFG_STS_ERR 0 3).wires)))

/-- Resets asked for (R374). GLB_RST_CMD WARM asks for a warm reset of cause 0xB, COLD for a cold one of cause 2 where
a Security Officer holds the device, in BLANK, FOUNDRY, RETURN and INVALID, while halted and in stage 8; elsewhere it
is dropped and recorded, and in END ignored. DRAIN stops observation, and the reset is performed at the boundary at which every
admitted command has ended, as RESET_DRAIN_END announces, and not before; without DRAIN at the next boundary. The model's own
reading or choice where it rests on assumptions 58, 81. -/
def Obligations.ResetsAskedFor : Prop :=
  ∀ (s : State) (drain : Bool),
    let t := if drain then s.set R.TRV_CTL_OBS_STOP 0 1 else s
    let lc := s.get R.LC_STATE_CODE
    let cold : Prop := s.holds devSession roleSO = true ∨ lc = 0 ∨ lc = 1 ∨ lc = 4 ∨ lc = 7 ∨ s.on R.TMP_STS_HALT = true ∨ s.stage = 8
    (s.writable 0x000030 = true → s.glb.rst = none →
      exec (.rstWarm drain) s = .next ({ t with glb := { s.glb with rst := some ⟨true, 0xB, drain⟩ } }).wires) ∧
    (s.writable 0x000030 = true → ∀ r, s.glb.rst = some r → exec (.rstWarm drain) s = .next t.wires) ∧
    (s.glb.powered = true → 1 ≤ s.stage → lc ≠ 5 →
      (cold → s.glb.rst = none → exec (.rstCold drain) s =
        .next ({ t with glb := { s.glb with rst := some ⟨false, 2, drain⟩ } }).wires) ∧
      (cold → ∀ w d, s.glb.rst = some ⟨true, w, d⟩ → exec (.rstCold drain) s =
        .next ({ t with glb := { s.glb with rst := some ⟨false, 2, drain⟩ } }).wires) ∧
      (cold → ∀ c d, s.glb.rst = some ⟨false, c, d⟩ → exec (.rstCold drain) s = .next t.wires) ∧
      (¬cold → exec (.rstCold drain) s = .next (s.record 0x0502 2 1024 0x000030).wires)) ∧
    (lc = 5 ∨ s.glb.powered = false ∨ s.stage = 0 → exec (.rstCold drain) s = .next s.wires) ∧
    (∀ w c, s.glb.rst = some ⟨w, c, true⟩ →
      (s.trv.cmds.all (·.isHeld) = true →
        (w = false ∨ s.warmAllowed = true → exec .resetDrainEnd s = .next (s.mark .resetDrain true).wires) ∧
        (w = true → s.warmAllowed = true → s.resetDue = s.warmReset c s.bootAgain) ∧
        (w = true → s.warmAllowed = false → s.resetDue = s ∧ exec .resetDrainEnd s = .next s.wires) ∧
        (w = false → s.resetDue = s.coldReset c s.bootAgain)) ∧
      (s.trv.cmds.all (·.isHeld) = false → s.resetDue = s ∧ exec .resetDrainEnd s = .next s.wires)) ∧
    (s.glb.rst = none ∨ (∃ w c, s.glb.rst = some ⟨w, c, false⟩) → exec .resetDrainEnd s = .next s.wires) ∧
    (∀ c, (s.glb.rst = some ⟨true, c, false⟩ → s.warmAllowed = true → s.resetDue = s.warmReset c s.bootAgain) ∧
      (s.glb.rst = some ⟨false, c, false⟩ → s.resetDue = s.coldReset c s.bootAgain))

/-- What a reset leaves (R373, R199). A cold one leaves FRAME_NO 0 and stage 0, a warm one FRAME_NO, the lifecycle and
the keys' state and stage 2; both leave every slice disabled, nothing in flight, no session, staged value,
reservation, counter window, KRC entry or loaded store, the cause in GLB_RST_STS, and what the battery, OTP, MRAM and
the flash hold as it was; the KRC, the staging buffers and the slots of the tiles and lattice units are cleared.
Without power, and in a stage a warm reset may not leave, nothing happens. The model's own reading or choice where it
rests on assumptions 50, 51, 64, 65. -/
def Obligations.ResetsPerformed : Prop :=
  ∀ (s : State) (cause : Nat) (boot : BootEnv), cause < 16 →
    let both (t : State) : Prop :=
      t.trv = { nextId := s.trv.nextId } ∧ t.shadows = [] ∧ t.cover = [] ∧ t.sessions = [] ∧ t.glb.rst = none ∧ t.glb.boot = boot ∧
      t.get R.GLB_RST_STS_CAUSE = cause ∧ (∀ n, t.enabled n = false) ∧ t.ks.krc = [] ∧ t.ks.windows = [] ∧ t.ks.accums = [] ∧
      t.tuStore = {} ∧ t.pkStore = {} ∧ t.luStore = {} ∧ t.ks.datum = s.ks.datum ∧ t.upd.flash = s.upd.flash ∧
      t.upd.journal = s.upd.journal ∧ t.otp = s.otp ∧ t.lc.copies = s.lc.copies ∧ t.fab.lines = s.fab.lines ∧ t.pending = s.pending ∧
      t.fab.ram = s.fab.ram.filter (fun c => decide (0x05800000 ≤ c.1))
    (s.glb.powered = true → Gives (exec (.coldReset cause boot) s) (fun t =>
      both t ∧ t.frameNo = 0 ∧ t.get R.GLB_STS_STAGE = 0 ∧ t.get R.GLB_STS_SERVICE_READY = 0 ∧ t.glb.badSeen = false)) ∧
    (s.glb.powered = true → s.warmAllowed = true → Gives (exec (.warmReset cause boot) s) (fun t =>
      both t ∧ t.frameNo = s.frameNo ∧ t.get R.GLB_STS_STAGE = (if s.stage = 0xB then 0xB else 2) ∧
      t.get R.LC_STATE_CODE = s.get R.LC_STATE_CODE ∧ t.glb.badSeen = s.glb.badSeen)) ∧
    (s.glb.powered = false → exec (.coldReset cause boot) s = .next s.wires) ∧
    (s.glb.powered = false ∨ s.warmAllowed = false → exec (.warmReset cause boot) s = .next s.wires)

/-- Power. The power-good point starts the device with FRAME_NO 0 in stage 0 and cause 1 (R367, R369); PWR_FAIL_N
falling disarms under-voltage, flushes and writes the counter tree's nodes back, rising asks for a cold reset of cause 6 (R203, R268, R307, R391); main power lost
leaves the battery domain, OTP and MRAM (R270). SERVICE_READY is announced when the last condition of R371 holds; at the boundary
it starts observation. PERST is link loss of its port in joined mode while the other port's is high, a warm reset of cause 8
else, and nothing when it rises (R38, R372). The model's own reading or choice where it rests on assumptions 4, 64, 81. -/
def Obligations.PowerAndService : Prop :=
  ∀ (s : State) (boot : BootEnv) (portB : Bool),
    let p := portOf portB
    let pin := if p = 0 then R.MGT_PIN_STS_PERST_A_N else R.MGT_PIN_STS_PERST_B_N
    let other := if p = 0 then R.MGT_PIN_STS_PERST_B_N else R.MGT_PIN_STS_PERST_A_N
    let low := ((s.set pin 0 0).set (linkField p) 0 0).set (if p = 0 then R.HIF_PORT_STS_RATE_A else R.HIF_PORT_STS_RATE_B) 0 0
    (s.glb.powered = false →
      Gives (exec (.powerUp boot) s) (fun t => t.glb.powered = true ∧ t.glb.pwrFail = false ∧ t.frameNo = 0 ∧ t.glb.boot = boot ∧
        t.get R.GLB_STS_STAGE = 0 ∧ t.get R.GLB_RST_STS_CAUSE = 1 ∧ t.trv = { nextId := s.trv.nextId } ∧ t.sessions = [] ∧ t.ks.datum = s.ks.datum ∧ t.otp = s.otp ∧
        t.lc.copies = s.lc.copies) ∧
      exec .mainPowerLoss s = .next s.wires ∧ exec .pwrFail s = .next s.wires ∧ exec .pwrFailRise s = .next s.wires ∧
      (∀ level, exec (.perst portB level) s = .next s.wires)) ∧
    (s.glb.powered = true →
      exec (.powerUp boot) s = .next s.wires ∧
      Gives (exec .mainPowerLoss s) (fun t => t.glb.powered = false ∧ t.trv = { nextId := s.trv.nextId } ∧ t.sessions = [] ∧ t.fb.pending = [] ∧ t.fb.buffer = [] ∧
        t.fb.audit = s.fb.audit ∧ t.ks.datum = s.ks.datum ∧ t.otp = s.otp ∧ t.upd.flash = s.upd.flash ∧ t.tmp.uvArmed = false) ∧
      (s.glb.pwrFail = false →
        (let t := (({ s with
          glb := { s.glb with pwrFail := true }
          tmp := { s.tmp with uvArmed := false } } : State).set R.MGT_PIN_STS_PWR_FAIL_N 0 0).flush 1
         exec .pwrFail s = .next ({ t with ks := { t.ks with nodesAt := t.frameNo, nodesStale := [] } }).wires) ∧
        exec .pwrFailRise s = .next s.wires) ∧
      (s.glb.pwrFail = true → exec .pwrFail s = .next s.wires ∧
        (s.glb.rst = none → Gives (exec .pwrFailRise s) (fun t => t.glb.pwrFail = false ∧ t.glb.rst = some ⟨false, 6, false⟩ ∧
          t.get R.MGT_PIN_STS_PWR_FAIL_N = 1 ∧ t.trv = s.trv ∧ t.ks = s.ks))) ∧
      exec (.perst portB true) s = .next (s.set pin 0 1).wires ∧
      (s.on pin = true → s.portInReset p = false → s.glb.rst = none →
        (s.get R.HIF_PORT_CTL_MODE = 2 → s.on other = true → exec (.perst portB false) s = .next (low.linkLoss p 8).wires) ∧
        (s.get R.HIF_PORT_CTL_MODE ≠ 2 ∨ s.on other = false →
          exec (.perst portB false) s = .next ({ low with glb := { s.glb with rst := some ⟨true, 8, false⟩ } }).wires))) ∧
    (s.readyNow = true → s.on R.GLB_STS_SERVICE_READY = false →
      s.serviceReady = (((s.set R.TRV_STS_READY 0 1).set R.GLB_STS_SERVICE_READY 0 1).brownHold).bootRecord ∧
      (exec .serviceReady s = .next (s.mark .serviceReady true).wires)) ∧
    (s.readyNow = false ∨ s.on R.GLB_STS_SERVICE_READY = true → s.serviceReady = s ∧ exec .serviceReady s = .next s.wires)

/-! ## The Net (R347 to R368) -/

/-- NET_CMD with BUSY clear (R348, R358, R366, R368): a command of a Security Officer of the device (a link key change
needs none) that passes its checks waits with BUSY set and error 0, CREATE asking for its draw of 64 bytes; else the lowest code
that applies answers, and a command no session covers is recorded. With BUSY set a command is dropped. Once the commands of an ACCEPT
have completed, the first failure of its admit record ends it with its code and keeps nothing; a record without one is kept, with a
draw of 16 bytes for BOOT (R358). The model's own reading or choice where it rests on assumptions 2, 36, 76. -/
def Obligations.NetCommands : Prop :=
  ∀ (s : State) (auto : Bool) (member slice port : Nat) (records : Option (Bytes × Bytes)), s.writable 0x130008 = true →
    let waits (c : NetCmd) : State :=
      (({ s with net := { s.net with cmd := some c, jobs := none, drawn := [] } }).set R.NET_CMD_STS_BUSY 0 1).set R.NET_CMD_STS_ERR 0 0
    let fails (e : Nat) : State := (s.set R.NET_CMD_STS_BUSY 0 0).set R.NET_CMD_STS_ERR 0 e
    let covered : List Instr := [.netCreate, .netRequest, .netAdmit auto member records, .netAccept records, .netLeave,
      .netExpel member, .netBench member, .moveHome member slice]
    let mayJoin : Prop := s.get R.LC_STATE_CODE = 3 ∧ s.on R.KS_STS_DATUM = true ∧ s.on R.NET_STS_MEMBER = false
    let bench : Prop := s.on R.NET_STS_BENCH = true
    (s.on R.NET_CMD_STS_BUSY = true →
      exec (.portRekey port) s = .next s.wires ∧ ∀ c ∈ covered, exec c s = .next s.wires) ∧
    (s.on R.NET_CMD_STS_BUSY = false →
      (port < 4 → s.get R.NET_PORT_STS_STATE port = 3 → exec (.portRekey port) s = .next (waits { op := 9, arg := port }).wires) ∧
      (port < 1024 → 4 ≤ port ∨ s.get R.NET_PORT_STS_STATE port ≠ 3 → exec (.portRekey port) s = .next (fails 3).wires) ∧
      (s.holds devSession roleSO = false → ∀ c ∈ covered, exec c s = .next ((fails 2).writeDropped 0x130008).wires) ∧
      (s.holds devSession roleSO = true →
        (mayJoin →
          exec .netCreate s =
            .next (({ waits { op := 1 } with rng := { s.rng with waiting := s.rng.waiting ++ [(64, AdminOp.netCreate)] } }).set
              R.RNG_POOL_STS_WAITING 0 (s.rng.waiting.length + 1)).wires ∧
          exec .netRequest s = .next (waits { op := 2 }).wires) ∧
        (¬mayJoin → exec .netCreate s = .next (fails 3).wires ∧ exec .netRequest s = .next (fails 3).wires) ∧
        (s.on R.NET_STS_MEMBER = true →
          (bench → exec (.netAdmit auto member records) s =
            .next (waits { op := 3, member := member % 4096, auto := auto, records := records }).wires) ∧
          (¬bench → exec (.netAdmit auto member records) s = .next (fails 7).wires) ∧
          (¬bench → s.homedAt (s.get R.NET_STS_ID) = [] → exec .netLeave s = .next (waits { op := 5 }).wires) ∧
          (bench ∨ s.homedAt (s.get R.NET_STS_ID) ≠ [] → exec .netLeave s = .next (fails 7).wires) ∧
          (s.get R.NET_MEMBER_STATE (member % 4096) = 1 →
            (bench → exec (.netExpel member) s = .next (waits { op := 6, member := member % 4096 }).wires ∧
              exec (.netBench member) s = .next (waits { op := 7, member := member % 4096 }).wires) ∧
            (¬bench → exec (.netExpel member) s = .next (fails 7).wires ∧ exec (.netBench member) s = .next (fails 7).wires)) ∧
          (s.get R.NET_MEMBER_STATE (member % 4096) ≠ 1 →
            exec (.netExpel member) s = .next (fails 5).wires ∧ exec (.netBench member) s = .next (fails 5).wires) ∧
          (s.isHome (slice % 1024) = true → exec (.moveHome member slice) s =
            .next (waits { op := 8, member := member % 4096, arg := slice % 1024 }).wires) ∧
          (s.isHome (slice % 1024) = false → exec (.moveHome member slice) s = .next (fails 8).wires)) ∧
        (s.on R.NET_STS_MEMBER = false →
          (∀ c ∈ [Instr.netAdmit auto member records, .netLeave, .netExpel member, .netBench member, .moveHome member slice],
            exec c s = .next (fails 3).wires) ∧
          (s.requested = true → exec (.netAccept records) s = .next (waits { op := 4, records := records }).wires)) ∧
        (s.on R.NET_STS_MEMBER = true ∨ s.requested = false → exec (.netAccept records) s = .next (fails 3).wires))) ∧
    (∀ e nrk, s.acceptCheck records = (e, nrk) →
      let c : NetCmd := { op := 4, records := records }
      let b := fitTo 16384 ((records.map Prod.fst).getD [])
      let joins : State := { s with
        net := { s.net with joining := some (fieldLE b 4464 2 % 4096, cut b 4480 16, nrk, devOf (cut b 8 16)) }
        rng := { s.rng with waiting := s.rng.waiting ++ [(16, AdminOp.netJoin)] } }
      (e ≠ 0 → s.joinFinish c =
        (({ s with net := { s.net with cmd := none, jobs := none, drawn := [] } }).set R.NET_CMD_STS_BUSY 0 0).set R.NET_CMD_STS_ERR 0 e) ∧
      (e = 0 → s.joinFinish c = joins.set R.RNG_POOL_STS_WAITING 0 (s.rng.waiting.length + 1)))

/-- The links (R349 to R352). Training ends in UNKEYED with a fresh nonce and a LINK_HELLO; a live or training port goes
DOWN with its cause and without keys, and retrains after 1,024 frames. A flit that was sent passes under its key and number, and gives
its payload; one whose DCODE or TAG fails is counted and NAKed, the fourth failure of one flit and the eighth failed TAG in 4,096
frames bring the port down; one with another number is NAKed with the one that is expected, once; the replay buffer resends,
an ACK and a NAK move it, and an ACK is sent of what was received. Ports that are not live, or whose block does not run (R337, R338), do
none of it. The model's own reading or choice where it rests on assumptions 2, 30, 88. -/
def Obligations.NetLinks : Prop :=
  (∀ (key : Option (Nat × Bytes × Bytes)) (q : Nat) (payload : Bytes),
    flitFault key q (flitBytes key q payload) = none ∧ flitMix key q ((flitBytes key q payload).take 28) = fitTo 28 payload) ∧
  ∀ (s : State) (p q cause : Nat) (swap rxInv txInv : Bool) (flit : Bytes),
    let st := s.get R.NET_PORT_STS_STATE p
    let x := s.port p
    let runs : Prop := s.netRuns = true
    let live : Prop := p < 4 ∧ runs ∧ (st = 2 ∨ st = 3)
    let quiet := s.idleIn p
    let y := quiet.port p
    let fault := flitFault (y.rxKey y.rxSeq) y.rxSeq flit
    let me := if s.on R.NET_STS_MEMBER then s.get R.NET_STS_ID else 0xFFFF
    (p < 4 → st = 1 → runs → Gives (exec (.linkUp p swap rxInv txInv) s) (fun t =>
      t.get R.NET_PORT_STS_STATE p = 2 ∧ t.get R.NET_PORT_STS_KEYID p = 0 ∧ t.get R.NET_PORT_STS_SWAP p = b2n swap ∧
      t.get R.NET_PORT_STS_RX_INV p = b2n rxInv ∧ t.get R.NET_PORT_STS_TX_INV p = b2n txInv ∧ (t.port p).key = none ∧
      (t.port p).nonce = freeBytes 16 s.free ∧ (∀ o, o ≠ p → t.port o = s.port o) ∧
      t.net.sent = s.net.sent ++ [.hello p me (freeBytes 16 s.free) (fitTo 8 s.net.netId)] ∧
      ∃ k, t.net.wire = s.net.wire ++ [(p, k, flitBytes none k ((NetTx.hello p me (freeBytes 16 s.free) (fitTo 8 s.net.netId)).payload 0))])) ∧
    (4 ≤ p ∨ st ≠ 1 ∨ ¬runs → exec (.linkUp p swap rxInv txInv) s = .next s.wires) ∧
    (p < 4 → runs → st = 1 ∨ st = 2 ∨ st = 3 → Gives (exec (.linkDown p cause) s) (fun t =>
      t.get R.NET_PORT_STS_STATE p = 4 ∧ t.get R.NET_PORT_STS_CAUSE p = cause % 4 ∧ t.get R.NET_PORT_STS_KEYID p = 0 ∧
      (t.port p).key = none ∧ (t.port p).next = none ∧ (t.port p).peer = none ∧ (t.port p).downAt = s.frameNo ∧
      (∀ o, o ≠ p → (t.port o).key = (s.port o).key ∧ (t.port o).next = (s.port o).next ∧ (t.port o).rxSeq = (s.port o).rxSeq ∧
        (t.port o).routes = (s.port o).routes))) ∧
    (4 ≤ p ∨ ¬runs ∨ (st ≠ 1 ∧ st ≠ 2 ∧ st ≠ 3) → exec (.linkDown p cause) s = .next s.wires) ∧
    (st = 4 → runs → s.on R.NET_PORT_CTL_EN p = true → x.downAt + 1024 ≤ s.frameNo →
      exec (.linkRetrain p) s = .next (s.set R.NET_PORT_STS_STATE p 1).wires) ∧
    (st ≠ 4 ∨ ¬runs ∨ s.on R.NET_PORT_CTL_EN p = false ∨ s.frameNo < x.downAt + 1024 → exec (.linkRetrain p) s = .next s.wires) ∧
    (live →
      (∀ tag, fault = some tag → x.flitFails < 3 →
        (tag = false ∨ (x.tagFails.filter (fun f => decide (s.frameNo < f + 4096))).length < 7) →
        Gives (exec (.flitError p ⟨flit, true⟩) s) (fun t =>
          (t.port p).flitFails = x.flitFails + 1 ∧ (t.port p).await = true ∧ t.get R.NET_PORT_STS_STATE p = st ∧
          t.net.sent = s.net.sent ++ [.nak p y.rxSeq] ∧
          t.get R.NET_PORT_CNT_REPLAY p = (s.get R.NET_PORT_CNT_REPLAY p + 1) % 2 ^ R.NET_PORT_CNT_REPLAY.width ∧
          t.get R.NET_PORT_CNT_TAG_FAIL p = (s.get R.NET_PORT_CNT_TAG_FAIL p + b2n tag) % 2 ^ R.NET_PORT_CNT_TAG_FAIL.width)) ∧
      (∀ tag, fault = some tag → x.flitFails = 3 → Gives (exec (.flitError p ⟨flit, true⟩) s) (fun t =>
        t.get R.NET_PORT_STS_STATE p = 4 ∧ t.get R.NET_PORT_STS_CAUSE p = 0)) ∧
      (fault = some true → x.flitFails < 3 → 7 ≤ (x.tagFails.filter (fun f => decide (s.frameNo < f + 4096))).length →
        Gives (exec (.flitError p ⟨flit, true⟩) s) (fun t => t.get R.NET_PORT_STS_STATE p = 4 ∧ t.get R.NET_PORT_STS_CAUSE p = 1)) ∧
      (fault = none → exec (.flitError p ⟨flit, true⟩) s =
        .next ((quiet.nextFlits p 1).takeFlit p y.await (flitMix (y.rxKey y.rxSeq) y.rxSeq (flit.take 28))).wires) ∧
      (x.await = true → exec (.flitError p ⟨flit, false⟩) s = .next s.wires) ∧
      (x.await = false → Gives (exec (.flitError p ⟨flit, false⟩) s) (fun t =>
        (t.port p).await = true ∧ (t.port p).rxSeq = y.rxSeq ∧ t.get R.NET_PORT_STS_STATE p = st ∧
        t.net.sent = s.net.sent ++ [.nak p y.rxSeq] ∧
        t.get R.NET_PORT_CNT_REPLAY p = (s.get R.NET_PORT_CNT_REPLAY p + 1) % 2 ^ R.NET_PORT_CNT_REPLAY.width)) ∧
      Gives (exec (.replayTimeout p) s) (fun t =>
        t.net.sent = s.net.sent ++ [.resend p x.acked] ∧ (t.port p).txSeq = max x.txSeq (x.acked + 2048) ∧ (t.port p).acked = x.acked ∧
        ∃ fs, t.net.wire = s.net.wire ++ fs ∧ fs.map (fun f => (f.1, f.2.1)) =
          (List.range (max x.txSeq (x.acked + 2048) - x.acked)).map (fun i => (p, x.acked + i))) ∧
      Gives (exec (.netAck p q) s) (fun t => (t.port p).acked = max x.acked (q + 1) ∧
        (x.next = none ∨ st = 3 → (t.port p).txSeq = max x.txSeq (q + 1) ∧ ∀ o, o ≠ p → t.port o = s.port o)) ∧
      (x.acked ≤ q → Gives (exec (.netNak p q) s) (fun t => t.net.sent = s.net.sent ++ [.resend p q] ∧
        (t.port p).txSeq = max x.txSeq (q + 1) ∧ (t.port p).acked = x.acked)) ∧
      (q < x.acked → exec (.netNak p q) s = .next (s.gotFlit p).wires) ∧
      (x.rxSeq ≠ 0 → Gives (exec (.ackInterval p) s) (fun t => t.net.sent = s.net.sent ++ [.ack p (x.rxSeq - 1)] ∧
        (t.port p).rxSeq = x.rxSeq)) ∧
      (x.rxSeq = 0 → exec (.ackInterval p) s = .next s.wires)) ∧
    (¬live → ∀ c ∈ [Instr.flitError p ⟨flit, swap⟩, .replayTimeout p, .netAck p q, .netNak p q, .ackInterval p], exec c s = .next s.wires)

/-- The keys of the links and the routes (R353, R355). A LINK_HELLO is kept with its member, and one of another member
of the Net that is not retired starts key ID 1 on an unkeyed port that speaks; a KEY_SWITCH to the key this end
changes to marks the partner's direction, one to a key this end has not begun is answered with its own, and once both directions have left the old key the new one is in force; 2^40
flits of either direction under one key start the next; a ROUTE adds its hop count plus 1, up to 15. The model's own reading or choice
where it rests on assumptions 2, 30. -/
def Obligations.LinkKeys : Prop :=
  ∀ (s : State) (p k q m hops : Nat) (h : HelloFlit),
    let st := s.get R.NET_PORT_STS_STATE p
    let x := s.port p
    let live : Prop := p < 4 ∧ s.netRuns = true ∧ (st = 2 ∨ st = 3)
    let hello : HelloFlit := { h with nonce := fitTo 16 h.nonce, netId := fitTo 8 h.netId }
    let keys (k : Nat) : Nat × Bytes × Bytes :=
      (k, (s.linkKeys p k (x.allocs + 1) hello).1, (s.linkKeys p k (x.allocs + 1) hello).2)
    (live →
      Gives (exec (.linkHello p h) s) (fun t => (t.port p).peer = some hello ∧ (t.port p).rxSwitch = x.rxSwitch) ∧
      (st = 2 → s.on R.NET_STS_MEMBER = true → s.netSilent = false → x.next = none → h.member ≤ 0xFFF → h.member ≠ s.get R.NET_STS_ID →
        fitTo 8 h.netId = fitTo 8 s.net.netId → s.get R.NET_MEMBER_STATE h.member ≠ 2 → Gives (exec (.linkHello p h) s) (fun t =>
          (t.port p).next = some (keys 1) ∧ ∃ q, (t.port p).txSwitch = some q ∧ t.net.sent = s.net.sent ++ [.keySwitch p 1 q])) ∧
      (st = 3 ∨ s.netSilent = true ∨ x.next ≠ none ∨ h.member = s.get R.NET_STS_ID → Gives (exec (.linkHello p h) s) (fun t =>
        (t.port p).next = x.next ∧ t.net.sent = s.net.sent)) ∧
      (∀ a kx kt, x.next = some (k, kx, kt) → x.rxSwitch = none → x.txSwitch = some a →
        (x.acked < a → Gives (exec (.keySwitch p k q) s) (fun t => (t.port p).rxSwitch = some q ∧ (t.port p).key = x.key ∧
          (t.port p).next = x.next ∧ t.get R.NET_PORT_STS_STATE p = st)) ∧
        (a ≤ x.acked → k < 16 → Gives (exec (.keySwitch p k q) s) (fun t => (t.port p).key = some (k, kx, kt) ∧ (t.port p).next = none ∧
          t.get R.NET_PORT_STS_KEYID p = k ∧ t.get R.NET_PORT_STS_STATE p = 3 ∧
          (st = 3 → (t.port p).sent = 0 ∧ (t.port p).rcvd = 0)))) ∧
      (∀ n kx kt, x.next = some (n, kx, kt) → n ≠ k → Gives (exec (.keySwitch p k q) s) (fun t =>
        (t.port p).key = x.key ∧ (t.port p).next = x.next ∧ (t.port p).rxSwitch = x.rxSwitch)) ∧
      (x.next = none → x.peer = some h → st = 3 → k = x.keyId % 15 + 1 → Gives (exec (.keySwitch p k q) s) (fun t =>
        ∃ n, t.net.sent = s.net.sent ++ [.keySwitch p k n])) ∧
      (x.next = none → x.peer = none → Gives (exec (.keySwitch p k q) s) (fun t =>
        t.net.sent = s.net.sent ∧ (t.port p).key = x.key ∧ (t.port p).next = none))) ∧
    (¬live → exec (.linkHello p h) s = .next s.wires ∧ exec (.keySwitch p k q) s = .next s.wires) ∧
    (x.peer = some h → st = 3 → s.netRuns = true → x.next = none → 2 ^ 40 ≤ x.sent ∨ 2 ^ 40 ≤ x.rcvd →
      exec (.linkKeyChangeAuto p) s = .next (s.switchTo p (x.keyId % 15 + 1) h).wires) ∧
    (x.peer = none ∨ st ≠ 3 ∨ s.netRuns = false ∨ x.next ≠ none ∨ (x.sent < 2 ^ 40 ∧ x.rcvd < 2 ^ 40) → exec (.linkKeyChangeAuto p) s = .next s.wires) ∧
    (live → st = 3 →
      (hops < 15 → m ≤ 0xFFF → Gives (exec (.netRoute p m hops) s) (fun t =>
        Tab.get 0 (t.port p).routes m = hops + 1 ∧ ∀ n, n ≠ m → Tab.get 0 (t.port p).routes n = Tab.get 0 x.routes n)) ∧
      (15 ≤ hops ∨ 0xFFF < m → exec (.netRoute p m hops) s = .next (s.gotFlit p).wires)) ∧
    (live → st = 2 → exec (.netRoute p m hops) s = .next (s.gotFlit p).wires) ∧
    (¬live → exec (.netRoute p m hops) s = .next s.wires)

/-- Messages over a direct port (R354, R356, R359 to R366). A message of a member whose tag is right and whose counter
is new takes its effect when it is for this member, and is carried on when it is for another; any other is dropped and
reported with its port and source. On a port that is not up nothing arrives. The model's own reading or choice where
it rests on assumptions 31, 32, 34, 35, 36. -/
def Obligations.NetMessages : Prop :=
  ∀ (s : State) (h : NetHeader) (p bench frame elapsed slice rseq seq : Nat) (rows : List MemberRow) (record : DomainRec) (digest : Bytes)
    (slices : List Nat), h.port = some p →
    let received : List (Instr × NetBody × (State → State)) :=
      [(.netTable h bench rows, .table bench rows, fun t => t.gotTable bench rows),
       (.netTime h frame elapsed, .time frame, fun t => if t.on R.NET_STS_TUNNELLED then t.netNumber (frame + elapsed) else t),
       (.netDomain h record, .domain record, fun t => t.gotDomain h.src record),
       (.netDomainAck h slice rseq, .domainAck slice rseq, fun t => t.gotAck h.src slice rseq),
       (.netLease h frame digest, .lease frame digest, fun t => t.gotLease h.src frame digest),
       (.netSync h slices, .sync slices, fun t => t.gotSync h.src slices),
       (.netWitness h seq digest, .witness seq digest, fun t => t.record 0x0804 2 1024 (3 + h.src * 256) seq
         (fieldLE (fitTo 16 digest) 0 8) (fieldLE (fitTo 16 digest) 8 8)),
       (.joinDone h, .joinDone, fun t => t),
       (.leaveMessage h, .leave, fun t => if t.on R.NET_STS_BENCH then
         (t.putMember { member := h.src, state := 2, dev := t.get R.NET_MEMBER_DEV h.src }).paths else t)]
    let got (b : NetBody) : State := (s.idleIn p).nextFlits p (messageFlits b)
    let taken (b : NetBody) : State := { got b with net := (got b).net.accept h }
    let good (b : NetBody) : Prop := s.netSilent = false ∧ s.on R.NET_STS_MEMBER = true ∧ s.get R.NET_MEMBER_STATE h.src = 1 ∧
      s.net.counterOk h = true ∧ h.tag = (messageSeal s.net.nrk h.src h.dst h.bcast h.counter h.boot b).2
    (p < 4 → s.netRuns = true → s.get R.NET_PORT_STS_STATE p = 3 → ∀ r ∈ received,
      (good r.2.1 → h.bcast = false →
        (h.dst = s.get R.NET_STS_ID → exec r.1 s = .next (r.2.2 (taken r.2.1)).wires) ∧
        (h.dst ≠ s.get R.NET_STS_ID →
          exec r.1 s = .next ((taken r.2.1).carry h.src h.dst false h.counter h.boot r.2.1 none).wires)) ∧
      (good r.2.1 → h.bcast = true →
        exec r.1 s = .next (r.2.2 ((taken r.2.1).carry h.src h.dst true h.counter h.boot r.2.1 (some p))).wires) ∧
      (¬good r.2.1 → exec r.1 s = .next ((got r.2.1).netErr R.NET_ERR_STS_MSG_DROP p h.src 0).wires)) ∧
    (4 ≤ p ∨ s.netRuns = false ∨ s.get R.NET_PORT_STS_STATE p ≠ 3 → ∀ r ∈ received, exec r.1 s = .next s.wires)

/-- What falls due in the Net (R358, R360, R361, R363, R364). An alignment step is announced, and at the boundary raises
FRAME_NO and the frames of commands and sessions alike, and the device is aligned; a mark of the chosen port asks for it while ALIGNING. A lease
not renewed lapses. Records unacknowledged for 1,024 frames are sent again and stamped with the frame; a gap of 4,096
frames asks for SYNC and starts anew; a join request lapses after 65,536 frames. What is not due changes nothing; while the block does
not run nothing is sent, and a lease that lapses refuses without a report (R337, R338). The
model's own reading or choice where it rests on assumptions 33, 34, 81. -/
def Obligations.NetUpkeep : Prop :=
  ∀ (s : State) (n p : Nat) (m : MarkFlit),
    let live : Prop := p < 4 ∧ s.netRuns = true ∧ (s.get R.NET_PORT_STS_STATE p = 2 ∨ s.get R.NET_PORT_STS_STATE p = 3)
    (s.net.stepTo = none → exec .frameStep s = .next s.wires) ∧
    (∀ k, s.net.stepTo = some k → s.frameNo < k →
      (exec .frameStep s = .next (s.mark .frameStep true).wires) ∧
      let t := s.stepFrames
      let d := k - (s.frameNo + 1)
      t.frameNo + 1 = k ∧ t.net.stepTo = none ∧ t.net.aligning = false ∧ t.get R.NET_STS_ALIGNED = 1 ∧
      t.sessions = s.sessions.map (fun e => (e.1, { e.2 with start := e.2.start + d })) ∧
      t.trv.cmds.map (fun c => (c.id, c.st, c.due)) = s.trv.cmds.map (fun c => (c.id, c.st, if c.isHeld then c.due else c.due + d)) ∧
      t.trv.calEnd = s.trv.calEnd + d ∧ t.ks.datum = s.ks.datum ∧ t.otp = s.otp) ∧
    (live → s.get R.NET_PORT_STS_STATE p = 3 → s.netSilent = false →
      (m.first = false → exec (.netMark p m) s = .next (s.gotFlit p).wires) ∧
      (m.first = true → s.net.aligning = true → Gives (exec (.netMark p m) s) (fun t =>
        t.net.stepTo = some (m.frame + m.elapsed) ∧ t.net.markless = 0 ∧ (t.port p).markHops = some (m.hops % 256) ∧
        t.frameNo = s.frameNo)) ∧
      (m.first = true → s.net.aligning = false → s.on R.NET_STS_ALIGNED = false → Gives (exec (.netMark p m) s) (fun t =>
        t.net.stepTo = s.net.stepTo ∧ t.net.markless = 0 ∧ (t.port p).markHops = some (m.hops % 256)))) ∧
    (live → s.get R.NET_PORT_STS_STATE p = 2 ∨ s.netSilent = true → exec (.netMark p m) s = .next (s.gotFlit p).wires) ∧
    (¬live → exec (.netMark p m) s = .next s.wires) ∧
    (s.on R.NET_STS_MEMBER = true → s.on R.NET_SLICE_REPL n = true → s.get R.NET_SLICE_HOME n ≠ s.get R.NET_STS_ID →
      s.on R.NET_SLICE_LEASE_OK n = true →
      ((s.repl n).lease ≤ s.frameNo → s.netRuns = true → exec (.leaseLapse n) s =
        .next (((s.set R.NET_SLICE_LEASE_OK n 0).setLapsed n true).netErr R.NET_ERR_STS_LEASE 0 (s.get R.NET_SLICE_HOME n) n).wires) ∧
      ((s.repl n).lease ≤ s.frameNo → s.netRuns = false → exec (.leaseLapse n) s = .next (s.setLapsed n true).wires) ∧
      (s.frameNo < (s.repl n).lease → exec (.leaseLapse n) s = .next s.wires)) ∧
    (s.on R.NET_STS_MEMBER = false ∨ s.on R.NET_SLICE_REPL n = false ∨ s.on R.NET_SLICE_LEASE_OK n = false →
      exec (.leaseLapse n) s = .next s.wires) ∧
    (s.netRuns = true → Gives (exec .domainResend s) (fun t => ∀ i, (t.repl i).sent = (s.repl i).sent.map (fun e =>
      if e.frame + 1024 ≤ s.frameNo then { e with frame := s.frameNo } else e))) ∧
    (s.netRuns = false ∨ (∀ i, ∀ e ∈ (s.repl i).sent, s.frameNo < e.frame + 1024) → exec .domainResend s = .next s.wires) ∧
    (s.netRuns = true → (s.repl n).waiting.any (fun e => decide (e.2.1 + 4096 ≤ s.frameNo)) = true → Gives (exec (.gapTimeout n) s) (fun t =>
      (t.repl n).waiting = (s.repl n).waiting.map (fun e => (e.1, s.frameNo, e.2.2)) ∧ ∀ i, i ≠ n → t.repl i = s.repl i)) ∧
    (s.netRuns = false ∨ (s.repl n).waiting.any (fun e => decide (e.2.1 + 4096 ≤ s.frameNo)) = false →
      exec (.gapTimeout n) s = .next s.wires) ∧
    (∀ nonce f sc dk, s.net.request = some (nonce, f, sc, dk) →
      (f + 65536 ≤ s.frameNo → exec .joinRequestExpiry s = .next ({ s with net := { s.net with request := none } }).wires) ∧
      (s.frameNo < f + 65536 → exec .joinRequestExpiry s = .next s.wires)) ∧
    (s.net.request = none → exec .joinRequestExpiry s = .next s.wires)

/-- Each of these commands completes with its own effect, under conditions on the state alone. FRAME_STEP is taken for the boundary to
come, at which FRAME_NO is the number the Net gave and ALIGNED is set; a MARK in first transmission gives a member in ALIGNING that
number (R360, R361); a lease that has run out lapses (R364); a record unacknowledged for 1,024 frames is sent again, and a gap of
4,096 frames starts anew (R363); a join request of 65,536 frames lapses (R358). GLB_RST_CMD asks for its reset, a warm one of any
sender, a cold one of a Security Officer, and once every admitted command has its status word the next boundary performs the cold
one (R374). The model's own reading or choice where it rests on assumptions 34, 81. -/
def Obligations.UpkeepAndResetsComplete : Prop :=
  ∀ (s : State) (drain : Bool),
    (∀ k, s.net.stepTo = some k → s.frameNo < k → exec .frameStep s = .next (s.mark .frameStep true).wires ∧
      s.stepFrames.frameNo + 1 = k ∧ s.stepFrames.on R.NET_STS_ALIGNED = true) ∧
    (∀ p m, p < 4 → s.netRuns = true → s.get R.NET_PORT_STS_STATE p = 3 → s.netSilent = false → m.first = true →
      s.net.aligning = true →
      ∃ t, exec (.netMark p m) s = .next t ∧ t.net.stepTo = some (m.frame + m.elapsed) ∧ t.net.markless = 0) ∧
    (∀ n, s.on R.NET_STS_MEMBER = true → s.on R.NET_SLICE_REPL n = true → s.get R.NET_SLICE_HOME n ≠ s.get R.NET_STS_ID →
      s.on R.NET_SLICE_LEASE_OK n = true → (s.repl n).lease ≤ s.frameNo →
      ∃ t, exec (.leaseLapse n) s = .next t ∧ n ∈ t.net.lapsed) ∧
    (s.netRuns = true → ∃ t, exec .domainResend s = .next t ∧
      ∀ n, ∀ e ∈ (s.repl n).sent, e.frame + 1024 ≤ s.frameNo → { e with frame := s.frameNo } ∈ (t.repl n).sent) ∧
    (∀ n f src record, s.netRuns = true → (record, f, src) ∈ (s.repl n).waiting → f + 4096 ≤ s.frameNo →
      ∃ t, exec (.gapTimeout n) s = .next t ∧ (record, s.frameNo, src) ∈ (t.repl n).waiting) ∧
    (∀ nonce f sc dk, s.net.request = some (nonce, f, sc, dk) → f + 65536 ≤ s.frameNo →
      exec .joinRequestExpiry s = .next ({ s with net := { s.net with request := none } }).wires) ∧
    (s.writable 0x000030 = true → s.glb.rst = none → ∃ t, exec (.rstWarm drain) s = .next t ∧
      t.glb.rst = some ⟨true, 0xB, drain⟩ ∧ (drain = true → t.on R.TRV_CTL_OBS_STOP = true)) ∧
    (s.glb.powered = true → 1 ≤ s.stage → s.get R.LC_STATE_CODE ≠ 5 → s.holds devSession roleSO = true → s.glb.rst = none →
      ∃ t, exec (.rstCold drain) s = .next t ∧
        t.glb.rst = some ⟨false, 2, drain⟩ ∧ (drain = true → t.on R.TRV_CTL_OBS_STOP = true)) ∧
    (∀ cause, s.glb.rst = some ⟨false, cause, true⟩ → s.trv.cmds.all (·.isHeld) = true →
      exec .resetDrainEnd s = .next (s.mark .resetDrain true).wires ∧ s.resetDue = s.coldReset cause s.bootAgain)
end

