-- ==== Sys2Proof/Laws/Tab.lean ====
section
/-! SUPPORT. The laws of sparse tables: reading after writing, and the canonical form kept by every operation. -/

namespace Sys2Proof.Machine

variable {α : Type}

theorem Tab.get_del_self (d : α) (t : Tab α) (k : Nat) : Tab.get d (Tab.del t k) k = d := by
  induction t with
  | nil => rfl
  | cons e t ih => obtain ⟨j, v⟩ := e; by_cases h : j = k <;> simp [Tab.del, Tab.get, h, ih]

theorem Tab.get_del_other (d : α) (t : Tab α) {k j : Nat} (h : k ≠ j) : Tab.get d (Tab.del t k) j = Tab.get d t j := by
  induction t with
  | nil => rfl
  | cons e t ih =>
    obtain ⟨i, v⟩ := e
    by_cases h1 : i = k
    · subst h1; simp [Tab.del, Tab.get, h, ih]
    · simp only [Tab.del, h1, if_false, Tab.get, ih]

theorem Tab.get_ins_self (d : α) (t : Tab α) (k : Nat) (v : α) : Tab.get d (Tab.ins t k v) k = v := by
  induction t with
  | nil => simp [Tab.ins, Tab.get]
  | cons e t ih =>
    obtain ⟨i, w⟩ := e
    by_cases h1 : k < i
    · simp [Tab.ins, Tab.get, h1]
    · by_cases h2 : k = i
      · simp [Tab.ins, Tab.get, h2]
      · have h3 : i ≠ k := fun h => h2 h.symm
        simp [Tab.ins, Tab.get, h1, h2, h3, ih]

theorem Tab.get_ins_other (d : α) (t : Tab α) {k j : Nat} (v : α) (h : k ≠ j) :
    Tab.get d (Tab.ins t k v) j = Tab.get d t j := by
  induction t with
  | nil => simp [Tab.ins, Tab.get, h]
  | cons e t ih =>
    obtain ⟨i, w⟩ := e
    by_cases h1 : k < i
    · simp [Tab.ins, Tab.get, h1, h]
    · by_cases h2 : k = i
      · subst h2; simp [Tab.ins, Tab.get, h]
      · simp only [Tab.ins, h1, h2, if_false, Tab.get, ih]

/-- A key written reads as what was written. -/
@[simp] theorem Tab.get_put_self [DecidableEq α] (d : α) (t : Tab α) (k : Nat) (v : α) :
    Tab.get d (Tab.put d t k v) k = v := by
  by_cases h : v = d
  · simp [Tab.put, h, Tab.get_del_self]
  · simp [Tab.put, h, Tab.get_ins_self]

/-- A write leaves every other key alone. -/
theorem Tab.get_put_other [DecidableEq α] (d : α) (t : Tab α) {k j : Nat} (v : α) (h : k ≠ j) :
    Tab.get d (Tab.put d t k v) j = Tab.get d t j := by
  by_cases hv : v = d
  · simp [Tab.put, hv, Tab.get_del_other d t h]
  · simp [Tab.put, hv, Tab.get_ins_other d t v h]

/-- Reading after a write, at any key. -/
theorem Tab.get_put [DecidableEq α] (d : α) (t : Tab α) (k j : Nat) (v : α) :
    Tab.get d (Tab.put d t k v) j = if k = j then v else Tab.get d t j := by
  by_cases h : k = j
  · subst h; simp
  · simp [h, Tab.get_put_other d t v h]

theorem Tab.get_upd [DecidableEq α] (d : α) (t : Tab α) (k j : Nat) (f : α → α) :
    Tab.get d (Tab.upd d t k f) j = if k = j then f (Tab.get d t j) else Tab.get d t j := by
  by_cases h : k = j
  · subst h; simp [Tab.upd]
  · simp [Tab.upd, Tab.get_put, h]

theorem Tab.keysAbove_cons (k : Nat) (e : Nat × α) (t : Tab α) :
    Tab.keysAbove k (e :: t) = (decide (k < e.1) && Tab.keysAbove k t) := rfl

theorem Tab.keysAbove_del {k : Nat} {t : Tab α} (j : Nat) (h : Tab.keysAbove k t = true) :
    Tab.keysAbove k (Tab.del t j) = true := by
  induction t with
  | nil => rfl
  | cons e t ih =>
    obtain ⟨i, v⟩ := e
    simp only [Tab.keysAbove_cons, Bool.and_eq_true, decide_eq_true_eq] at h
    by_cases hj : i = j <;> simp [Tab.del, hj, Tab.keysAbove_cons, ih h.2]
    omega

theorem Tab.keysAbove_ins {k j : Nat} {t : Tab α} (v : α) (hk : k < j) (h : Tab.keysAbove k t = true) :
    Tab.keysAbove k (Tab.ins t j v) = true := by
  induction t with
  | nil => simp [Tab.ins, Tab.keysAbove, hk]
  | cons e t ih =>
    obtain ⟨i, w⟩ := e
    simp only [Tab.keysAbove_cons, Bool.and_eq_true, decide_eq_true_eq] at h
    by_cases h1 : j < i
    · simp [Tab.ins, h1, Tab.keysAbove_cons, hk, h]
    · by_cases h2 : j = i
      · simp [Tab.ins, h2, Tab.keysAbove_cons, h]
      · simp [Tab.ins, h1, h2, Tab.keysAbove_cons, h.1, ih h.2]

theorem Tab.wf_cons [DecidableEq α] (d : α) (e : Nat × α) (t : Tab α) :
    Tab.wf d (e :: t) = true ↔ e.2 ≠ d ∧ Tab.keysAbove e.1 t = true ∧ Tab.wf d t = true := by
  obtain ⟨k, v⟩ := e; simp [Tab.wf, and_assoc]

theorem Tab.keysAbove_le {k j : Nat} {t : Tab α} (hk : k ≤ j) (h : Tab.keysAbove j t = true) :
    Tab.keysAbove k t = true := by
  simp only [Tab.keysAbove, List.all_eq_true, decide_eq_true_eq] at *
  exact fun e he => Nat.lt_of_le_of_lt hk (h e he)

theorem Tab.wf_del [DecidableEq α] {d : α} {t : Tab α} (k : Nat) (h : Tab.wf d t = true) :
    Tab.wf d (Tab.del t k) = true := by
  induction t with
  | nil => rfl
  | cons e t ih =>
    obtain ⟨i, v⟩ := e
    rw [Tab.wf_cons] at h
    by_cases hj : i = k
    · simp [Tab.del, hj, ih h.2.2]
    · simp only [Tab.del, hj, if_false]
      exact (Tab.wf_cons ..).2 ⟨h.1, Tab.keysAbove_del k h.2.1, ih h.2.2⟩

theorem Tab.wf_ins [DecidableEq α] {d : α} {t : Tab α} {k : Nat} {v : α} (hv : v ≠ d) (h : Tab.wf d t = true) :
    Tab.wf d (Tab.ins t k v) = true := by
  induction t with
  | nil => simp [Tab.ins, Tab.wf, hv, Tab.keysAbove]
  | cons e t ih =>
    obtain ⟨i, w⟩ := e
    have h' := (Tab.wf_cons ..).1 h
    by_cases h1 : k < i
    · simp only [Tab.ins, h1, if_true]
      refine (Tab.wf_cons ..).2 ⟨hv, ?_, h⟩
      simp only [Tab.keysAbove_cons, Bool.and_eq_true, decide_eq_true_eq]
      exact ⟨h1, Tab.keysAbove_le (Nat.le_of_lt h1) h'.2.1⟩
    · by_cases h2 : k = i
      · subst h2; simp only [Tab.ins, h1, if_true, if_false]
        exact (Tab.wf_cons ..).2 ⟨hv, h'.2.1, h'.2.2⟩
      · simp only [Tab.ins, h1, h2, if_false]
        exact (Tab.wf_cons ..).2 ⟨h'.1, Tab.keysAbove_ins v (by omega) h'.2.1, ih h'.2.2⟩

/-- A write keeps the canonical form. -/
theorem Tab.wf_put [DecidableEq α] {d : α} {t : Tab α} (k : Nat) (v : α) (h : Tab.wf d t = true) :
    Tab.wf d (Tab.put d t k v) = true := by
  by_cases hv : v = d
  · simp [Tab.put, hv, Tab.wf_del k h]
  · simp [Tab.put, hv, Tab.wf_ins hv h]

/-- Dropping entries keeps the canonical form. -/
theorem Tab.wf_filter [DecidableEq α] {d : α} (p : Nat × α → Bool) {t : Tab α} (h : Tab.wf d t = true) :
    Tab.wf d (t.filter p) = true := by
  induction t with
  | nil => rfl
  | cons e t ih =>
    have h' := (Tab.wf_cons ..).1 h
    by_cases hp : p e = true
    · rw [List.filter_cons_of_pos hp]
      refine (Tab.wf_cons ..).2 ⟨h'.1, ?_, ih h'.2.2⟩
      have ha := h'.2.1
      simp only [Tab.keysAbove, List.all_eq_true, decide_eq_true_eq] at ha ⊢
      exact fun x hx => ha x (List.mem_filter.1 hx).1
    · rw [List.filter_cons_of_neg hp]; exact ih h'.2.2

end Sys2Proof.Machine
end

