-- ==== Sys2Proof/Laws/State.lean ====
section
/-! SUPPORT. The laws of the state's updates: which field each shared update changes, and what a register field
reads as after one is written. -/

namespace Sys2Proof.Machine

/-! ## set -/

@[simp] theorem State.set_pending (s : State) (f : Field) (i v : Nat) : (s.set f i v).pending = s.pending := (rfl)
@[simp] theorem State.set_frameNo (s : State) (f : Field) (i v : Nat) : (s.set f i v).frameNo = s.frameNo := (rfl)
@[simp] theorem State.set_free (s : State) (f : Field) (i v : Nat) : (s.set f i v).free = s.free := (rfl)
@[simp] theorem State.set_shadows (s : State) (f : Field) (i v : Nat) : (s.set f i v).shadows = s.shadows := (rfl)
@[simp] theorem State.set_cover (s : State) (f : Field) (i v : Nat) : (s.set f i v).cover = s.cover := (rfl)
@[simp] theorem State.set_glb (s : State) (f : Field) (i v : Nat) : (s.set f i v).glb = s.glb := (rfl)
@[simp] theorem State.set_hif (s : State) (f : Field) (i v : Nat) : (s.set f i v).hif = s.hif := (rfl)
@[simp] theorem State.set_trv (s : State) (f : Field) (i v : Nat) : (s.set f i v).trv = s.trv := (rfl)
@[simp] theorem State.set_tuStore (s : State) (f : Field) (i v : Nat) : (s.set f i v).tuStore = s.tuStore := (rfl)
@[simp] theorem State.set_pkStore (s : State) (f : Field) (i v : Nat) : (s.set f i v).pkStore = s.pkStore := (rfl)
@[simp] theorem State.set_luStore (s : State) (f : Field) (i v : Nat) : (s.set f i v).luStore = s.luStore := (rfl)
@[simp] theorem State.set_tiles (s : State) (f : Field) (i v : Nat) : (s.set f i v).tiles = s.tiles := (rfl)
@[simp] theorem State.set_ks (s : State) (f : Field) (i v : Nat) : (s.set f i v).ks = s.ks := (rfl)
@[simp] theorem State.set_fb (s : State) (f : Field) (i v : Nat) : (s.set f i v).fb = s.fb := (rfl)
@[simp] theorem State.set_rng (s : State) (f : Field) (i v : Nat) : (s.set f i v).rng = s.rng := (rfl)
@[simp] theorem State.set_otp (s : State) (f : Field) (i v : Nat) : (s.set f i v).otp = s.otp := (rfl)
@[simp] theorem State.set_sessions (s : State) (f : Field) (i v : Nat) : (s.set f i v).sessions = s.sessions := (rfl)
@[simp] theorem State.set_lc (s : State) (f : Field) (i v : Nat) : (s.set f i v).lc = s.lc := (rfl)
@[simp] theorem State.set_net (s : State) (f : Field) (i v : Nat) : (s.set f i v).net = s.net := (rfl)
@[simp] theorem State.set_tmp (s : State) (f : Field) (i v : Nat) : (s.set f i v).tmp = s.tmp := (rfl)
@[simp] theorem State.set_fab (s : State) (f : Field) (i v : Nat) : (s.set f i v).fab = s.fab := (rfl)
@[simp] theorem State.set_upd (s : State) (f : Field) (i v : Nat) : (s.set f i v).upd = s.upd := (rfl)
@[simp] theorem State.set_dose (s : State) (f : Field) (i v : Nat) : (s.set f i v).dose = s.dose := (rfl)
@[simp] theorem State.set_clk (s : State) (f : Field) (i v : Nat) : (s.set f i v).clk = s.clk := (rfl)

/-! ## modSlice -/

@[simp] theorem State.modSlice_pending (s : State) (n : Nat) (f : Slice → Slice) : (s.modSlice n f).pending = s.pending := (rfl)
@[simp] theorem State.modSlice_frameNo (s : State) (n : Nat) (f : Slice → Slice) : (s.modSlice n f).frameNo = s.frameNo := (rfl)
@[simp] theorem State.modSlice_free (s : State) (n : Nat) (f : Slice → Slice) : (s.modSlice n f).free = s.free := (rfl)
@[simp] theorem State.modSlice_regs (s : State) (n : Nat) (f : Slice → Slice) : (s.modSlice n f).regs = s.regs := (rfl)
@[simp] theorem State.modSlice_shadows (s : State) (n : Nat) (f : Slice → Slice) : (s.modSlice n f).shadows = s.shadows := (rfl)
@[simp] theorem State.modSlice_cover (s : State) (n : Nat) (f : Slice → Slice) : (s.modSlice n f).cover = s.cover := (rfl)
@[simp] theorem State.modSlice_glb (s : State) (n : Nat) (f : Slice → Slice) : (s.modSlice n f).glb = s.glb := (rfl)
@[simp] theorem State.modSlice_trv (s : State) (n : Nat) (f : Slice → Slice) : (s.modSlice n f).trv = s.trv := (rfl)
@[simp] theorem State.modSlice_tuStore (s : State) (n : Nat) (f : Slice → Slice) : (s.modSlice n f).tuStore = s.tuStore := (rfl)
@[simp] theorem State.modSlice_pkStore (s : State) (n : Nat) (f : Slice → Slice) : (s.modSlice n f).pkStore = s.pkStore := (rfl)
@[simp] theorem State.modSlice_luStore (s : State) (n : Nat) (f : Slice → Slice) : (s.modSlice n f).luStore = s.luStore := (rfl)
@[simp] theorem State.modSlice_tiles (s : State) (n : Nat) (f : Slice → Slice) : (s.modSlice n f).tiles = s.tiles := (rfl)
@[simp] theorem State.modSlice_ks (s : State) (n : Nat) (f : Slice → Slice) : (s.modSlice n f).ks = s.ks := (rfl)
@[simp] theorem State.modSlice_fb (s : State) (n : Nat) (f : Slice → Slice) : (s.modSlice n f).fb = s.fb := (rfl)
@[simp] theorem State.modSlice_rng (s : State) (n : Nat) (f : Slice → Slice) : (s.modSlice n f).rng = s.rng := (rfl)
@[simp] theorem State.modSlice_otp (s : State) (n : Nat) (f : Slice → Slice) : (s.modSlice n f).otp = s.otp := (rfl)
@[simp] theorem State.modSlice_sessions (s : State) (n : Nat) (f : Slice → Slice) : (s.modSlice n f).sessions = s.sessions := (rfl)
@[simp] theorem State.modSlice_lc (s : State) (n : Nat) (f : Slice → Slice) : (s.modSlice n f).lc = s.lc := (rfl)
@[simp] theorem State.modSlice_net (s : State) (n : Nat) (f : Slice → Slice) : (s.modSlice n f).net = s.net := (rfl)
@[simp] theorem State.modSlice_tmp (s : State) (n : Nat) (f : Slice → Slice) : (s.modSlice n f).tmp = s.tmp := (rfl)
@[simp] theorem State.modSlice_fab (s : State) (n : Nat) (f : Slice → Slice) : (s.modSlice n f).fab = s.fab := (rfl)
@[simp] theorem State.modSlice_upd (s : State) (n : Nat) (f : Slice → Slice) : (s.modSlice n f).upd = s.upd := (rfl)
@[simp] theorem State.modSlice_dose (s : State) (n : Nat) (f : Slice → Slice) : (s.modSlice n f).dose = s.dose := (rfl)
@[simp] theorem State.modSlice_clk (s : State) (n : Nat) (f : Slice → Slice) : (s.modSlice n f).clk = s.clk := (rfl)

/-! ## modCmds -/

@[simp] theorem State.modCmds_pending (s : State) (f : List Cmd → List Cmd) : (s.modCmds f).pending = s.pending := (rfl)
@[simp] theorem State.modCmds_frameNo (s : State) (f : List Cmd → List Cmd) : (s.modCmds f).frameNo = s.frameNo := (rfl)
@[simp] theorem State.modCmds_free (s : State) (f : List Cmd → List Cmd) : (s.modCmds f).free = s.free := (rfl)
@[simp] theorem State.modCmds_regs (s : State) (f : List Cmd → List Cmd) : (s.modCmds f).regs = s.regs := (rfl)
@[simp] theorem State.modCmds_shadows (s : State) (f : List Cmd → List Cmd) : (s.modCmds f).shadows = s.shadows := (rfl)
@[simp] theorem State.modCmds_cover (s : State) (f : List Cmd → List Cmd) : (s.modCmds f).cover = s.cover := (rfl)
@[simp] theorem State.modCmds_glb (s : State) (f : List Cmd → List Cmd) : (s.modCmds f).glb = s.glb := (rfl)
@[simp] theorem State.modCmds_hif (s : State) (f : List Cmd → List Cmd) : (s.modCmds f).hif = s.hif := (rfl)
@[simp] theorem State.modCmds_tuStore (s : State) (f : List Cmd → List Cmd) : (s.modCmds f).tuStore = s.tuStore := (rfl)
@[simp] theorem State.modCmds_pkStore (s : State) (f : List Cmd → List Cmd) : (s.modCmds f).pkStore = s.pkStore := (rfl)
@[simp] theorem State.modCmds_luStore (s : State) (f : List Cmd → List Cmd) : (s.modCmds f).luStore = s.luStore := (rfl)
@[simp] theorem State.modCmds_tiles (s : State) (f : List Cmd → List Cmd) : (s.modCmds f).tiles = s.tiles := (rfl)
@[simp] theorem State.modCmds_ks (s : State) (f : List Cmd → List Cmd) : (s.modCmds f).ks = s.ks := (rfl)
@[simp] theorem State.modCmds_fb (s : State) (f : List Cmd → List Cmd) : (s.modCmds f).fb = s.fb := (rfl)
@[simp] theorem State.modCmds_rng (s : State) (f : List Cmd → List Cmd) : (s.modCmds f).rng = s.rng := (rfl)
@[simp] theorem State.modCmds_otp (s : State) (f : List Cmd → List Cmd) : (s.modCmds f).otp = s.otp := (rfl)
@[simp] theorem State.modCmds_sessions (s : State) (f : List Cmd → List Cmd) : (s.modCmds f).sessions = s.sessions := (rfl)
@[simp] theorem State.modCmds_lc (s : State) (f : List Cmd → List Cmd) : (s.modCmds f).lc = s.lc := (rfl)
@[simp] theorem State.modCmds_net (s : State) (f : List Cmd → List Cmd) : (s.modCmds f).net = s.net := (rfl)
@[simp] theorem State.modCmds_tmp (s : State) (f : List Cmd → List Cmd) : (s.modCmds f).tmp = s.tmp := (rfl)
@[simp] theorem State.modCmds_fab (s : State) (f : List Cmd → List Cmd) : (s.modCmds f).fab = s.fab := (rfl)
@[simp] theorem State.modCmds_upd (s : State) (f : List Cmd → List Cmd) : (s.modCmds f).upd = s.upd := (rfl)
@[simp] theorem State.modCmds_dose (s : State) (f : List Cmd → List Cmd) : (s.modCmds f).dose = s.dose := (rfl)
@[simp] theorem State.modCmds_clk (s : State) (f : List Cmd → List Cmd) : (s.modCmds f).clk = s.clk := (rfl)

/-! ## putCmd -/

@[simp] theorem State.putCmd_pending (s : State) (c : Cmd) : (s.putCmd c).pending = s.pending := (rfl)
@[simp] theorem State.putCmd_frameNo (s : State) (c : Cmd) : (s.putCmd c).frameNo = s.frameNo := (rfl)
@[simp] theorem State.putCmd_free (s : State) (c : Cmd) : (s.putCmd c).free = s.free := (rfl)
@[simp] theorem State.putCmd_regs (s : State) (c : Cmd) : (s.putCmd c).regs = s.regs := (rfl)
@[simp] theorem State.putCmd_shadows (s : State) (c : Cmd) : (s.putCmd c).shadows = s.shadows := (rfl)
@[simp] theorem State.putCmd_cover (s : State) (c : Cmd) : (s.putCmd c).cover = s.cover := (rfl)
@[simp] theorem State.putCmd_glb (s : State) (c : Cmd) : (s.putCmd c).glb = s.glb := (rfl)
@[simp] theorem State.putCmd_hif (s : State) (c : Cmd) : (s.putCmd c).hif = s.hif := (rfl)
@[simp] theorem State.putCmd_tuStore (s : State) (c : Cmd) : (s.putCmd c).tuStore = s.tuStore := (rfl)
@[simp] theorem State.putCmd_pkStore (s : State) (c : Cmd) : (s.putCmd c).pkStore = s.pkStore := (rfl)
@[simp] theorem State.putCmd_luStore (s : State) (c : Cmd) : (s.putCmd c).luStore = s.luStore := (rfl)
@[simp] theorem State.putCmd_tiles (s : State) (c : Cmd) : (s.putCmd c).tiles = s.tiles := (rfl)
@[simp] theorem State.putCmd_ks (s : State) (c : Cmd) : (s.putCmd c).ks = s.ks := (rfl)
@[simp] theorem State.putCmd_fb (s : State) (c : Cmd) : (s.putCmd c).fb = s.fb := (rfl)
@[simp] theorem State.putCmd_rng (s : State) (c : Cmd) : (s.putCmd c).rng = s.rng := (rfl)
@[simp] theorem State.putCmd_otp (s : State) (c : Cmd) : (s.putCmd c).otp = s.otp := (rfl)
@[simp] theorem State.putCmd_sessions (s : State) (c : Cmd) : (s.putCmd c).sessions = s.sessions := (rfl)
@[simp] theorem State.putCmd_lc (s : State) (c : Cmd) : (s.putCmd c).lc = s.lc := (rfl)
@[simp] theorem State.putCmd_net (s : State) (c : Cmd) : (s.putCmd c).net = s.net := (rfl)
@[simp] theorem State.putCmd_tmp (s : State) (c : Cmd) : (s.putCmd c).tmp = s.tmp := (rfl)
@[simp] theorem State.putCmd_fab (s : State) (c : Cmd) : (s.putCmd c).fab = s.fab := (rfl)
@[simp] theorem State.putCmd_upd (s : State) (c : Cmd) : (s.putCmd c).upd = s.upd := (rfl)
@[simp] theorem State.putCmd_dose (s : State) (c : Cmd) : (s.putCmd c).dose = s.dose := (rfl)
@[simp] theorem State.putCmd_clk (s : State) (c : Cmd) : (s.putCmd c).clk = s.clk := (rfl)

/-! ## dropCmd -/

@[simp] theorem State.dropCmd_pending (s : State) (n : Nat) : (s.dropCmd n).pending = s.pending := (rfl)
@[simp] theorem State.dropCmd_frameNo (s : State) (n : Nat) : (s.dropCmd n).frameNo = s.frameNo := (rfl)
@[simp] theorem State.dropCmd_free (s : State) (n : Nat) : (s.dropCmd n).free = s.free := (rfl)
@[simp] theorem State.dropCmd_regs (s : State) (n : Nat) : (s.dropCmd n).regs = s.regs := (rfl)
@[simp] theorem State.dropCmd_shadows (s : State) (n : Nat) : (s.dropCmd n).shadows = s.shadows := (rfl)
@[simp] theorem State.dropCmd_cover (s : State) (n : Nat) : (s.dropCmd n).cover = s.cover := (rfl)
@[simp] theorem State.dropCmd_glb (s : State) (n : Nat) : (s.dropCmd n).glb = s.glb := (rfl)
@[simp] theorem State.dropCmd_hif (s : State) (n : Nat) : (s.dropCmd n).hif = s.hif := (rfl)
@[simp] theorem State.dropCmd_tuStore (s : State) (n : Nat) : (s.dropCmd n).tuStore = s.tuStore := (rfl)
@[simp] theorem State.dropCmd_pkStore (s : State) (n : Nat) : (s.dropCmd n).pkStore = s.pkStore := (rfl)
@[simp] theorem State.dropCmd_luStore (s : State) (n : Nat) : (s.dropCmd n).luStore = s.luStore := (rfl)
@[simp] theorem State.dropCmd_tiles (s : State) (n : Nat) : (s.dropCmd n).tiles = s.tiles := (rfl)
@[simp] theorem State.dropCmd_ks (s : State) (n : Nat) : (s.dropCmd n).ks = s.ks := (rfl)
@[simp] theorem State.dropCmd_fb (s : State) (n : Nat) : (s.dropCmd n).fb = s.fb := (rfl)
@[simp] theorem State.dropCmd_rng (s : State) (n : Nat) : (s.dropCmd n).rng = s.rng := (rfl)
@[simp] theorem State.dropCmd_otp (s : State) (n : Nat) : (s.dropCmd n).otp = s.otp := (rfl)
@[simp] theorem State.dropCmd_sessions (s : State) (n : Nat) : (s.dropCmd n).sessions = s.sessions := (rfl)
@[simp] theorem State.dropCmd_lc (s : State) (n : Nat) : (s.dropCmd n).lc = s.lc := (rfl)
@[simp] theorem State.dropCmd_net (s : State) (n : Nat) : (s.dropCmd n).net = s.net := (rfl)
@[simp] theorem State.dropCmd_tmp (s : State) (n : Nat) : (s.dropCmd n).tmp = s.tmp := (rfl)
@[simp] theorem State.dropCmd_fab (s : State) (n : Nat) : (s.dropCmd n).fab = s.fab := (rfl)
@[simp] theorem State.dropCmd_upd (s : State) (n : Nat) : (s.dropCmd n).upd = s.upd := (rfl)
@[simp] theorem State.dropCmd_dose (s : State) (n : Nat) : (s.dropCmd n).dose = s.dose := (rfl)
@[simp] theorem State.dropCmd_clk (s : State) (n : Nat) : (s.dropCmd n).clk = s.clk := (rfl)

/-! ## modDomain -/

@[simp] theorem State.modDomain_pending (s : State) (n : Nat) (f : Domain → Domain) : (s.modDomain n f).pending = s.pending := (rfl)
@[simp] theorem State.modDomain_frameNo (s : State) (n : Nat) (f : Domain → Domain) : (s.modDomain n f).frameNo = s.frameNo := (rfl)
@[simp] theorem State.modDomain_free (s : State) (n : Nat) (f : Domain → Domain) : (s.modDomain n f).free = s.free := (rfl)
@[simp] theorem State.modDomain_regs (s : State) (n : Nat) (f : Domain → Domain) : (s.modDomain n f).regs = s.regs := (rfl)
@[simp] theorem State.modDomain_shadows (s : State) (n : Nat) (f : Domain → Domain) : (s.modDomain n f).shadows = s.shadows := (rfl)
@[simp] theorem State.modDomain_cover (s : State) (n : Nat) (f : Domain → Domain) : (s.modDomain n f).cover = s.cover := (rfl)
@[simp] theorem State.modDomain_glb (s : State) (n : Nat) (f : Domain → Domain) : (s.modDomain n f).glb = s.glb := (rfl)
@[simp] theorem State.modDomain_hif (s : State) (n : Nat) (f : Domain → Domain) : (s.modDomain n f).hif = s.hif := (rfl)
@[simp] theorem State.modDomain_trv (s : State) (n : Nat) (f : Domain → Domain) : (s.modDomain n f).trv = s.trv := (rfl)
@[simp] theorem State.modDomain_tuStore (s : State) (n : Nat) (f : Domain → Domain) : (s.modDomain n f).tuStore = s.tuStore := (rfl)
@[simp] theorem State.modDomain_pkStore (s : State) (n : Nat) (f : Domain → Domain) : (s.modDomain n f).pkStore = s.pkStore := (rfl)
@[simp] theorem State.modDomain_luStore (s : State) (n : Nat) (f : Domain → Domain) : (s.modDomain n f).luStore = s.luStore := (rfl)
@[simp] theorem State.modDomain_tiles (s : State) (n : Nat) (f : Domain → Domain) : (s.modDomain n f).tiles = s.tiles := (rfl)
@[simp] theorem State.modDomain_fb (s : State) (n : Nat) (f : Domain → Domain) : (s.modDomain n f).fb = s.fb := (rfl)
@[simp] theorem State.modDomain_rng (s : State) (n : Nat) (f : Domain → Domain) : (s.modDomain n f).rng = s.rng := (rfl)
@[simp] theorem State.modDomain_otp (s : State) (n : Nat) (f : Domain → Domain) : (s.modDomain n f).otp = s.otp := (rfl)
@[simp] theorem State.modDomain_sessions (s : State) (n : Nat) (f : Domain → Domain) : (s.modDomain n f).sessions = s.sessions := (rfl)
@[simp] theorem State.modDomain_lc (s : State) (n : Nat) (f : Domain → Domain) : (s.modDomain n f).lc = s.lc := (rfl)
@[simp] theorem State.modDomain_net (s : State) (n : Nat) (f : Domain → Domain) : (s.modDomain n f).net = s.net := (rfl)
@[simp] theorem State.modDomain_tmp (s : State) (n : Nat) (f : Domain → Domain) : (s.modDomain n f).tmp = s.tmp := (rfl)
@[simp] theorem State.modDomain_fab (s : State) (n : Nat) (f : Domain → Domain) : (s.modDomain n f).fab = s.fab := (rfl)
@[simp] theorem State.modDomain_upd (s : State) (n : Nat) (f : Domain → Domain) : (s.modDomain n f).upd = s.upd := (rfl)
@[simp] theorem State.modDomain_dose (s : State) (n : Nat) (f : Domain → Domain) : (s.modDomain n f).dose = s.dose := (rfl)
@[simp] theorem State.modDomain_clk (s : State) (n : Nat) (f : Domain → Domain) : (s.modDomain n f).clk = s.clk := (rfl)

/-! ## Register fields -/

@[simp] theorem State.put1_eq (s : State) (f : Field) (b : Bool) (i : Nat) : s.put1 f b i = s.set f i (b2n b) := (rfl)
@[simp] theorem State.bump_eq (s : State) (f : Field) (n i : Nat) : s.bump f n i = s.set f i (s.get f i + n) := (rfl)
@[simp] theorem b2n_true : b2n true = 1 := (rfl)
@[simp] theorem b2n_false : b2n false = 0 := (rfl)

/-- States with the same registers read alike. -/
theorem State.get_of_regs {s t : State} (h : t.regs = s.regs) (f : Field) (i : Nat) : t.get f i = s.get f i := by
  simp [State.get, h]

@[simp] theorem State.get_modSlice (s : State) (n : Nat) (g : Slice → Slice) (f : Field) (i : Nat) :
    (s.modSlice n g).get f i = s.get f i := (rfl)
@[simp] theorem State.get_modCmds (s : State) (g : List Cmd → List Cmd) (f : Field) (i : Nat) :
    (s.modCmds g).get f i = s.get f i := (rfl)
@[simp] theorem State.get_putCmd (s : State) (c : Cmd) (f : Field) (i : Nat) : (s.putCmd c).get f i = s.get f i := (rfl)
@[simp] theorem State.get_dropCmd (s : State) (n : Nat) (f : Field) (i : Nat) : (s.dropCmd n).get f i = s.get f i := (rfl)
@[simp] theorem State.get_modDomain (s : State) (n : Nat) (g : Domain → Domain) (f : Field) (i : Nat) :
    (s.modDomain n g).get f i = s.get f i := (rfl)

/-- A field written reads as what was written, cut to its width. -/
theorem State.get_set_self (s : State) (f : Field) (i v : Nat) (hw : f.width ≤ 64) :
    (s.set f i v).get f i = v % 2 ^ f.width := by
  have h1 : v % 2 ^ f.width < 2 ^ 64 :=
    Nat.lt_of_lt_of_le (Nat.mod_lt _ (Nat.two_pow_pos _)) (Nat.pow_le_pow_right (by decide) hw)
  simp only [State.get, State.set, Tab.get_put_self, BitVec.xor_assoc, BitVec.xor_self, BitVec.xor_zero, BitVec.toNat_ofNat]
  exact Nat.mod_eq_of_lt h1

/-- A write leaves every field with another key alone. -/
theorem State.get_set_other (s : State) (f g : Field) (i j v : Nat) (h : f.key i ≠ g.key j) :
    (s.set f i v).get g j = s.get g j := by
  simp only [State.get, State.set, Tab.get_put_other _ _ _ h]

/-- A one-bit field written with a truth value reads as it. -/
theorem State.on_set_self (s : State) (f : Field) (i : Nat) (b : Bool) (hw : f.width = 1) :
    (s.set f i (b2n b)).on f i = b := by
  rw [State.on, State.get_set_self _ _ _ _ (by omega), hw]; cases b <;> rfl

end Sys2Proof.Machine
end

