-- ==== Sys2Proof/Laws/Ops.lean ====
section
/-! SUPPORT. What posting a write, raising a vector and setting a status bit change. -/

namespace Sys2Proof.Machine

@[simp] theorem State.post_pending (s : State) (p : Post) : (s.post p).pending = s.pending := by unfold State.post; split <;> rfl
@[simp] theorem State.post_frameNo (s : State) (p : Post) : (s.post p).frameNo = s.frameNo := by unfold State.post; split <;> rfl
@[simp] theorem State.post_free (s : State) (p : Post) : (s.post p).free = s.free := by unfold State.post; split <;> rfl
@[simp] theorem State.post_regs (s : State) (p : Post) : (s.post p).regs = s.regs := by unfold State.post; split <;> rfl
@[simp] theorem State.post_shadows (s : State) (p : Post) : (s.post p).shadows = s.shadows := by unfold State.post; split <;> rfl
@[simp] theorem State.post_cover (s : State) (p : Post) : (s.post p).cover = s.cover := by unfold State.post; split <;> rfl
@[simp] theorem State.post_glb (s : State) (p : Post) : (s.post p).glb = s.glb := by unfold State.post; split <;> rfl
@[simp] theorem State.post_trv (s : State) (p : Post) : (s.post p).trv = s.trv := by unfold State.post; split <;> rfl
@[simp] theorem State.post_tuStore (s : State) (p : Post) : (s.post p).tuStore = s.tuStore := by unfold State.post; split <;> rfl
@[simp] theorem State.post_pkStore (s : State) (p : Post) : (s.post p).pkStore = s.pkStore := by unfold State.post; split <;> rfl
@[simp] theorem State.post_luStore (s : State) (p : Post) : (s.post p).luStore = s.luStore := by unfold State.post; split <;> rfl
@[simp] theorem State.post_tiles (s : State) (p : Post) : (s.post p).tiles = s.tiles := by unfold State.post; split <;> rfl
@[simp] theorem State.post_ks (s : State) (p : Post) : (s.post p).ks = s.ks := by unfold State.post; split <;> rfl
@[simp] theorem State.post_fb (s : State) (p : Post) : (s.post p).fb = s.fb := by unfold State.post; split <;> rfl
@[simp] theorem State.post_rng (s : State) (p : Post) : (s.post p).rng = s.rng := by unfold State.post; split <;> rfl
@[simp] theorem State.post_otp (s : State) (p : Post) : (s.post p).otp = s.otp := by unfold State.post; split <;> rfl
@[simp] theorem State.post_sessions (s : State) (p : Post) : (s.post p).sessions = s.sessions := by unfold State.post; split <;> rfl
@[simp] theorem State.post_lc (s : State) (p : Post) : (s.post p).lc = s.lc := by unfold State.post; split <;> rfl
@[simp] theorem State.post_net (s : State) (p : Post) : (s.post p).net = s.net := by unfold State.post; split <;> rfl
@[simp] theorem State.post_tmp (s : State) (p : Post) : (s.post p).tmp = s.tmp := by unfold State.post; split <;> rfl
@[simp] theorem State.post_fab (s : State) (p : Post) : (s.post p).fab = s.fab := by unfold State.post; split <;> rfl
@[simp] theorem State.post_upd (s : State) (p : Post) : (s.post p).upd = s.upd := by unfold State.post; split <;> rfl
@[simp] theorem State.post_dose (s : State) (p : Post) : (s.post p).dose = s.dose := by unfold State.post; split <;> rfl
@[simp] theorem State.post_clk (s : State) (p : Post) : (s.post p).clk = s.clk := by unfold State.post; split <;> rfl
@[simp] theorem State.msix_pending (s : State) (a b c : Nat) : (s.msix a b c).pending = s.pending := by
  unfold State.msix; split; exact State.post_pending ..; rfl
@[simp] theorem State.msix_frameNo (s : State) (a b c : Nat) : (s.msix a b c).frameNo = s.frameNo := by
  unfold State.msix; split; exact State.post_frameNo ..; rfl
@[simp] theorem State.msix_free (s : State) (a b c : Nat) : (s.msix a b c).free = s.free := by
  unfold State.msix; split; exact State.post_free ..; rfl
@[simp] theorem State.msix_regs (s : State) (a b c : Nat) : (s.msix a b c).regs = s.regs := by
  unfold State.msix; split; exact State.post_regs ..; rfl
@[simp] theorem State.msix_shadows (s : State) (a b c : Nat) : (s.msix a b c).shadows = s.shadows := by
  unfold State.msix; split; exact State.post_shadows ..; rfl
@[simp] theorem State.msix_cover (s : State) (a b c : Nat) : (s.msix a b c).cover = s.cover := by
  unfold State.msix; split; exact State.post_cover ..; rfl
@[simp] theorem State.msix_glb (s : State) (a b c : Nat) : (s.msix a b c).glb = s.glb := by
  unfold State.msix; split; exact State.post_glb ..; rfl
@[simp] theorem State.msix_trv (s : State) (a b c : Nat) : (s.msix a b c).trv = s.trv := by
  unfold State.msix; split; exact State.post_trv ..; rfl
@[simp] theorem State.msix_tuStore (s : State) (a b c : Nat) : (s.msix a b c).tuStore = s.tuStore := by
  unfold State.msix; split; exact State.post_tuStore ..; rfl
@[simp] theorem State.msix_pkStore (s : State) (a b c : Nat) : (s.msix a b c).pkStore = s.pkStore := by
  unfold State.msix; split; exact State.post_pkStore ..; rfl
@[simp] theorem State.msix_luStore (s : State) (a b c : Nat) : (s.msix a b c).luStore = s.luStore := by
  unfold State.msix; split; exact State.post_luStore ..; rfl
@[simp] theorem State.msix_tiles (s : State) (a b c : Nat) : (s.msix a b c).tiles = s.tiles := by
  unfold State.msix; split; exact State.post_tiles ..; rfl
@[simp] theorem State.msix_ks (s : State) (a b c : Nat) : (s.msix a b c).ks = s.ks := by
  unfold State.msix; split; exact State.post_ks ..; rfl
@[simp] theorem State.msix_fb (s : State) (a b c : Nat) : (s.msix a b c).fb = s.fb := by
  unfold State.msix; split; exact State.post_fb ..; rfl
@[simp] theorem State.msix_rng (s : State) (a b c : Nat) : (s.msix a b c).rng = s.rng := by
  unfold State.msix; split; exact State.post_rng ..; rfl
@[simp] theorem State.msix_otp (s : State) (a b c : Nat) : (s.msix a b c).otp = s.otp := by
  unfold State.msix; split; exact State.post_otp ..; rfl
@[simp] theorem State.msix_sessions (s : State) (a b c : Nat) : (s.msix a b c).sessions = s.sessions := by
  unfold State.msix; split; exact State.post_sessions ..; rfl
@[simp] theorem State.msix_lc (s : State) (a b c : Nat) : (s.msix a b c).lc = s.lc := by
  unfold State.msix; split; exact State.post_lc ..; rfl
@[simp] theorem State.msix_net (s : State) (a b c : Nat) : (s.msix a b c).net = s.net := by
  unfold State.msix; split; exact State.post_net ..; rfl
@[simp] theorem State.msix_tmp (s : State) (a b c : Nat) : (s.msix a b c).tmp = s.tmp := by
  unfold State.msix; split; exact State.post_tmp ..; rfl
@[simp] theorem State.msix_fab (s : State) (a b c : Nat) : (s.msix a b c).fab = s.fab := by
  unfold State.msix; split; exact State.post_fab ..; rfl
@[simp] theorem State.msix_upd (s : State) (a b c : Nat) : (s.msix a b c).upd = s.upd := by
  unfold State.msix; split; exact State.post_upd ..; rfl
@[simp] theorem State.msix_dose (s : State) (a b c : Nat) : (s.msix a b c).dose = s.dose := by
  unfold State.msix; split; exact State.post_dose ..; rfl
@[simp] theorem State.msix_clk (s : State) (a b c : Nat) : (s.msix a b c).clk = s.clk := by
  unfold State.msix; split; exact State.post_clk ..; rfl
@[simp] theorem State.raise_pending (s : State) (v : Nat) : (s.raise v).pending = s.pending := State.msix_pending ..
@[simp] theorem State.raise_frameNo (s : State) (v : Nat) : (s.raise v).frameNo = s.frameNo := State.msix_frameNo ..
@[simp] theorem State.raise_free (s : State) (v : Nat) : (s.raise v).free = s.free := State.msix_free ..
@[simp] theorem State.raise_regs (s : State) (v : Nat) : (s.raise v).regs = s.regs := State.msix_regs ..
@[simp] theorem State.raise_shadows (s : State) (v : Nat) : (s.raise v).shadows = s.shadows := State.msix_shadows ..
@[simp] theorem State.raise_cover (s : State) (v : Nat) : (s.raise v).cover = s.cover := State.msix_cover ..
@[simp] theorem State.raise_glb (s : State) (v : Nat) : (s.raise v).glb = s.glb := State.msix_glb ..
@[simp] theorem State.raise_trv (s : State) (v : Nat) : (s.raise v).trv = s.trv := State.msix_trv ..
@[simp] theorem State.raise_tuStore (s : State) (v : Nat) : (s.raise v).tuStore = s.tuStore := State.msix_tuStore ..
@[simp] theorem State.raise_pkStore (s : State) (v : Nat) : (s.raise v).pkStore = s.pkStore := State.msix_pkStore ..
@[simp] theorem State.raise_luStore (s : State) (v : Nat) : (s.raise v).luStore = s.luStore := State.msix_luStore ..
@[simp] theorem State.raise_tiles (s : State) (v : Nat) : (s.raise v).tiles = s.tiles := State.msix_tiles ..
@[simp] theorem State.raise_ks (s : State) (v : Nat) : (s.raise v).ks = s.ks := State.msix_ks ..
@[simp] theorem State.raise_fb (s : State) (v : Nat) : (s.raise v).fb = s.fb := State.msix_fb ..
@[simp] theorem State.raise_rng (s : State) (v : Nat) : (s.raise v).rng = s.rng := State.msix_rng ..
@[simp] theorem State.raise_otp (s : State) (v : Nat) : (s.raise v).otp = s.otp := State.msix_otp ..
@[simp] theorem State.raise_sessions (s : State) (v : Nat) : (s.raise v).sessions = s.sessions := State.msix_sessions ..
@[simp] theorem State.raise_lc (s : State) (v : Nat) : (s.raise v).lc = s.lc := State.msix_lc ..
@[simp] theorem State.raise_net (s : State) (v : Nat) : (s.raise v).net = s.net := State.msix_net ..
@[simp] theorem State.raise_tmp (s : State) (v : Nat) : (s.raise v).tmp = s.tmp := State.msix_tmp ..
@[simp] theorem State.raise_fab (s : State) (v : Nat) : (s.raise v).fab = s.fab := State.msix_fab ..
@[simp] theorem State.raise_upd (s : State) (v : Nat) : (s.raise v).upd = s.upd := State.msix_upd ..
@[simp] theorem State.raise_dose (s : State) (v : Nat) : (s.raise v).dose = s.dose := State.msix_dose ..
@[simp] theorem State.raise_clk (s : State) (v : Nat) : (s.raise v).clk = s.clk := State.msix_clk ..
@[simp] theorem State.event_pending (s : State) (g en : Field) (v m : Nat) : (s.event g en v m).pending = s.pending := by
  simp only [State.event]; split <;> simp only [State.raise_pending, State.set_pending]
@[simp] theorem State.event_frameNo (s : State) (g en : Field) (v m : Nat) : (s.event g en v m).frameNo = s.frameNo := by
  simp only [State.event]; split <;> simp only [State.raise_frameNo, State.set_frameNo]
@[simp] theorem State.event_free (s : State) (g en : Field) (v m : Nat) : (s.event g en v m).free = s.free := by
  simp only [State.event]; split <;> simp only [State.raise_free, State.set_free]
@[simp] theorem State.event_shadows (s : State) (g en : Field) (v m : Nat) : (s.event g en v m).shadows = s.shadows := by
  simp only [State.event]; split <;> simp only [State.raise_shadows, State.set_shadows]
@[simp] theorem State.event_cover (s : State) (g en : Field) (v m : Nat) : (s.event g en v m).cover = s.cover := by
  simp only [State.event]; split <;> simp only [State.raise_cover, State.set_cover]
@[simp] theorem State.event_glb (s : State) (g en : Field) (v m : Nat) : (s.event g en v m).glb = s.glb := by
  simp only [State.event]; split <;> simp only [State.raise_glb, State.set_glb]
@[simp] theorem State.event_trv (s : State) (g en : Field) (v m : Nat) : (s.event g en v m).trv = s.trv := by
  simp only [State.event]; split <;> simp only [State.raise_trv, State.set_trv]
@[simp] theorem State.event_tuStore (s : State) (g en : Field) (v m : Nat) : (s.event g en v m).tuStore = s.tuStore := by
  simp only [State.event]; split <;> simp only [State.raise_tuStore, State.set_tuStore]
@[simp] theorem State.event_pkStore (s : State) (g en : Field) (v m : Nat) : (s.event g en v m).pkStore = s.pkStore := by
  simp only [State.event]; split <;> simp only [State.raise_pkStore, State.set_pkStore]
@[simp] theorem State.event_luStore (s : State) (g en : Field) (v m : Nat) : (s.event g en v m).luStore = s.luStore := by
  simp only [State.event]; split <;> simp only [State.raise_luStore, State.set_luStore]
@[simp] theorem State.event_tiles (s : State) (g en : Field) (v m : Nat) : (s.event g en v m).tiles = s.tiles := by
  simp only [State.event]; split <;> simp only [State.raise_tiles, State.set_tiles]
@[simp] theorem State.event_ks (s : State) (g en : Field) (v m : Nat) : (s.event g en v m).ks = s.ks := by
  simp only [State.event]; split <;> simp only [State.raise_ks, State.set_ks]
@[simp] theorem State.event_fb (s : State) (g en : Field) (v m : Nat) : (s.event g en v m).fb = s.fb := by
  simp only [State.event]; split <;> simp only [State.raise_fb, State.set_fb]
@[simp] theorem State.event_rng (s : State) (g en : Field) (v m : Nat) : (s.event g en v m).rng = s.rng := by
  simp only [State.event]; split <;> simp only [State.raise_rng, State.set_rng]
@[simp] theorem State.event_otp (s : State) (g en : Field) (v m : Nat) : (s.event g en v m).otp = s.otp := by
  simp only [State.event]; split <;> simp only [State.raise_otp, State.set_otp]
@[simp] theorem State.event_sessions (s : State) (g en : Field) (v m : Nat) : (s.event g en v m).sessions = s.sessions := by
  simp only [State.event]; split <;> simp only [State.raise_sessions, State.set_sessions]
@[simp] theorem State.event_lc (s : State) (g en : Field) (v m : Nat) : (s.event g en v m).lc = s.lc := by
  simp only [State.event]; split <;> simp only [State.raise_lc, State.set_lc]
@[simp] theorem State.event_net (s : State) (g en : Field) (v m : Nat) : (s.event g en v m).net = s.net := by
  simp only [State.event]; split <;> simp only [State.raise_net, State.set_net]
@[simp] theorem State.event_tmp (s : State) (g en : Field) (v m : Nat) : (s.event g en v m).tmp = s.tmp := by
  simp only [State.event]; split <;> simp only [State.raise_tmp, State.set_tmp]
@[simp] theorem State.event_fab (s : State) (g en : Field) (v m : Nat) : (s.event g en v m).fab = s.fab := by
  simp only [State.event]; split <;> simp only [State.raise_fab, State.set_fab]
@[simp] theorem State.event_upd (s : State) (g en : Field) (v m : Nat) : (s.event g en v m).upd = s.upd := by
  simp only [State.event]; split <;> simp only [State.raise_upd, State.set_upd]
@[simp] theorem State.event_dose (s : State) (g en : Field) (v m : Nat) : (s.event g en v m).dose = s.dose := by
  simp only [State.event]; split <;> simp only [State.raise_dose, State.set_dose]
@[simp] theorem State.event_clk (s : State) (g en : Field) (v m : Nat) : (s.event g en v m).clk = s.clk := by
  simp only [State.event]; split <;> simp only [State.raise_clk, State.set_clk]

@[simp] theorem State.get_post (s : State) (p : Post) (f : Field) (i : Nat) : (s.post p).get f i = s.get f i :=
  State.get_of_regs (State.post_regs s p) f i

@[simp] theorem State.get_raise (s : State) (v : Nat) (f : Field) (i : Nat) : (s.raise v).get f i = s.get f i :=
  State.get_of_regs (State.raise_regs s v) f i

/-- A status event changes no register field but its status bits. -/
theorem State.get_event_other (s : State) (f en g : Field) (v m j : Nat) (h : f.key 0 ≠ g.key j) :
    (s.event f en v m).get g j = s.get g j := by
  simp only [State.event]
  split <;> (try simp only [State.get_raise]) <;> exact State.get_set_other _ _ _ _ _ _ h

/-- A status event sets its bits and keeps the others. -/
theorem State.get_event_self (s : State) (f en : Field) (v m : Nat) (hw : f.width ≤ 64) :
    (s.event f en v m).get f = (s.get f ||| m) % 2 ^ f.width := by
  simp only [State.event]
  split <;> (try simp only [State.get_raise]) <;> exact State.get_set_self _ _ _ _ hw

/-- What a register write does when the block takes it. -/
theorem State.ifWritable_true {s : State} {off : Nat} (h : s.writable off = true) (t : State) : s.ifWritable off t = t := by
  simp only [State.ifWritable, h, if_true]

/-- What it does when the block does not, and its clock gate is on. -/
theorem State.ifWritable_false {s : State} {off : Nat} (h : s.writable off = false) (hg : s.gated off = false) (t : State) :
    s.ifWritable off t = s := by
  simp [State.ifWritable, State.adminGated, h, hg]

end Sys2Proof.Machine
end

