-- ==== Sys2Proof/Laws/Record.lean ====
section
/-! SUPPORT. What writing a Fieldbook record can change: the Fieldbook, its registers, the host interface (its vector and an
export it breaks) and the free numbers, and nothing else. -/

namespace Sys2Proof.Machine

/-- From `s` to `t` only the Fieldbook, its registers, the host interface and the free numbers change. -/
structure State.LogStep (s t : State) : Prop where
  rest : t = { s with free := t.free, regs := t.regs, hif := t.hif, fb := t.fb }
  regs : ∀ k, k / 64 / 0x10000 ≠ 0xF → Tab.get 0 t.regs k = Tab.get 0 s.regs k

theorem State.LogStep.refl (s : State) : s.LogStep s := ⟨rfl, fun _ _ => rfl⟩

theorem State.LogStep.trans {s t u : State} (h : s.LogStep t) (g : t.LogStep u) : s.LogStep u :=
  ⟨by rw [g.rest, h.rest], fun k hk => (g.regs k hk).trans (h.regs k hk)⟩

/-- A step that changes the Fieldbook's own state alone. -/
theorem State.LogStep.ofFb (s : State) (b : Fb) : s.LogStep { s with fb := b } := ⟨rfl, fun _ _ => rfl⟩

theorem State.LogStep.ofPost (s : State) (p : Post) : s.LogStep (s.post p) := by
  unfold State.post; split <;> exact ⟨rfl, fun _ _ => rfl⟩

theorem State.LogStep.ofMsix (s : State) (a b c : Nat) : s.LogStep (s.msix a b c) := by
  unfold State.msix; split
  · exact .ofPost ..
  · exact ⟨rfl, fun _ _ => rfl⟩

theorem State.LogStep.ofSet (s : State) (f : Field) (i v : Nat) (h : f.key i / 64 / 0x10000 = 0xF) :
    s.LogStep (s.set f i v) :=
  ⟨rfl, fun k hk => Tab.get_put_other _ _ _ (by rintro rfl; exact hk h)⟩

theorem State.LogStep.ofEvent (s : State) (f en : Field) (v m : Nat) (h : f.key 0 / 64 / 0x10000 = 0xF) :
    s.LogStep (s.event f en v m) := by
  simp only [State.event]; split
  · exact .ofSet s f 0 _ h
  · exact (State.LogStep.ofSet s f 0 _ h).trans (.ofMsix ..)

theorem State.LogStep.ofDrop (s : State) (r : FbRec) : s.LogStep (s.fbDrop r) := by
  unfold State.fbDrop State.fbErr
  exact (State.LogStep.ofFb s _).trans (.ofEvent _ _ _ _ _ (by decide))

theorem State.LogStep.ofWrite (s : State) (r : FbRec) : s.LogStep (s.fbWrite r) := by
  have h0 : ∀ t : State, s.LogStep t → s.LogStep (if t.fb.flushing then { t with fb := { t.fb with flushWritten := t.fb.flushWritten - 1 } } else t) := by
    intro t h; split
    · exact h.trans (.ofFb t _)
    · exact h
  have h1 : s.LogStep (if s.fb.flushing then { s with fb := { s.fb with flushWritten := s.fb.flushWritten + 1 } } else s) := by
    split
    · exact .ofFb s _
    · exact .refl s
  unfold State.fbWrite
  generalize (if s.fb.flushing then { s with fb := { s.fb with flushWritten := s.fb.flushWritten + 1 } } else s) = u at h1
  simp only
  split
  · exact (h0 u h1).trans (.ofDrop ..)
  · split
    · split
      · exact h1.trans (.ofFb u _)
      · split
        · exact h1.trans (.ofFb u _)
        · exact (h0 u h1).trans (.ofDrop ..)
    · split
      · exact h1.trans (.ofFb u _)
      · split
        · exact h1.trans (.ofFb u _)
        · split
          · exact h1.trans (.ofFb u _)
          · exact (h0 u h1).trans (.ofDrop ..)

theorem State.LogStep.ofFold {α : Type} (f : State → α → State) (h : ∀ (t : State) (x : α), t.LogStep (f t x)) (l : List α) (s : State) :
    s.LogStep (l.foldl f s) := by
  induction l generalizing s with
  | nil => exact .refl s
  | cons x l ih => exact (h s x).trans (ih (f s x))

theorem State.LogStep.ofWriteAll (s : State) (l : List FbRec) : s.LogStep (s.fbWriteAll l) :=
  .ofFold _ (fun s r => .ofWrite s r) l s

theorem State.LogStep.ofWritePending (s : State) : s.LogStep s.fbWritePending := by
  unfold State.fbWritePending
  exact (State.LogStep.ofFb s _).trans (.ofWriteAll ..)

theorem State.LogStep.ofBuffer (s : State) (r : FbRec) : s.LogStep (s.fbBuffer r) := by
  have h : ∀ (p q : Prop) [Decidable p] [Decidable q] (x y z : State), s.LogStep x → s.LogStep y → s.LogStep z →
      s.LogStep (if p then x else if q then y else z) := by
    intro p q _ _ x y z hx hy hz; split
    · exact hx
    · split <;> assumption
  unfold State.fbBuffer State.fbWriteBuffer
  exact h _ _ _ _ _ (.ofDrop ..) ((State.LogStep.ofFb s _).trans ((State.LogStep.ofFb _ _).trans (.ofWriteAll ..))) (.ofFb s _)

theorem State.LogStep.ofMake (s : State) (diag fatal : Bool) (code sev scope p0 p1 p2 p3 set : Nat) (vals : List Nat) :
    s.LogStep (s.fbMake diag fatal code sev scope p0 p1 p2 p3 set vals).2 := ⟨rfl, fun _ _ => rfl⟩

theorem State.LogStep.ofUnfreeze (s : State) : s.LogStep s.unfreeze := by
  unfold State.unfreeze
  exact ((State.LogStep.ofFb s _).trans (.ofSet _ _ _ _ (by decide))).trans (.ofSet _ _ _ _ (by decide))

theorem State.LogStep.ofExportStop (s : State) : s.LogStep s.exportStop := by
  unfold State.exportStop State.fbErr
  exact ((State.LogStep.ofFb s _).trans (.ofSet _ _ _ _ (by decide))).trans (.ofEvent _ _ _ _ _ (by decide))

theorem State.LogStep.ofStoreDiag (s : State) (r : FbRec) : s.LogStep (s.fbStoreDiag r) := by
  unfold State.fbStoreDiag
  split
  · exact .ofDrop ..
  · split
    · exact .ofWrite ..
    · split
      · exact .ofBuffer ..
      · exact .ofWrite ..

theorem State.LogStep.ofDiagnose (s : State) (fatal : Bool) (r : FbRec) : s.LogStep (s.diagnose fatal r) :=
  .ofFold _ (fun t k => (State.LogStep.ofMake t true fatal r.code r.sev r.scope r.p0 r.p1 r.p2 r.p3 (t.get R.FB_DIAG_TRIG_SET k)
    (t.selected (t.get R.FB_DIAG_TRIG_SET k))).trans (.ofStoreDiag _ _)) _ _

theorem State.LogStep.ofBreak (s : State) (r : FbRec) : s.LogStep (s.fbBreak r) := by
  have hex : s.LogStep (if s.fb.exporting then
      (let (e, t) := s.exportRecord true false
       ([e], (t.postAdmin (t.fb.exAddr + t.fb.exCount * (if t.fb.exDiag then 320 else 64)) e.bytes).exportStop))
      else ([], s)).2 := by
    split
    · exact ((State.LogStep.ofMake s ..).trans (.ofPost _ _)).trans (.ofExportStop _)
    · exact .refl s
  unfold State.fbBreak State.fbErr
  simp only
  generalize (if s.fb.exporting then
      (let (e, t) := s.exportRecord true false
       ([e], (t.postAdmin (t.fb.exAddr + t.fb.exCount * (if t.fb.exDiag then 320 else 64)) e.bytes).exportStop))
      else ([], s)) = x at hex ⊢
  exact (((((((hex.trans (.ofUnfreeze _)).trans (.ofWritePending _)).trans (.ofWrite _ _)).trans (.ofWriteAll _ _)).trans
    (.ofMake _ _ _ _ _ _ _ _ _ _ _ _)).trans (.ofWrite _ _)).trans (.ofEvent _ _ _ _ _ (by decide))).trans
      (.ofFold _ (fun t x => .ofDiagnose t false x) _ _)

theorem State.LogStep.ofStore (s : State) (cmd : Bool) (r : FbRec) : s.LogStep (s.fbStore cmd r) := by
  unfold State.fbStore
  split
  · exact .ofDrop ..
  · split
    · exact .ofWrite ..
    · split
      · split
        · exact .ofFb s _
        · exact .ofBreak ..
      · split
        · exact .ofBuffer ..
        · split
          · exact .ofWrite ..
          · split
            · exact (State.LogStep.ofFb s _).trans (.ofWrite ..)
            · split
              · exact .ofFb s _
              · exact .ofDrop ..

/-- What a record changes. -/
theorem State.LogStep.ofRecordAs (s : State) (cmd fatal : Bool) (code sev scope p0 p1 p2 p3 : Nat) :
    s.LogStep (s.recordAs cmd fatal code sev scope p0 p1 p2 p3) := by
  have h1 := State.LogStep.ofMake s false fatal code sev scope p0 p1 p2 p3 0 []
  exact (h1.trans (.ofStore _ cmd (s.fbMake false fatal code sev scope p0 p1 p2 p3 0 []).1)).trans (.ofDiagnose _ fatal _)

theorem State.LogStep.ofRecord (s : State) (code sev scope p0 p1 p2 p3 : Nat) :
    s.LogStep (s.record code sev scope p0 p1 p2 p3) := .ofRecordAs ..

/-- A field outside the Fieldbook's block reads as before. -/
theorem State.LogStep.get {s t : State} (h : s.LogStep t) (f : Field) (i : Nat) (hf : f.key i / 64 / 0x10000 ≠ 0xF) :
    t.get f i = s.get f i := by
  simp only [State.get, h.regs _ hf]

theorem State.LogStep.pending {s t : State} (h : s.LogStep t) : t.pending = s.pending := by rw [h.rest]
theorem State.LogStep.frameNo {s t : State} (h : s.LogStep t) : t.frameNo = s.frameNo := by rw [h.rest]
theorem State.LogStep.shadows {s t : State} (h : s.LogStep t) : t.shadows = s.shadows := by rw [h.rest]
theorem State.LogStep.cover {s t : State} (h : s.LogStep t) : t.cover = s.cover := by rw [h.rest]
theorem State.LogStep.glb {s t : State} (h : s.LogStep t) : t.glb = s.glb := by rw [h.rest]
theorem State.LogStep.trv {s t : State} (h : s.LogStep t) : t.trv = s.trv := by rw [h.rest]
theorem State.LogStep.tuStore {s t : State} (h : s.LogStep t) : t.tuStore = s.tuStore := by rw [h.rest]
theorem State.LogStep.pkStore {s t : State} (h : s.LogStep t) : t.pkStore = s.pkStore := by rw [h.rest]
theorem State.LogStep.luStore {s t : State} (h : s.LogStep t) : t.luStore = s.luStore := by rw [h.rest]
theorem State.LogStep.tiles {s t : State} (h : s.LogStep t) : t.tiles = s.tiles := by rw [h.rest]
theorem State.LogStep.ks {s t : State} (h : s.LogStep t) : t.ks = s.ks := by rw [h.rest]
theorem State.LogStep.rng {s t : State} (h : s.LogStep t) : t.rng = s.rng := by rw [h.rest]
theorem State.LogStep.otp {s t : State} (h : s.LogStep t) : t.otp = s.otp := by rw [h.rest]
theorem State.LogStep.sessions {s t : State} (h : s.LogStep t) : t.sessions = s.sessions := by rw [h.rest]
theorem State.LogStep.lc {s t : State} (h : s.LogStep t) : t.lc = s.lc := by rw [h.rest]
theorem State.LogStep.net {s t : State} (h : s.LogStep t) : t.net = s.net := by rw [h.rest]
theorem State.LogStep.tmp {s t : State} (h : s.LogStep t) : t.tmp = s.tmp := by rw [h.rest]
theorem State.LogStep.fab {s t : State} (h : s.LogStep t) : t.fab = s.fab := by rw [h.rest]
theorem State.LogStep.upd {s t : State} (h : s.LogStep t) : t.upd = s.upd := by rw [h.rest]
theorem State.LogStep.dose {s t : State} (h : s.LogStep t) : t.dose = s.dose := by rw [h.rest]
theorem State.LogStep.clk {s t : State} (h : s.LogStep t) : t.clk = s.clk := by rw [h.rest]

end Sys2Proof.Machine
end

