-- ==== Sys2Proof/Laws/Tiles.lean ====
section
/-! SUPPORT. What the slots of a routine let change: the bytes of its slots, the rows and the table of slots (R149 to R157). -/

namespace Sys2Proof.Machine

theorem Memory.get_filter (m : List Host.Cell) (p : Host.Cell → Bool) (a : Nat) (h : ∀ x, p (a, x) = true) :
    Tab.get 0 (m.filter p) a = Tab.get 0 m a := by
  induction m with
  | nil => rfl
  | cons e m ih =>
    obtain ⟨i, x⟩ := e
    by_cases hi : i = a
    · subst hi; rw [List.filter_cons, if_pos (h x)]; simp [Tab.get]
    · rw [List.filter_cons]; split <;> (simp only [Tab.get, hi, if_false]; exact ih)

theorem ramPut_get (m : List Host.Cell) (a : Nat) (data : Bytes) (b : Nat) (h : b < a ∨ a + data.length ≤ b) :
    Tab.get 0 (ramPut m a data) b = Tab.get 0 m b := by
  induction data generalizing m a with
  | nil => rfl
  | cons x xs ih =>
    simp only [List.length_cons] at h
    have : Tab.get 0 (ramPut (Tab.put 0 m a x) (a + 1) xs) b = Tab.get 0 m b :=
      (ih _ _ (by omega)).trans (Tab.get_put_other 0 m x (by omega))
    exact this

/-- From `s` to `t` only the tiles and the bytes of the slots that `ks` names change. -/
structure State.SlotsOnly (ks : Nat → Prop) (s t : State) : Prop where
  bytes : ∀ a, (∀ k, ks k → a < slotBase k ∨ slotBase k + slotSize k ≤ a) → t.ramByte a = s.ramByte a
  rest : t = { s with tiles := t.tiles, fab := { s.fab with ram := t.fab.ram } }

theorem State.SlotsOnly.refl (ks : Nat → Prop) (s : State) : s.SlotsOnly ks s := ⟨fun _ _ => rfl, rfl⟩
theorem State.SlotsOnly.trans {ks : Nat → Prop} {s t u : State} (h : s.SlotsOnly ks t) (g : t.SlotsOnly ks u) : s.SlotsOnly ks u :=
  ⟨fun a ha => (g.bytes a ha).trans (h.bytes a ha), by rw [g.rest, h.rest]⟩
theorem State.SlotsOnly.ofWrite {ks : Nat → Prop} (s : State) (k off : Nat) (data : Bytes) (h : ks k) :
    s.SlotsOnly ks (s.slotWrite k off data) := by
  refine ⟨fun a ha => ?_, rfl⟩
  have := ha k h
  apply ramPut_get
  simp only [List.length_take]; omega
theorem State.SlotsOnly.ofClearOne {ks : Nat → Prop} (s : State) (k : Nat) (h : ks k) : s.SlotsOnly ks (s.slotClear k) := by
  refine ⟨fun a ha => ?_, rfl⟩
  have := ha k h
  apply Memory.get_filter; intro x; simpa using this
theorem State.SlotsOnly.ofTiles {ks : Nat → Prop} (s : State) (x : Tiles) : s.SlotsOnly ks { s with tiles := x } :=
  ⟨fun _ _ => rfl, rfl⟩

/-- A fold of steps that each keep to the slots of `ks`, over slots that `ks` names. -/
theorem State.SlotsOnly.foldl {ks : Nat → Prop} (f : State → Nat → State) (h : ∀ (t : State) k, ks k → t.SlotsOnly ks (f t k))
    (l : List Nat) (s : State) (hl : ∀ k ∈ l, ks k) : s.SlotsOnly ks (l.foldl f s) := by
  induction l generalizing s with
  | nil => exact .refl ks s
  | cons k l ih =>
    exact (h s k (hl k (List.mem_cons_self))).trans (ih _ (fun j hj => hl j (List.mem_cons_of_mem _ hj)))

/-- The slots a command holds in `s`, as a predicate. -/
def State.holdsSlot (s : State) (id k : Nat) : Prop := k ∈ s.heldSlots id

theorem State.SlotsOnly.ofClear (s : State) (id : Nat) : s.SlotsOnly (s.holdsSlot id) (s.slotsClear id) :=
  .foldl (fun (t : State) k => t.slotClear k) (fun t k h => .ofClearOne t k h) _ s (fun _ h => h)
theorem State.SlotsOnly.ofLoad (s : State) (c : Cmd) (key : Bool → Bytes) : s.SlotsOnly (s.holdsSlot c.id) (s.slotsLoad c key) :=
  .foldl (fun (t : State) k => t.slotWrite k (slotSecret k) (key (decide (128 ≤ k)))) (fun t k h => .ofWrite t k _ _ h) _ s (fun _ h => h)
theorem State.SlotsOnly.ofSubst (s : State) (c : Cmd) : s.SlotsOnly (s.holdsSlot c.id) (s.slotsSubst c) := by
  unfold State.slotsSubst
  exact .foldl _ (fun t k h => .ofWrite t k _ _ h) _ s (fun _ h => h)

/-- The operations of a row write into its slot alone. -/
theorem State.SlotsOnly.ofRowOp {ks : Nat → Prop} (s : State) (k : Nat) (row : TileRow) (op : RowOp) (h : ks k) :
    s.SlotsOnly ks (s.rowOp k row op).1 := by
  unfold State.rowOp; dsimp only; split
  · exact .refl ks s
  · cases op <;> first | exact .refl ks s | exact .ofWrite s k _ _ h

/-- The slots of a command in a table of slots. -/
def slotsOf_ (l : Tab TileSlot) (id : Nat) : List Nat := (l.filter (fun e => e.2.cmd == id && id != 0)).map (·.1)

/-- A saved accumulator changes no slot's command. -/
theorem TileRow.save_held (row : TileRow) (l : Tab TileSlot) (id : Nat) : slotsOf_ (row.save l) id = slotsOf_ l id := by
  unfold TileRow.save; split
  · rename_i j _
    unfold slotsOf_
    induction l with
    | nil => rfl
    | cons e l ih =>
      obtain ⟨i, x⟩ := e
      rw [List.map_cons, List.filter_cons, List.filter_cons]
      by_cases hi : i = j
      · simp only [hi, if_true]; split <;> simp_all
      · simp only [hi, if_false]; split <;> simp_all
  · rfl
theorem TileRow.saves_held (rows : Tab TileRow) (l : Tab TileSlot) (id : Nat) :
    slotsOf_ (rows.foldl (fun t e => e.2.save t) l) id = slotsOf_ l id := by
  induction rows generalizing l with
  | nil => rfl
  | cons e rows ih => rw [List.foldl_cons, ih, TileRow.save_held]

/-- A row that takes a slot changes neither memory nor which slots a command holds. -/
theorem State.rowTake_held (s : State) (r k id : Nat) : (s.rowTake r k).heldSlots id = s.heldSlots id := by
  unfold State.rowTake; dsimp only; split
  · rfl
  · exact (TileRow.saves_held ..).trans (TileRow.save_held ..)
theorem State.SlotsOnly.ofRowTake {ks : Nat → Prop} (s : State) (r k : Nat) : s.SlotsOnly ks (s.rowTake r k) := by
  unfold State.rowTake; dsimp only; split
  · exact .refl ks s
  · exact .ofTiles ..

theorem State.rowOp_held (s : State) (k : Nat) (row : TileRow) (op : RowOp) (id : Nat) :
    (s.rowOp k row op).1.heldSlots id = s.heldSlots id := by
  unfold State.rowOp; dsimp only; split
  · rfl
  · cases op <;> rfl

/-- The operations of a piece on its row. -/
theorem State.SlotsOnly.ofRowRun {ks : Nat → Prop} (s : State) (r k : Nat) (b : Bool) (ops : List RowOp) (h : ks k) :
    s.SlotsOnly ks (s.rowRun r k b ops) ∧ ∀ id, (s.rowRun r k b ops).heldSlots id = s.heldSlots id := by
  have run (x : State × TileRow) :
      let y := ops.foldl (fun x op => if b && readsSecret k x.2 op then x else x.1.rowOp k x.2 op) x
      x.1.SlotsOnly ks y.1 ∧ ∀ id, y.1.heldSlots id = x.1.heldSlots id := by
    induction ops generalizing x with
    | nil => exact ⟨.refl ks _, fun _ => rfl⟩
    | cons op ops ih =>
      rw [List.foldl_cons]; split
      · exact ih x
      · exact ⟨(SlotsOnly.ofRowOp x.1 k x.2 op h).trans (ih _).1, fun id => ((ih _).2 id).trans (State.rowOp_held ..)⟩
  unfold State.rowRun; dsimp only
  have g := run (s.rowTake r k, (s.rowTake r k).tileRow r)
  exact ⟨((SlotsOnly.ofRowTake s r k).trans g.1).trans (.ofTiles ..), fun id => (g.2 id).trans (s.rowTake_held r k id)⟩

/-- One eighth of a command. -/
theorem State.SlotsOnly.ofEighth {ks : Nat → Prop} (s : State) (c : Cmd) (r k half g : Nat) (h : ks k) :
    s.SlotsOnly ks (s.eighthRun c r k half g) ∧ ∀ id, (s.eighthRun c r k half g).heldSlots id = s.heldSlots id := by
  unfold State.eighthRun; dsimp only; split
  · exact ⟨(SlotsOnly.ofWrite s k 0 _ h).trans (SlotsOnly.ofRowRun _ r k _ _ h).1, fun id => (SlotsOnly.ofRowRun (ks := ks) _ r k _ _ h).2 id⟩
  · exact SlotsOnly.ofRowRun s r k _ _ h
theorem State.SlotsOnly.ofEighths {ks : Nat → Prop} (c : Cmd) (r k half g : Nat) (h : ks k) (l : List Nat) (s : State) :
    let t := l.foldl (fun t i => t.eighthRun c r k half (g + i)) s
    s.SlotsOnly ks t ∧ ∀ id, t.heldSlots id = s.heldSlots id := by
  induction l generalizing s with
  | nil => exact ⟨.refl ks s, fun _ => rfl⟩
  | cons i l ih =>
    have a := SlotsOnly.ofEighth (ks := ks) s c r k half (g + i) h
    have b := ih (s.eighthRun c r k half (g + i))
    exact ⟨a.1.trans b.1, fun id => (b.2 id).trans (a.2 id)⟩

theorem State.slotFor_held {s : State} {id half k : Nat} {lattice : Bool} (h : s.slotFor id half lattice = some k) :
    s.holdsSlot id k := List.mem_of_find?_eq_some h

theorem State.SlotsOnly.ofPieces (s : State) (c : Cmd) : s.SlotsOnly (s.holdsSlot c.id) (s.piecesRun c) := by
  unfold State.piecesRun
  generalize (s.tiles.plan.filter (fun p => p.cmd == c.id)) = l
  generalize ha : (s, ([] : Tab Nat)) = a
  have h : s.SlotsOnly (s.holdsSlot c.id) a.1 := by subst ha; exact .refl _ s
  have hh : a.1.heldSlots c.id = s.heldSlots c.id := by subst ha; rfl
  clear ha
  induction l generalizing a with
  | nil => exact h
  | cons p l ih =>
    rw [List.foldl_cons]; dsimp only; split
    · rename_i k hk
      have hk' : s.holdsSlot c.id k := by
        have := State.slotFor_held hk; unfold State.holdsSlot at *; rw [← hh]; exact this
      have g := SlotsOnly.ofEighths (ks := s.holdsSlot c.id) c p.row k p.half
        (Tab.get (eighthsBefore (decide (32 ≤ p.row)) c p.half) a.2 (2 * p.half + b2n (decide (32 ≤ p.row)))) hk' (List.range p.eighths) a.1
      exact ih _ (h.trans g.1) ((g.2 c.id).trans hh)
    · exact ih a h hh

theorem State.slotsLoad_held (s : State) (c : Cmd) (key : Bool → Bytes) (id : Nat) : (s.slotsLoad c key).heldSlots id = s.heldSlots id := by
  unfold State.slotsLoad
  generalize s.heldSlots c.id = l
  induction l generalizing s with
  | nil => rfl
  | cons k l ih => rw [List.foldl_cons, ih]; rfl
theorem State.slotsSubst_held (s : State) (c : Cmd) (id : Nat) : (s.slotsSubst c).heldSlots id = s.heldSlots id := by
  unfold State.slotsSubst
  generalize s.heldSlots c.id = l
  induction l generalizing s with
  | nil => rfl
  | cons k l ih => rw [List.foldl_cons, ih]; rfl

/-- The slots of a routine after its step, cleared or worked on: no byte outside them changes, and no state but the tiles. -/
theorem State.SlotsOnly.ofAfter (s : State) (c : Cmd) : s.SlotsOnly (s.holdsSlot c.id) (s.tilesAfter c) := by
  unfold State.tilesAfter; split
  · exact .refl ..
  · split
    · exact .ofClear ..
    · dsimp only; split
      · exact .ofClear ..
      · generalize ht : (if c.step ≠ 1 then s else _) = t
        have : s.SlotsOnly (s.holdsSlot c.id) t ∧ t.heldSlots c.id = s.heldSlots c.id := by
          subst ht
          repeat' split
          all_goals first | exact ⟨.refl .., rfl⟩ | exact ⟨.ofSubst .., State.slotsSubst_held ..⟩ | exact ⟨.ofLoad .., State.slotsLoad_held ..⟩
        rename_i x _ _
        have g := SlotsOnly.ofPieces t { c with subst := x.subst }
        have e : t.holdsSlot c.id = s.holdsSlot c.id := by funext k; unfold State.holdsSlot; rw [this.2]
        rw [e] at g
        exact this.1.trans g
theorem State.SlotsOnly.cmd? {ks : Nat → Prop} {s t : State} (h : s.SlotsOnly ks t) (n : Nat) : t.cmd? n = s.cmd? n := by
  rw [h.rest]; rfl

end Sys2Proof.Machine
end

