-- ==== Sys2Proof/Laws/Wires.lean ====
section
/-! SUPPORT. What the end of every meaning does: it brings the outputs up to the state and changes nothing else. -/

namespace Sys2Proof.Machine

@[simp] theorem State.wires_pending (s : State) : s.wires.pending = s.pending := by
  simp only [State.wires, State.wireTamperOut, State.wireArmed, State.wireToken, State.wireDamaged, State.put1_eq, State.set_pending]
@[simp] theorem State.wires_frameNo (s : State) : s.wires.frameNo = s.frameNo := by
  simp only [State.wires, State.wireTamperOut, State.wireArmed, State.wireToken, State.wireDamaged, State.put1_eq, State.set_frameNo]
@[simp] theorem State.wires_free (s : State) : s.wires.free = s.free := by
  simp only [State.wires, State.wireTamperOut, State.wireArmed, State.wireToken, State.wireDamaged, State.put1_eq, State.set_free]
@[simp] theorem State.wires_shadows (s : State) : s.wires.shadows = s.shadows := by
  simp only [State.wires, State.wireTamperOut, State.wireArmed, State.wireToken, State.wireDamaged, State.put1_eq, State.set_shadows]
@[simp] theorem State.wires_cover (s : State) : s.wires.cover = s.cover := by
  simp only [State.wires, State.wireTamperOut, State.wireArmed, State.wireToken, State.wireDamaged, State.put1_eq, State.set_cover]
@[simp] theorem State.wires_glb (s : State) : s.wires.glb = s.glb := by
  simp only [State.wires, State.wireTamperOut, State.wireArmed, State.wireToken, State.wireDamaged, State.put1_eq, State.set_glb]
@[simp] theorem State.wires_hif (s : State) : s.wires.hif = s.hif := by
  simp only [State.wires, State.wireTamperOut, State.wireArmed, State.wireToken, State.wireDamaged, State.put1_eq, State.set_hif]
@[simp] theorem State.wires_trv (s : State) : s.wires.trv = s.trv := by
  simp only [State.wires, State.wireTamperOut, State.wireArmed, State.wireToken, State.wireDamaged, State.put1_eq, State.set_trv]
@[simp] theorem State.wires_tuStore (s : State) : s.wires.tuStore = s.tuStore := by
  simp only [State.wires, State.wireTamperOut, State.wireArmed, State.wireToken, State.wireDamaged, State.put1_eq, State.set_tuStore]
@[simp] theorem State.wires_pkStore (s : State) : s.wires.pkStore = s.pkStore := by
  simp only [State.wires, State.wireTamperOut, State.wireArmed, State.wireToken, State.wireDamaged, State.put1_eq, State.set_pkStore]
@[simp] theorem State.wires_luStore (s : State) : s.wires.luStore = s.luStore := by
  simp only [State.wires, State.wireTamperOut, State.wireArmed, State.wireToken, State.wireDamaged, State.put1_eq, State.set_luStore]
@[simp] theorem State.wires_tiles (s : State) : s.wires.tiles = s.tiles := by
  simp only [State.wires, State.wireTamperOut, State.wireArmed, State.wireToken, State.wireDamaged, State.put1_eq, State.set_tiles]
@[simp] theorem State.wires_ks (s : State) : s.wires.ks = s.ks := by
  simp only [State.wires, State.wireTamperOut, State.wireArmed, State.wireToken, State.wireDamaged, State.put1_eq, State.set_ks]
@[simp] theorem State.wires_fb (s : State) : s.wires.fb = s.fb := by
  simp only [State.wires, State.wireTamperOut, State.wireArmed, State.wireToken, State.wireDamaged, State.put1_eq, State.set_fb]
@[simp] theorem State.wires_rng (s : State) : s.wires.rng = s.rng := by
  simp only [State.wires, State.wireTamperOut, State.wireArmed, State.wireToken, State.wireDamaged, State.put1_eq, State.set_rng]
@[simp] theorem State.wires_otp (s : State) : s.wires.otp = s.otp := by
  simp only [State.wires, State.wireTamperOut, State.wireArmed, State.wireToken, State.wireDamaged, State.put1_eq, State.set_otp]
@[simp] theorem State.wires_sessions (s : State) : s.wires.sessions = s.sessions := by
  simp only [State.wires, State.wireTamperOut, State.wireArmed, State.wireToken, State.wireDamaged, State.put1_eq, State.set_sessions]
@[simp] theorem State.wires_lc (s : State) : s.wires.lc = s.lc := by
  simp only [State.wires, State.wireTamperOut, State.wireArmed, State.wireToken, State.wireDamaged, State.put1_eq, State.set_lc]
@[simp] theorem State.wires_net (s : State) : s.wires.net = s.net := by
  simp only [State.wires, State.wireTamperOut, State.wireArmed, State.wireToken, State.wireDamaged, State.put1_eq, State.set_net]
@[simp] theorem State.wires_fab (s : State) : s.wires.fab = s.fab := by
  simp only [State.wires, State.wireTamperOut, State.wireArmed, State.wireToken, State.wireDamaged, State.put1_eq, State.set_fab]
@[simp] theorem State.wires_upd (s : State) : s.wires.upd = s.upd := by
  simp only [State.wires, State.wireTamperOut, State.wireArmed, State.wireToken, State.wireDamaged, State.put1_eq, State.set_upd]
@[simp] theorem State.wires_dose (s : State) : s.wires.dose = s.dose := by
  simp only [State.wires, State.wireTamperOut, State.wireArmed, State.wireToken, State.wireDamaged, State.put1_eq, State.set_dose]
@[simp] theorem State.wires_clk (s : State) : s.wires.clk = s.clk := by
  simp only [State.wires, State.wireTamperOut, State.wireArmed, State.wireToken, State.wireDamaged, State.put1_eq, State.set_clk]

/-- The keys of the register fields that `wires` writes. -/
def wiredKeys : List Nat :=
  [R.LC_OTP_DAMAGED_FIELDS.key 0, R.LC_OTP_DAMAGED_TABLES.key 0, R.LC_OTP_STS_ANY_DAMAGED.key 0, R.LC_TOKEN_STATE.key 0,
   R.TMP_STS_ARMED.key 0, R.MGT_PIN_STS_TAMPER_OUT.key 0]

theorem State.get_wireDamaged (s : State) (f : Field) (i : Nat) (h1 : R.LC_OTP_DAMAGED_FIELDS.key 0 ≠ f.key i)
    (h2 : R.LC_OTP_DAMAGED_TABLES.key 0 ≠ f.key i) (h3 : R.LC_OTP_STS_ANY_DAMAGED.key 0 ≠ f.key i) :
    s.wireDamaged.get f i = s.get f i := by
  simp only [State.wireDamaged, State.put1_eq]
  rw [State.get_set_other _ _ _ _ _ _ h3, State.get_set_other _ _ _ _ _ _ h2, State.get_set_other _ _ _ _ _ _ h1]

theorem State.get_wireToken (s : State) (f : Field) (i : Nat) (h : R.LC_TOKEN_STATE.key 0 ≠ f.key i) :
    s.wireToken.get f i = s.get f i := State.get_set_other _ _ _ _ _ _ h

theorem State.get_wireArmed (s : State) (f : Field) (i : Nat) (h : R.TMP_STS_ARMED.key 0 ≠ f.key i) :
    s.wireArmed.get f i = s.get f i := State.get_set_other _ _ _ _ _ _ h

theorem State.get_wireTamperOut (s : State) (f : Field) (i : Nat) (h : R.MGT_PIN_STS_TAMPER_OUT.key 0 ≠ f.key i) :
    s.wireTamperOut.get f i = s.get f i := State.get_set_other _ _ _ _ _ _ h

/-- `wires` changes no register field but its outputs. -/
theorem State.get_wires (s : State) (f : Field) (i : Nat) (h : f.key i ∉ wiredKeys) : s.wires.get f i = s.get f i := by
  simp only [wiredKeys, List.mem_cons, List.not_mem_nil, or_false, not_or] at h
  obtain ⟨h1, h2, h3, h4, h5, h6⟩ := h
  rw [State.wires, State.get_wireTamperOut _ _ _ (Ne.symm h6), State.get_wireArmed _ _ _ (Ne.symm h5),
    State.get_wireToken _ _ _ (Ne.symm h4), State.get_wireDamaged _ _ _ (Ne.symm h1) (Ne.symm h2) (Ne.symm h3)]

theorem State.wireTamperOut_tmp (s : State) :
    s.wireTamperOut.tmp = { s.tmp with outLatch := s.tmp.outLatch && s.get R.TMP_BAT_EVT_EVT != 0 } := (rfl)

/-- `wires` changes no tamper state but the latch of TAMPER_OUT. -/
theorem State.wires_tmp (s : State) :
    s.wires.tmp = { s.tmp with outLatch := s.tmp.outLatch && s.get R.TMP_BAT_EVT_EVT != 0 } := by
  have h : (s.wireDamaged.wireToken.wireArmed).get R.TMP_BAT_EVT_EVT 0 = s.get R.TMP_BAT_EVT_EVT 0 := by
    rw [State.get_wireArmed _ _ _ (by decide), State.get_wireToken _ _ _ (by decide),
      State.get_wireDamaged _ _ _ (by decide) (by decide) (by decide)]
  have h2 : (s.wireDamaged.wireToken.wireArmed).tmp = s.tmp := by
    simp only [State.wireArmed, State.wireToken, State.wireDamaged, State.put1_eq, State.set_tmp]
  rw [State.wires, State.wireTamperOut_tmp, h, h2]

/-! ## The numbers that masks spell -/

theorem maskOf_lt (p : Nat → Bool) (n : Nat) : maskOf p n < 2 ^ n := by
  induction n with
  | zero => exact Nat.one_pos
  | succ n ih => cases h : p n <;> simp [maskOf, h, Nat.pow_succ] <;> omega

theorem maskOf_testBit (p : Nat → Bool) (n k : Nat) : (maskOf p n).testBit k = (decide (k < n) && p k) := by
  induction n with
  | zero => simp [maskOf]
  | succ n ih =>
    have hlt := maskOf_lt p n
    by_cases hk : k = n
    · subst hk
      cases h : p k
      · simp [maskOf, h, ih]
      · rw [maskOf, h, b2n_true, Nat.one_mul, Nat.add_comm, Nat.testBit_two_pow_add_eq, ih]; simp
    · cases h : p n
      · simp only [maskOf, h, b2n_false, Nat.zero_mul, Nat.add_zero, ih]
        congr 1; simp; omega
      · rw [maskOf, h, b2n_true, Nat.one_mul, Nat.add_comm]
        by_cases hlt2 : k < n
        · rw [Nat.testBit_two_pow_add_gt hlt2, ih]; simp [hlt2]; omega
        · have : 2 ^ n + maskOf p n < 2 ^ k :=
            Nat.lt_of_lt_of_le (by rw [Nat.pow_succ]; omega) (Nat.pow_le_pow_right (by decide) (by omega : n + 1 ≤ k))
          rw [Nat.testBit_lt_two_pow this]; simp; omega

theorem maskOf_ne_zero (p : Nat → Bool) (n : Nat) : maskOf p n ≠ 0 ↔ ∃ k, k < n ∧ p k = true := by
  constructor
  · intro h
    obtain ⟨k, hk⟩ := Nat.exists_testBit_of_ne_zero h
    rw [maskOf_testBit] at hk
    exact ⟨k, by simpa using hk⟩
  · rintro ⟨k, h1, h2⟩ h
    have := maskOf_testBit p n k
    simp [h, h1, h2] at this

/-! ## The outputs after `wires` -/

theorem State.get_wires_other4 (s : State) (f : Field) (i : Nat) (h1 : R.LC_TOKEN_STATE.key 0 ≠ f.key i)
    (h2 : R.TMP_STS_ARMED.key 0 ≠ f.key i) (h3 : R.MGT_PIN_STS_TAMPER_OUT.key 0 ≠ f.key i) :
    s.wires.get f i = s.wireDamaged.get f i := by
  rw [State.wires, State.get_wireTamperOut _ _ _ h3, State.get_wireArmed _ _ _ h2, State.get_wireToken _ _ _ h1]

theorem State.wires_otpAt (s : State) (code : Nat) : s.wires.otpAt code = s.otpAt code := by
  simp only [State.otpAt, State.wires_otp]

theorem State.wires_token (s : State) : s.wires.tokenFollows := by
  rw [State.tokenFollows, State.get_wires s R.LC_STATE_CODE 0 (by decide), State.wires,
    State.get_wireTamperOut _ _ _ (by decide), State.get_wireArmed _ _ _ (by decide), State.wireToken,
    State.get_set_self _ _ _ _ (by decide), State.get_wireDamaged _ _ _ (by decide) (by decide) (by decide)]
  rfl

/-- ARMED is a function of the state code and TEST_ARM. -/
theorem State.armed_congr {s t : State} (h1 : t.get R.LC_STATE_CODE = s.get R.LC_STATE_CODE)
    (h2 : t.get R.TMP_CTL_TEST_ARM = s.get R.TMP_CTL_TEST_ARM) : t.armed = s.armed := by
  simp only [State.armed, State.on, h1, h2]

theorem State.wires_armed (s : State) : s.wires.armedFollows := by
  have h : s.wires.armed = s.wireDamaged.wireToken.armed := by
    apply State.armed_congr
    · rw [State.wires, State.get_wireTamperOut _ _ _ (by decide), State.get_wireArmed _ _ _ (by decide)]
    · rw [State.wires, State.get_wireTamperOut _ _ _ (by decide), State.get_wireArmed _ _ _ (by decide)]
  rw [State.armedFollows, h, State.on, State.wires, State.get_wireTamperOut _ _ _ (by decide)]
  exact State.on_set_self _ _ _ _ rfl

theorem State.tamperOut_congr {s t : State} (h1 : t.glb.powered = s.glb.powered) (h2 : t.tmp.outLatch = s.tmp.outLatch)
    (h3 : t.get R.TMP_STS_CLAMP = s.get R.TMP_STS_CLAMP) (h4 : t.get R.TMP_BAT_EVT_EVT = s.get R.TMP_BAT_EVT_EVT) :
    t.tamperOut = s.tamperOut := by
  simp only [State.tamperOut, State.on, h1, h2, h3, h4]

theorem State.wires_tamperOut (s : State) : s.wires.tamperOutFollows := by
  rw [State.tamperOutFollows, State.wires, State.wireTamperOut]
  simp only [State.put1_eq]
  rw [State.on_set_self _ _ _ _ (by decide)]
  symm
  apply State.tamperOut_congr
  · simp only [State.set_glb]
  · simp only [State.set_tmp]
  · rw [State.get_set_other _ _ _ _ _ _ (by decide)]
  · rw [State.get_set_other _ _ _ _ _ _ (by decide)]

theorem State.wires_damaged (s : State) : s.wires.damagedFollows := by
  have hF : s.wires.get R.LC_OTP_DAMAGED_FIELDS 0 = maskOf (fun k => (s.otpAt (k + 1)).damaged (k + 1)) 6 := by
    rw [State.get_wires_other4 _ _ _ (by decide) (by decide) (by decide), State.wireDamaged]
    simp only [State.put1_eq]
    rw [State.get_set_other _ _ _ _ _ _ (by decide), State.get_set_other _ _ _ _ _ _ (by decide),
      State.get_set_self _ _ _ _ (by decide)]
    exact Nat.mod_eq_of_lt (maskOf_lt _ 6)
  have hT : s.wires.get R.LC_OTP_DAMAGED_TABLES 0 = maskOf (fun k => (s.otpAt (k + 0x10)).damaged (k + 0x10)) 16 := by
    rw [State.get_wires_other4 _ _ _ (by decide) (by decide) (by decide), State.wireDamaged]
    simp only [State.put1_eq]
    rw [State.get_set_other _ _ _ _ _ _ (by decide), State.get_set_self _ _ _ _ (by decide)]
    exact Nat.mod_eq_of_lt (maskOf_lt _ 16)
  have hA : s.wires.on R.LC_OTP_STS_ANY_DAMAGED 0 =
      (maskOf (fun k => (s.otpAt (k + 1)).damaged (k + 1)) 6 +
        maskOf (fun k => (s.otpAt (k + 0x10)).damaged (k + 0x10)) 16 != 0) := by
    rw [State.on, State.get_wires_other4 _ _ _ (by decide) (by decide) (by decide), State.wireDamaged]
    exact State.on_set_self _ _ _ _ rfl
  refine ⟨fun k hk => ?_, fun k hk => ?_, ?_⟩
  · rw [hF, maskOf_testBit, State.wires_otpAt]; simp [hk]
  · rw [hT, maskOf_testBit, State.wires_otpAt]; simp [hk]
  · rw [hA]
    simp only [State.wires_otpAt, bne_iff_ne, ne_eq]
    have key : ∀ a b : Nat, ¬(a + b = 0) ↔ (a ≠ 0 ∨ b ≠ 0) := by omega
    rw [key, maskOf_ne_zero, maskOf_ne_zero]
    constructor
    · rintro (⟨k, hk, h⟩ | ⟨k, hk, h⟩)
      · refine ⟨k + 1, ?_, h⟩
        have : k = 0 ∨ k = 1 ∨ k = 2 ∨ k = 3 ∨ k = 4 ∨ k = 5 := by omega
        rcases this with rfl | rfl | rfl | rfl | rfl | rfl <;> decide
      · exact ⟨k + 0x10, List.mem_append_right _ (List.mem_map.2 ⟨k, List.mem_range.2 hk, rfl⟩), h⟩
    · rintro ⟨code, hc, h⟩
      rcases List.mem_append.1 hc with h1 | h1
      · simp only [List.mem_cons, List.not_mem_nil, or_false] at h1
        left
        exact ⟨code - 1, by omega, by rw [show code - 1 + 1 = code by omega]; exact h⟩
      · obtain ⟨k, hk, rfl⟩ := List.mem_map.1 h1
        exact Or.inr ⟨k, List.mem_range.1 hk, h⟩

/-- After `wires` the outputs follow the state. -/
theorem State.wires_follow (s : State) : s.wires.OutputsFollow :=
  ⟨s.wires_token, s.wires_armed, s.wires_tamperOut, s.wires_damaged⟩

/-- `wires` changes registers and the latch of TAMPER_OUT alone. -/
theorem State.wires_rest (s : State) :
    s.wires = { s with regs := s.wires.regs, tmp := { s.tmp with outLatch := s.wires.tmp.outLatch } } := by
  have h := s.wires_tmp
  have h_pending := s.wires_pending
  have h_frameNo := s.wires_frameNo
  have h_free := s.wires_free
  have h_shadows := s.wires_shadows
  have h_cover := s.wires_cover
  have h_glb := s.wires_glb
  have h_hif := s.wires_hif
  have h_trv := s.wires_trv
  have h_tuStore := s.wires_tuStore
  have h_pkStore := s.wires_pkStore
  have h_luStore := s.wires_luStore
  have h_tiles := s.wires_tiles
  have h_ks := s.wires_ks
  have h_fb := s.wires_fb
  have h_rng := s.wires_rng
  have h_otp := s.wires_otp
  have h_sessions := s.wires_sessions
  have h_lc := s.wires_lc
  have h_net := s.wires_net
  have h_fab := s.wires_fab
  have h_upd := s.wires_upd
  have h_dose := s.wires_dose
  have h_clk := s.wires_clk
  generalize s.wires = t at *
  cases t
  simp only at *
  subst h_pending h_frameNo h_free h_shadows h_cover h_glb h_hif h_trv h_tuStore h_pkStore h_luStore h_tiles h_ks h_fb h_rng h_otp h_sessions h_lc h_net h_fab h_upd h_dose h_clk h
  rfl

end Sys2Proof.Machine
end

