-- ==== Sys2Proof/Laws/Engine.lean ====
section
/-! SUPPORT. What the work of an opcode can change: never the table of in-flight commands nor its own command's number. -/

namespace Sys2Proof.Machine

/-- From `s` to `t` the in-flight commands stay, and only the key store, the record, the random numbers, Dose, the
host interface, the registers and the free numbers change. -/
structure State.WorkStep (s t : State) : Prop where
  rest : t = { s with free := t.free, regs := t.regs, hif := t.hif, fb := t.fb, ks := t.ks, rng := t.rng, dose := t.dose, trv := t.trv }
  cmds : t.trv.cmds = s.trv.cmds

theorem State.WorkStep.refl (s : State) : s.WorkStep s := ⟨rfl, rfl⟩
theorem State.WorkStep.trans {s t u : State} (h : s.WorkStep t) (g : t.WorkStep u) : s.WorkStep u :=
  ⟨by rw [g.rest, h.rest], g.cmds.trans h.cmds⟩
theorem State.LogStep.work {s t : State} (h : s.LogStep t) : s.WorkStep t :=
  ⟨by rw [h.rest], by rw [h.rest]⟩

theorem State.WorkStep.ofKs (s : State) (k : Ks) : s.WorkStep { s with ks := k } := ⟨rfl, rfl⟩
theorem State.WorkStep.ofSet (s : State) (f : Field) (i v : Nat) : s.WorkStep (s.set f i v) := ⟨rfl, rfl⟩
theorem State.WorkStep.ofBump (s : State) (f : Field) (n i : Nat) : s.WorkStep (s.bump f n i) := ⟨rfl, rfl⟩
theorem State.WorkStep.ofPost (s : State) (p : Post) : s.WorkStep (s.post p) := (State.LogStep.ofPost s p).work
theorem State.WorkStep.ofEvent (s : State) (f en : Field) (v m : Nat) : s.WorkStep (s.event f en v m) := by
  simp only [State.event]; split
  · exact .ofSet ..
  · exact (State.WorkStep.ofSet ..).trans (State.LogStep.ofMsix ..).work
theorem State.WorkStep.ofFold {α : Type} (f : State → α → State) (h : ∀ (t : State) (x : α), t.WorkStep (f t x)) (l : List α) (s : State) :
    s.WorkStep (l.foldl f s) := by
  induction l generalizing s with
  | nil => exact .refl s
  | cons x l ih => exact (h s x).trans (ih (f s x))

theorem State.WorkStep.ofDrawReserve (s : State) (n : Nat) : s.WorkStep (s.drawReserve n).2 := ⟨rfl, rfl⟩
theorem State.WorkStep.ofDraw (s : State) (c : Cmd) (n : Nat) : s.WorkStep (s.draw c n).2.2 := by
  exact State.WorkStep.ofDrawReserve s n
theorem State.WorkStep.ofDomain (s : State) (n : Nat) (f : Domain → Domain) : s.WorkStep (s.modDomain n f) := ⟨rfl, rfl⟩
theorem State.WorkStep.ofAbandon (s : State) (w : Window) (g : Bool) : s.WorkStep (s.abandon w g) := by
  unfold State.abandon; split
  · exact .refl s
  · dsimp only; split
    · exact (State.WorkStep.ofKs s _).trans (State.LogStep.ofRecord ..).work
    · exact .ofKs ..
theorem State.WorkStep.ofAbandonKey (s : State) (h : Nat) (g : Bool) : s.WorkStep (s.abandonKey h g) :=
  .ofFold _ (fun t w => .ofAbandon t w g) _ _
theorem State.WorkStep.ofKsFault (s : State) (f : Field) (a b : Nat) : s.WorkStep (s.ksFault f a b) := by
  have h : s.WorkStep (s.ksErrSet f a b) := by
    have e : ∀ t : State, s.WorkStep t → s.WorkStep (t.event f R.KS_IRQ_EN_EN 2 1) := fun t h => h.trans (.ofEvent t _ _ _ _)
    unfold State.ksErrSet; apply e; split
    · exact ((State.WorkStep.ofSet s _ _ _).trans (.ofSet _ _ _ _)).trans (.ofSet _ _ _ _)
    · exact .refl s
  exact h.trans (State.LogStep.ofRecord ..).work
theorem State.WorkStep.ofEvict (s : State) (k : KeyRec) (b : Bool) : s.WorkStep (s.evict k b) := by
  unfold State.evict; refine State.WorkStep.trans ?_ (.ofAbandonKey _ _ _)
  simp only; split
  · exact ⟨rfl, rfl⟩
  · split <;> exact ⟨rfl, rfl⟩
theorem State.WorkStep.ofLearn (s : State) (a b c d e f : Nat) : s.WorkStep (s.learn a b c d e f) := ⟨rfl, rfl⟩
theorem State.WorkStep.ofRaiseLeaf (s : State) (a b : Nat) : s.WorkStep (s.raiseLeaf a b) := ⟨rfl, rfl⟩
theorem State.WorkStep.ofDropLeaf (s : State) (k : LeafKind) (b : Nat) : s.WorkStep (s.dropLeaf k b) := by
  unfold State.dropLeaf; dsimp only; split <;> exact ⟨rfl, rfl⟩
theorem State.WorkStep.ofLeafWritten (s : State) (n : Nat) : s.WorkStep (s.leafWritten n) := ⟨rfl, rfl⟩
theorem State.WorkStep.ofFixNodes (s : State) (n : Nat) (m : Bool) : s.WorkStep (s.fixNodes n m) := by
  unfold State.fixNodes; dsimp only; split
  · exact .refl s
  · exact ((State.WorkStep.ofKs s _).trans (.ofLeafWritten _ n)).trans (.ofKsFault _ _ _ _)
theorem State.WorkStep.ofReadLeaf (s : State) (n : Nat) : s.WorkStep (s.readLeaf n).2 := by
  unfold State.readLeaf; split
  · exact .refl s
  · split
    · exact (State.WorkStep.ofKsFault ..).trans (.ofFixNodes ..)
    · dsimp only; split
      · exact .ofFixNodes ..
      · exact ((State.WorkStep.ofKs s _).trans (.ofKsFault ..)).trans (.ofFixNodes ..)
theorem State.WorkStep.ofAllocLeaf {s t : State} {k : LeafKind} {n o v : Nat} (h : s.allocLeaf k n o v = some t) : s.WorkStep t := by
  unfold State.allocLeaf at h; simp only at h; split at h
  · cases h
  · split at h
    · cases h
    · injection h with h; subst h; exact ⟨rfl, rfl⟩
theorem State.WorkStep.ofNextIv {s t : State} {b : Bytes} (h : s.nextIv = .ok (b, t)) : s.WorkStep t := by
  unfold State.nextIv at h; simp only at h; split at h
  · cases h
  · split at h
    · cases h
    · split at h
      · injection h with h; injection h with _ h; subst h; exact ⟨rfl, rfl⟩
      · split at h
        · cases h
        · rename_i n _; split at h
          · rename_i v u hr; split at h
            · injection h with h; injection h with _ h; subst h
              have g : s.WorkStep (s.readLeaf n).2 := State.WorkStep.ofReadLeaf s n
              rw [hr] at g
              exact (g.trans (.ofRaiseLeaf u _ _)).trans (.ofKs _ _)
            · cases h
          · cases h
theorem State.WorkStep.ofNeedLeaf (s : State) (k : LeafKind) (o : Nat) : s.WorkStep (s.needLeaf k o).2 := by
  unfold State.needLeaf; split
  · exact .refl s
  · exact .ofReadLeaf ..
theorem State.WorkStep.ofSealBlob {s t : State} {h e : Nat} {k : NewKey} {b : Bytes} (hs : s.sealBlob h e k = .ok (b, t)) :
    s.WorkStep t := by
  unfold State.sealBlob at hs; split at hs
  · cases hs
  · rename_i iv s1 hi; simp only at hs; split at hs
    · injection hs with hs; injection hs with _ hs; subst hs; exact .ofNextIv hi
    · injection hs with hs; injection hs with _ hs; subst hs; exact (State.WorkStep.ofNextIv hi).trans ⟨rfl, rfl⟩
theorem State.WorkStep.ofPersistent {s t : State} {n r i : Nat} (h : s.allocPersistent n r = .ok (i, t)) : s.WorkStep t := by
  unfold State.allocPersistent at h; simp only at h
  generalize (if s.get R.KS_SLICE_TAB_SIZE n = 0 then 0 else 2 ^ s.get R.KS_SLICE_TAB_SIZE n) = top at h
  split at h
  · cases h
  · split at h
    · injection h with h; injection h with _ h; subst h; exact ⟨rfl, rfl⟩
    · split at h
      · cases h
      · split at h
        · cases h
        · rename_i l _; split at h
          · cases h
          · rename_i x u hr
            injection h with h; injection h with _ h; subst h
            have g : s.WorkStep (s.readLeaf l).2 := State.WorkStep.ofReadLeaf s l
            rw [hr] at g
            exact (g.trans (.ofRaiseLeaf u _ _)).trans (.ofDomain _ _ _)
theorem State.WorkStep.ofEphemeral {s t : State} {n r i : Nat} (h : s.allocEphemeral n r = .ok (i, t)) : s.WorkStep t := by
  unfold State.allocEphemeral at h; simp only at h; split at h
  · cases h
  · split at h
    · cases h
    · injection h with h; injection h with _ h; subst h
      refine ((State.WorkStep.ofDomain s _ _).trans (State.WorkStep.ofFold _ (fun v k => .ofEvict v k false) _ _)).trans ⟨rfl, rfl⟩
theorem State.WorkStep.ofCreateOne {s t : State} {n e d i h : Nat} {k : NewKey} {b : Bytes}
    (hc : s.createOne n e d i k = .ok (h, b, t)) : s.WorkStep t := by
  unfold State.createOne at hc; simp only at hc; split at hc
  · cases hc
  · rename_i b1 u hs; split at hc
    · cases hc
    · rename_i w hv
      injection hc with hc; injection hc with _ hc; injection hc with _ hc; subst hc
      have hw : u.WorkStep w := by
        revert hv; split
        · intro hv; injection hv with hv; subst hv; exact .refl _
        · exact fun hv => .ofAllocLeaf hv
      exact (((State.WorkStep.ofSealBlob hs).trans hw).trans (.ofLearn ..)).trans (.ofDomain ..)
theorem State.WorkStep.ofCreateRun {n e d : Nat} (ks : List NewKey) : ∀ {s t : State} {i : Nat} {hs : List Nat} {b : Bytes},
    State.createRun n e d s i ks = .ok (hs, b, t) → s.WorkStep t := by
  induction ks with
  | nil => intro s t i hs b h; unfold State.createRun at h; injection h with h; injection h with _ h; injection h with _ h; subst h; exact .refl s
  | cons k ks ih =>
    intro s t i hs b h
    unfold State.createRun at h; split at h
    · cases h
    · rename_i h1; split at h
      · cases h
      · rename_i h2
        injection h with h; injection h with _ h; injection h with _ h; subst h
        exact (State.WorkStep.ofCreateOne h1).trans (ih h2)
theorem State.WorkStep.ofLink (s : State) (l : List Nat) : s.WorkStep (s.linkPair l) := by
  unfold State.linkPair; split
  · exact .ofKs ..
  · exact .refl s
theorem State.WorkStep.ofCreate {s t : State} {n : Nat} {eph : Bool} {d : Nat} {ks : List NewKey} {h : Nat} {b : Bytes}
    (hc : s.createKeys n eph d ks = .done t h b) : s.WorkStep t := by
  unfold State.createKeys at hc; simp only at hc
  generalize hl : (if eph = true then (true, s) else s.needLeaf LeafKind.epoch n) = q at hc
  have h0 : s.WorkStep q.2 := by
    subst hl; split
    · exact .refl s
    · exact .ofNeedLeaf ..
  split at hc
  · cases hc
  · split at hc
    · cases hc
    · rename_i i s1 hr
      have h1 : q.2.WorkStep s1 := by
        revert hr; cases eph
        · exact fun hr => .ofPersistent hr
        · exact fun hr => .ofEphemeral hr
      split at hc
      · cases hc
      · rename_i hf
        injection hc with hc; subst hc
        exact ((h0.trans h1).trans (.ofCreateRun ks hf)).trans (.ofLink ..)
theorem State.WorkStep.ofCreateFail {s t : State} {n : Nat} {eph : Bool} {d : Nat} {ks : List NewKey} {code : Nat}
    (hc : s.createKeys n eph d ks = .fail code t) : s.WorkStep t := by
  unfold State.createKeys at hc; simp only at hc
  generalize hl : (if eph = true then (true, s) else s.needLeaf LeafKind.epoch n) = q at hc
  have h0 : s.WorkStep q.2 := by
    subst hl; split
    · exact .refl s
    · exact .ofNeedLeaf ..
  have lost (c : Nat) (k : LeafKind) (o : Nat) : s.WorkStep (if c = ccSlotIntegrity then (q.2.needLeaf k o).2 else q.2) := by
    split
    · exact h0.trans (.ofNeedLeaf ..)
    · exact h0
  split at hc
  · injection hc with _ hc; subst hc; exact h0
  · split at hc
    · injection hc with _ hc; subst hc; exact lost _ _ _
    · split at hc
      · injection hc with _ hc; subst hc; exact lost _ _ _
      · cases hc

/-! ## The work of each opcode -/

/-- A result keeps the command's number and changes the state as work does. -/
def Kept (s : State) (c : Cmd) (p : Cmd × State) : Prop := p.1.id = c.id ∧ s.WorkStep p.2

theorem Cmd.fail_id (c : Cmd) (n : Nat) : (c.fail n).id = c.id := by unfold Cmd.fail; split <;> rfl
theorem Cmd.emit_id (c : Cmd) (b o : Nat) (d : Bytes) : (c.emit b o d).id = c.id := by
  unfold Cmd.emit; split
  · exact Cmd.fail_id ..
  · rfl

theorem Kept.same (s : State) (c : Cmd) : Kept s c (c, s) := ⟨rfl, .refl s⟩
theorem Kept.fail (s : State) (c : Cmd) (n : Nat) : Kept s c (c.fail n, s) := ⟨Cmd.fail_id c n, .refl s⟩
theorem Kept.emit (s : State) (c : Cmd) (b o : Nat) (d : Bytes) : Kept s c (c.emit b o d, s) := ⟨Cmd.emit_id c b o d, .refl s⟩

/-- As `Kept`, for a result that also gives a new handle. -/
def KeptKeys (s : State) (c : Cmd) (p : Cmd × Nat × State) : Prop := p.1.id = c.id ∧ s.WorkStep p.2.2

theorem State.makeKeys_kept (s : State) (c : Cmd) (eph : Bool) (d b : Nat) (ks : List NewKey) :
    KeptKeys s c (s.makeKeys c eph d b ks) := by
  unfold State.makeKeys; simp only
  generalize (if eph = true then 4 else 2) = m
  split
  · exact ⟨Cmd.fail_id .., .refl s⟩
  · split
    · exact ⟨Cmd.fail_id .., .refl s⟩
    · split
      · exact ⟨Cmd.fail_id .., .refl s⟩
      · split
        · rename_i hc; exact ⟨Cmd.fail_id .., .ofCreateFail hc⟩
        · rename_i hc; exact ⟨Cmd.emit_id .., .ofCreate hc⟩

theorem State.importKey_kept (s : State) (c : Cmd) (u m : Nat) (e : Bool) (a l : Nat) (k : Bytes) (pi pg : Nat) (eph : Bool) (d : Nat)
    (g : Bool) : KeptKeys s c (s.importKey c u m e a l k pi pg eph d g) := by
  unfold State.importKey; split
  · exact ⟨Cmd.fail_id .., .refl s⟩
  · exact s.makeKeys_kept ..

theorem State.draw_id (s : State) (c : Cmd) (n : Nat) : (s.draw c n).2.1.id = c.id := rfl

/-- What an opcode's work keeps. -/
def OpSpec.Keeps (o : OpSpec) : Prop := ∀ (s : State) (c : Cmd), Kept s c (o.work s c)

theorem State.writePin_kept (s : State) (c : Cmd) (f a : Nat) (k : Bytes) (pin pan : List Nat) : Kept s c (s.writePin c f a k pin pan) := by
  unfold State.writePin; split
  · exact .emit ..
  · exact ⟨Cmd.emit_id .., .ofDraw s c 8⟩

theorem opPinTranslate_keeps : opPinTranslate.Keeps := by
  intro s c; unfold opPinTranslate workPinTranslate; simp only
  repeat' split
  all_goals first | exact .fail .. | exact s.writePin_kept ..
theorem opDukptTdes_keeps : opDukptTdes.Keeps := by
  intro s c; unfold opDukptTdes workDukptTdes; simp only
  repeat' split
  all_goals first | exact .fail .. | exact s.writePin_kept ..
theorem opDukptAes_keeps : opDukptAes.Keeps := by
  intro s c; unfold opDukptAes workDukptAes; simp only
  repeat' split
  all_goals first | exact .fail .. | exact s.writePin_kept ..
theorem State.mismatch_kept (s : State) (c : Cmd) : Kept s c (s.mismatch c) :=
  ⟨Cmd.fail_id .., .ofBump ..⟩
theorem opOffset_keeps (g : Bool) (s : State) (c : Cmd) : Kept s c (workOffset g s c) := by
  unfold workOffset; simp only
  repeat' split
  all_goals first | with_reducible exact .same .. | with_reducible exact .fail .. | with_reducible exact .emit .. | with_reducible exact s.mismatch_kept c
theorem opPvv_keeps (g : Bool) (s : State) (c : Cmd) : Kept s c (workPvv g s c) := by
  unfold workPvv; simp only
  repeat' split
  all_goals first | with_reducible exact .same .. | with_reducible exact .fail .. | with_reducible exact .emit .. | with_reducible exact s.mismatch_kept c
theorem opCvv_keeps (g : Bool) (s : State) (c : Cmd) : Kept s c (workCvv g s c) := by
  unfold workCvv; simp only; split
  · exact .fail ..
  · split
    · exact .emit ..
    · split
      · exact .emit ..
      · exact ⟨Cmd.emit_id .., .ofBump ..⟩
theorem opMac_keeps (g : Bool) (s : State) (c : Cmd) : Kept s c (workMac g s c) := by
  unfold workMac; simp only
  repeat' split
  all_goals first | with_reducible exact .same .. | with_reducible exact .fail .. | with_reducible exact .emit ..
theorem opWagerSeal_keeps : opWagerSeal.Keeps := by
  intro s c; unfold opWagerSeal workWagerSeal; simp only
  generalize hy : Cmd.emit _ 1 0 _ = y
  have hi : y.id = c.id := hy ▸ Cmd.emit_id ..
  exact ⟨hi, .refl s⟩
theorem opDrawSeed_keeps : opDrawSeed.Keeps := by
  intro s c; unfold opDrawSeed workDrawSeed; simp only
  generalize hy : Cmd.emit _ 1 0 _ = y
  have hi : y.id = c.id := hy ▸ Cmd.emit_id ..
  exact ⟨hi, .ofDraw s c _⟩
theorem opArqc_keeps : opArqc.Keeps := by
  intro s c; unfold opArqc workArqc; simp only
  repeat' split
  all_goals first | with_reducible exact .same .. | with_reducible exact .fail .. | with_reducible exact .emit .. | with_reducible exact s.mismatch_kept c
theorem opKeyblockImport_keeps : opKeyblockImport.Keeps := by
  intro s c; unfold opKeyblockImport workKeyblockImport; simp only
  repeat' split
  all_goals first | exact .fail .. | exact s.importKey_kept ..
theorem opKeyblockExport_keeps : opKeyblockExport.Keeps := by
  intro s c; unfold opKeyblockExport workKeyblockExport; simp only
  generalize hy : Cmd.emit _ 1 0 _ = y
  have hi : y.id = c.id := hy ▸ Cmd.emit_id ..
  exact ⟨hi, .ofDraw s c _⟩
theorem opTr34Recover_keeps : opTr34Recover.Keeps := by
  intro s c; unfold opTr34Recover workTr34Recover; simp only
  repeat' split
  all_goals first | with_reducible exact .fail .. | exact s.makeKeys_kept ..
theorem opTr34Import_keeps : opTr34Import.Keeps := by
  intro s c; unfold opTr34Import workTr34Import; simp only
  repeat' split
  all_goals first | exact .fail .. | exact s.importKey_kept ..

theorem opSymEcb_keeps : opSymEcb.Keeps := fun _ _ => .emit ..
theorem opSymCbc_keeps : opSymCbc.Keeps := by
  intro s c; unfold opSymCbc workCbc; simp only
  generalize hy : Cmd.emit _ 1 _ _ = y
  have hi : y.id = c.id := hy ▸ Cmd.emit_id ..
  exact ⟨hi, .refl s⟩
theorem opSymCtr_keeps : opSymCtr.Keeps := by
  intro s c; unfold opSymCtr workCtr; simp only
  generalize (if Desc.pb c.desc 104 = 1 then c.input 2 else if c.step = 1 then c.fix ++ toBE 8 c.inv ++ fill 4 0 else c.carry) = icb
  generalize hx : (if Desc.pb c.desc 104 = 0 ∧ c.step = 1 then c.emit 2 0 icb else c) = x
  have hk : x.id = c.id := by subst hx; split <;> first | exact Cmd.emit_id .. | rfl
  generalize hy : Cmd.emit x 1 _ _ = y
  have hi : y.id = x.id := hy ▸ Cmd.emit_id ..
  exact ⟨hi.trans hk, .refl s⟩
theorem opSymGcm_keeps : opSymGcm.Keeps := by
  intro s c; unfold opSymGcm workGcm
  simp only
  generalize (if c.step = 1 then _ else _ : GcmState) = g
  generalize ctrData _ _ _ _ _ = o1
  repeat' split
  all_goals first
    | exact ⟨Cmd.emit_id .., .refl s⟩
    | exact ⟨(Cmd.emit_id ..).trans (Cmd.emit_id ..), .refl s⟩
    | exact ⟨(Cmd.fail_id ..).trans (Cmd.emit_id ..), .refl s⟩
theorem opSymXts_keeps : opSymXts.Keeps := fun _ _ => .emit ..
theorem opSymMac_keeps (v : Bool) (s : State) (c : Cmd) : Kept s c (workSymMac v s c) := by
  unfold workSymMac; simp only
  repeat' split
  all_goals first | with_reducible exact .same .. | with_reducible exact .fail .. | with_reducible exact .emit ..
theorem opHash_keeps : opHash.Keeps := fun _ _ => .emit ..
theorem opHashBatch_keeps : opHashBatch.Keeps := by
  intro s c; unfold opHashBatch workHashBatch; simp only
  split
  · exact .fail ..
  · exact ⟨Cmd.emit_id .., .refl s⟩
theorem opHmac_keeps (v : Bool) (s : State) (c : Cmd) : Kept s c (workHmac v s c) := by
  unfold workHmac
  repeat' split
  all_goals first | with_reducible exact .same .. | with_reducible exact .fail .. | with_reducible exact .emit ..

theorem State.WorkStep.ofFresh (s : State) : s.WorkStep s.fresh.2 := ⟨rfl, rfl⟩
theorem State.WorkStep.ofRandom (s : State) (n : Nat) : s.WorkStep (s.randomBytes n).2 := ⟨rfl, rfl⟩
theorem State.WorkStep.ofSlice (s : State) (n : Nat) (f : Slice → Slice) : s.WorkStep (s.modSlice n f) := ⟨rfl, rfl⟩
theorem State.WorkStep.ofUnitErr (s : State) (f : Field) (a b : Nat) (g : Field) (h : Option Field) (u : Field) (v : Option Nat) (op : Nat) :
    s.WorkStep (s.unitErr f a b g h u v op) := by
  have e : ∀ t : State, s.WorkStep t → s.WorkStep ((t.set f 0 1).record 0x0401 1 devScope a (t.storedAt b)) := fun t h =>
    (h.trans (.ofSet t _ _ _)).trans (State.LogStep.ofRecord _ _ _ _ _ _ _ _).work
  unfold State.unitErr; apply e; split
  · have k : ∀ x : Nat × State, s.WorkStep x.2 → s.WorkStep (match h with
        | some q => ((x.2.set g 0 op).set u 0 x.1).set q 0 f.lo
        | none => (x.2.set g 0 op).set u 0 x.1) := by
      intro x hx; cases h
      · exact (hx.trans (.ofSet _ _ _ _)).trans (.ofSet _ _ _ _)
      · exact ((hx.trans (.ofSet _ _ _ _)).trans (.ofSet _ _ _ _)).trans (.ofSet _ _ _ _)
    cases v with
    | none => exact k s.fresh (.ofFresh s)
    | some n => exact k (n, s) (.refl s)
  · exact .refl s

theorem opRsaSign_keeps (s : State) (c : Cmd) : Kept s c (workRsaSign s c) := .emit ..
theorem opRsaDecrypt_keeps (s : State) (c : Cmd) : Kept s c (workRsaDecrypt s c) := by
  unfold workRsaDecrypt
  repeat' split
  all_goals first | exact .same .. | exact .fail .. | exact .emit ..
theorem opRsaVerify_keeps : opRsaVerify.Keeps := by
  intro s c; unfold opRsaVerify workRsaVerify; simp only
  repeat' split
  all_goals first | exact .same .. | exact .fail ..
theorem opEcdsaSign_keeps (a : Nat) : (opEcdsaSign a).Keeps := by
  intro s c; unfold opEcdsaSign workEcdsaSign; simp only
  repeat' split
  all_goals first | exact .same .. | exact .fail .. | exact .emit ..
theorem opEcdsaVerify_keeps (a : Nat) : (opEcdsaVerify a).Keeps := by
  intro s c; unfold opEcdsaVerify workEcdsaVerify; simp only
  repeat' split
  all_goals first | exact .same .. | exact .fail ..
theorem opEddsaSign_keeps : opEddsaSign.Keeps := by
  intro s c; unfold opEddsaSign workEddsaSign; simp only
  all_goals first | exact .same .. | exact .fail .. | exact .emit ..
theorem opEddsaVerify_keeps : opEddsaVerify.Keeps := by
  intro s c; unfold opEddsaVerify workEddsaVerify; simp only
  repeat' split
  all_goals first | exact .same .. | exact .fail ..
theorem opEcAgree_keeps : opEcAgree.Keeps := by
  intro s c; unfold opEcAgree workEcAgree; simp only
  all_goals first | with_reducible exact .fail .. | exact s.makeKeys_kept ..
theorem State.keygenDone_kept (s : State) (c : Cmd) (p : Bytes) (a : Nat) (b : Bytes × Bytes) : Kept s c (s.keygenDone c p a b) := by
  unfold State.keygenDone; simp only; split
  · exact .fail ..
  · generalize hm : s.makeKeys _ _ _ _ _ = q
    have h : KeptKeys s c q := hm ▸ State.makeKeys_kept ..
    exact ⟨(Cmd.emit_id ..).trans h.1, h.2⟩
theorem State.keygenPartial_kept (s : State) (c : Cmd) (p b : Bytes) (m n : Nat) : Kept s c (s.keygenPartial c p b m n) := by
  unfold State.keygenPartial; simp only
  generalize gcmEnc _ _ _ _ _ = x
  generalize hy : Cmd.emit _ 3 0 _ = y
  have hi : y.id = c.id := hy ▸ Cmd.emit_id ..
  refine ⟨hi, State.WorkStep.trans (State.WorkStep.trans ?_ (.ofRandom _ 12)) (.ofBump _ _ _ _)⟩
  split
  · exact (State.WorkStep.ofSlice s _ _).trans ((State.WorkStep.ofBump _ _ _ _).trans (.ofUnitErr ..))
  · exact .ofSlice s _ _
theorem State.curveDraw_kept (a : Nat) : ∀ (n : Nat) (s : State) (c : Cmd),
    (State.curveDraw n s c a).2.1.id = c.id ∧ s.WorkStep (State.curveDraw n s c a).2.2 := by
  intro n
  induction n with
  | zero => intro s c; exact ⟨rfl, .ofDraw ..⟩
  | succ n ih =>
    intro s c; unfold State.curveDraw
    generalize hd : s.draw c _ = x
    have h : x.2.1.id = c.id ∧ s.WorkStep x.2.2 := hd ▸ ⟨rfl, .ofDraw ..⟩
    obtain ⟨bs, c1, t⟩ := x
    dsimp only at h ⊢
    repeat' split
    all_goals first
      | exact h
      | exact ⟨(ih t c1).1.trans h.1, h.2.trans (ih t c1).2⟩
/-- What a step of key generation answers keeps. -/
def GenKept (s : State) (c : Cmd) : GenStep → Prop
  | .pair _ _ _ c1 t | .partial_ _ _ _ c1 t | .more c1 t => c1.id = c.id ∧ s.WorkStep t
theorem State.genStep_kept (s : State) (c : Cmd) (a e : Nat) (g : Bool) (b : Bytes) : GenKept s c (s.genStep c a e g b) := by
  unfold State.genStep; split
  · have h := State.curveDraw_kept a ((c.genBudget - pairBlind g) / keygenDraw a) s c
    generalize State.curveDraw _ s c a = x at h ⊢
    obtain ⟨bs, c1, t⟩ := x
    exact ⟨h.1, h.2.trans (.ofDraw t c1 _)⟩
  · dsimp only
    have h : ∀ n, s.WorkStep (s.fresh.2.draw c n).2.2 := fun n => (State.WorkStep.ofFresh s).trans (.ofDraw _ _ _)
    repeat' split
    all_goals exact ⟨rfl, h _⟩
theorem opKeygen_keeps : opKeygen.Keeps := by
  intro s c; unfold opKeygen workKeygen; simp only; split
  · exact .fail ..
  · split
    · exact .fail ..
    · rename_i p b _ _ a _
      have h := s.genStep_kept c a (fieldLE p 8 4) (ofBE (cut p 2 2) == uK3) b
      split
      all_goals rename_i hg; rw [hg] at h
      · exact ⟨(State.keygenDone_kept ..).1.trans h.1, h.2.trans (State.keygenDone_kept ..).2⟩
      · exact ⟨(State.keygenPartial_kept ..).1.trans h.1, h.2.trans (State.keygenPartial_kept ..).2⟩
      · exact h

theorem State.latticeKey_kept (s : State) (c : Cmd) (a p : Nat) : Kept s c (s.latticeKey c a p) := by
  unfold State.latticeKey; simp only; split
  · exact .fail ..
  · generalize hm : s.makeKeys _ _ _ _ _ = q
    have h : KeptKeys s c q := hm ▸ State.makeKeys_kept ..
    exact ⟨(Cmd.emit_id ..).trans h.1, h.2⟩
theorem opMlkemKeygen_keeps : opMlkemKeygen.Keeps := fun s _ => s.latticeKey_kept ..
theorem opMldsaKeygen_keeps : opMldsaKeygen.Keeps := fun s _ => s.latticeKey_kept ..
theorem opMlkemEncaps_keeps : opMlkemEncaps.Keeps := by
  intro s c; unfold opMlkemEncaps workMlkemEncaps; simp only
  generalize Config.mlkemEncaps _ _ _ = x
  generalize hy : c.emit 1 0 _ = y
  have hi : y.id = c.id := hy ▸ Cmd.emit_id ..
  generalize hm : s.makeKeys _ _ _ _ _ = p
  have h : KeptKeys s y p := hm ▸ State.makeKeys_kept ..
  exact ⟨h.1.trans hi, h.2⟩
theorem opMlkemDecaps_keeps : opMlkemDecaps.Keeps := by
  intro s c; unfold opMlkemDecaps workMlkemDecaps; simp only
  generalize hm : s.makeKeys _ _ _ _ _ = p
  have h : KeptKeys s c p := hm ▸ State.makeKeys_kept ..
  exact ⟨h.1, h.2⟩
theorem opMldsaSign_keeps (s : State) (c : Cmd) : Kept s c (workMldsaSign s c) := by
  unfold workMldsaSign; simp only
  generalize Config.mldsaSign _ _ _ _ _ _ = r
  split
  · exact ⟨Cmd.fail_id .., (State.WorkStep.ofBump s _ _ _).trans (.ofBump _ _ _ _)⟩
  · exact ⟨Cmd.emit_id .., (State.WorkStep.ofBump s _ _ _).trans (.ofBump _ _ _ _)⟩
theorem opMldsaVerify_keeps : opMldsaVerify.Keeps := by
  intro s c; unfold opMldsaVerify workMldsaVerify; simp only; split
  · exact .same ..
  · exact .fail ..

theorem opKeyGenerate_keeps : opKeyGenerate.Keeps := by
  intro s c; unfold opKeyGenerate workKeyGenerate; simp only
  generalize hm : s.makeKeys _ _ _ _ _ = p
  have h : KeptKeys s c p := hm ▸ State.makeKeys_kept ..
  exact ⟨h.1, h.2⟩
theorem opKeyDerive_keeps : opKeyDerive.Keeps := by
  intro s c; unfold opKeyDerive workKeyDerive; simp only
  generalize hm : s.makeKeys _ _ _ _ _ = p
  have h : KeptKeys s c p := hm ▸ State.makeKeys_kept ..
  exact ⟨h.1, h.2⟩
theorem opKeyRewrap_keeps : opKeyRewrap.Keeps := by
  intro s c; unfold opKeyRewrap workKeyRewrap
  have h0 := State.WorkStep.ofNeedLeaf s .epoch c.slice
  dsimp only
  generalize s.needLeaf .epoch c.slice = q at h0
  split
  · rename_i h
    revert h; split
    · intro h; exact ⟨Cmd.emit_id .., h0.trans (.ofNextIv h)⟩
    · intro h; cases h
  · exact ⟨Cmd.fail_id .., h0⟩
  · exact ⟨Cmd.fail_id .., h0⟩
theorem State.WorkStep.ofPartner (s : State) (n : Nat) (k : KeyRec) : s.WorkStep (s.partner n k).2 := by
  unfold State.partner; dsimp only
  repeat' split
  all_goals first | exact .refl s | exact .ofFresh s
theorem State.WorkStep.ofSeal (s : State) (n : Nat) (k p : Bytes) : s.WorkStep (s.sealItem n k p) := ⟨rfl, rfl⟩
theorem State.WorkStep.ofRevoked (s : State) (l : List (Nat × Nat)) : s.WorkStep (s.setRevoked l) :=
  (State.WorkStep.ofKs s _).trans (.ofSeal ..)
theorem State.WorkStep.ofDropKey (s : State) (h : Nat) : s.WorkStep (s.dropKeyLeaves h) :=
  ((State.WorkStep.ofDropLeaf s _ _).trans (.ofDropLeaf _ _ _)).trans (.ofDropLeaf _ _ _)
theorem opKeyInvalidate_keeps : opKeyInvalidate.Keeps := by
  intro s c; unfold opKeyInvalidate workKeyInvalidate; dsimp only; split
  · exact .fail ..
  · rename_i k _
    generalize hp : s.partner c.slice k = p
    have h0 : s.WorkStep p.2 := hp ▸ State.WorkStep.ofPartner ..
    generalize hl : (if hEphem k.handle = true then (true, p.2) else p.2.needLeaf .epoch c.slice) = q
    have h1 : s.WorkStep q.2 := by
      subst hl; split
      · exact h0
      · exact h0.trans (.ofNeedLeaf ..)
    generalize (_ :: p.1.toList : List Nat) = hs
    split
    · exact ⟨Cmd.fail_id .., h1⟩
    · split
      · exact ⟨Cmd.fail_id .., h1.trans (.ofKsFault ..)⟩
      · refine ⟨rfl, h1.trans ((State.WorkStep.trans ?_ (State.WorkStep.ofFold _
          (fun t h => (State.WorkStep.ofAbandonKey t h true).trans (.ofDropKey _ h)) hs _)).trans (.ofDomain _ _ _))⟩
        split
        · exact .refl _
        · exact .ofRevoked ..
theorem opKeyComponent_keeps : opKeyComponent.Keeps := by
  intro s c; unfold opKeyComponent workKeyComponent; simp only
  have h : s.WorkStep (s.dropAccum c.slice) := .ofKs ..
  generalize s.dropAccum c.slice = t at h
  have f : ∀ n, Kept s c (c.fail n, t) := fun n => ⟨Cmd.fail_id .., h⟩
  generalize s.ks.accums.find? _ = acc
  cases acc <;> simp only
  all_goals split
  all_goals first | exact f _ | split
  all_goals first | exact f _ | split
  all_goals first | exact f _ | split
  all_goals first | exact f _ | split
  all_goals first
    | refine ⟨rfl, ?_⟩
      dsimp only
      split
      · exact h.trans (.ofKs _ _)
      · exact h
    | split
      · exact f _
      · generalize hm : t.makeKeys _ _ _ _ _ = p
        have g : KeptKeys t c p := hm ▸ State.makeKeys_kept ..
        exact ⟨g.1, h.trans g.2⟩
theorem opKeyWrapExport_keeps : opKeyWrapExport.Keeps := fun _ _ => .emit ..
theorem opKeyWrapImport_keeps : opKeyWrapImport.Keeps := by
  intro s c; unfold opKeyWrapImport workKeyWrapImport; simp only; split
  · exact .fail ..
  · split
    · exact .fail ..
    · refine ⟨(State.makeKeys_kept ..).1, State.WorkStep.trans ?_ (State.makeKeys_kept ..).2⟩
      split
      · exact .refl s
      · exact .ofFresh s
theorem opKeyAttest_keeps : opKeyAttest.Keeps := by
  intro s c; unfold opKeyAttest workKeyAttest; simp only
  split
  · exact .fail ..
  · generalize Config.mldsaSign _ _ _ _ _ _ = r
    split
    · exact .fail ..
    · split
      · exact ⟨Cmd.fail_id .., (State.WorkStep.ofBump s _ _ _).trans (.ofBump _ _ _ _)⟩
      · generalize hy : Cmd.emit c 1 _ _ = y
        have hi : y.id = c.id := hy ▸ Cmd.emit_id ..
        exact ⟨hi, (State.WorkStep.ofBump s _ _ _).trans (.ofBump _ _ _ _)⟩

/-! ## Accounting of a step, and the table of commands -/

theorem State.cmd?_id {s : State} {id : Nat} {c : Cmd} (h : s.cmd? id = some c) : c.id = id := by
  have := List.find?_some h; simpa using this

theorem State.cmd?_putCmd_self {s : State} {id : Nat} {c x : Cmd} (h : s.cmd? id = some c) (hx : x.id = id) :
    (s.putCmd x).cmd? id = some x := by
  unfold State.cmd? at h
  unfold State.cmd? State.putCmd State.modCmds
  simp only
  revert h
  generalize s.trv.cmds = l
  intro h
  induction l with
  | nil => cases h
  | cons e l ih =>
    rw [List.map_cons, List.find?_cons]
    rw [List.find?_cons] at h
    by_cases he : e.id = id
    · rw [if_pos (by rw [he, hx])]; have hb : (x.id == id) = true := by rw [hx]; exact beq_self_eq_true id
      rw [hb]
    · have : (e.id == id) = false := by simpa using he
      rw [this] at h
      rw [if_neg (by rw [hx]; exact he)]
      rw [this]
      exact ih h

theorem State.cmd?_putCmd_other {s : State} {n : Nat} {x : Cmd} (hx : x.id ≠ n) : (s.putCmd x).cmd? n = s.cmd? n := by
  unfold State.cmd? State.putCmd State.modCmds
  simp only
  induction s.trv.cmds with
  | nil => rfl
  | cons e l ih =>
    rw [List.map_cons, List.find?_cons, List.find?_cons, ih]
    by_cases he : e.id = x.id
    · rw [if_pos he]
      have h1 : (x.id == n) = false := by simpa using hx
      have h2 : (e.id == n) = false := by rw [he]; exact h1
      rw [h1, h2]
    · rw [if_neg he]

/-- From `s` to `t` only Traverse but its table of commands, Dose, the registers and the free numbers change. -/
structure State.Account (s t : State) : Prop where
  rest : t = { s with free := t.free, regs := t.regs, dose := t.dose, trv := t.trv, rng := t.rng }
  cmds : t.trv.cmds = s.trv.cmds
theorem State.Account.refl (s : State) : s.Account s := ⟨rfl, rfl⟩
theorem State.Account.trans {s t u : State} (h : s.Account t) (g : t.Account u) : s.Account u :=
  ⟨by rw [g.rest, h.rest], g.cmds.trans h.cmds⟩
theorem State.Account.ofSet (s : State) (f : Field) (i v : Nat) : s.Account (s.set f i v) := ⟨rfl, rfl⟩
theorem State.Account.ofBump (s : State) (f : Field) (n i : Nat) : s.Account (s.bump f n i) := ⟨rfl, rfl⟩
theorem State.Account.ofFresh (s : State) : s.Account s.fresh.2 := ⟨rfl, rfl⟩
theorem State.Account.ofDrawReserve (s : State) (n : Nat) : s.Account (s.drawReserve n).2 := ⟨rfl, rfl⟩
theorem State.Account.ofDraw (s : State) (c : Cmd) (n : Nat) : s.Account (s.draw c n).2.2 := .ofDrawReserve s n
theorem State.Account.ofPool (s : State) (f r a : Nat) : s.Account (s.toPool f r a) := by
  unfold State.toPool; split
  · exact .refl s
  · exact ⟨rfl, rfl⟩
theorem State.Account.ofMeter (s : State) (c : Cmd) (n : Nat) : s.Account (s.meter c n).2 := ⟨rfl, rfl⟩
theorem State.Account.ofSettle (s : State) (c : Cmd) (n : Nat) : s.Account (s.settle c n).2 := by
  unfold State.settle; split
  · exact .ofPool ..
  · exact ⟨rfl, rfl⟩
theorem State.Account.ofSpent (s : State) (c : Cmd) : s.Account (s.spentBlocks c).2.2 := by
  unfold State.spentBlocks; dsimp only
  repeat' split
  all_goals exact ⟨rfl, rfl⟩
theorem State.Account.ofCount (s : State) (a b : Nat) : s.Account (s.countBlocks a b) := ⟨rfl, rfl⟩
theorem State.Account.ofRelease (s : State) (c : Cmd) (n : Nat) : s.Account (s.releaseFrom c n) := by
  unfold State.releaseFrom
  generalize placement _ _ _ _ = l
  induction l generalizing s with
  | nil => exact .refl s
  | cons e l ih =>
    rw [List.foldl_cons]
    refine State.Account.trans ?_ (ih _)
    split
    · exact .ofPool ..
    · exact .refl s
theorem State.Account.ofClose (s : State) (c : Cmd) (n : Nat) : s.Account (s.closeStep c n).2 := by
  unfold State.closeStep; simp only
  generalize hm : s.meter c n = m
  have h1 : s.Account m.2 := hm ▸ .ofMeter ..
  generalize hs : m.2.settle _ _ = p
  have h2 : m.2.Account p.2 := hs ▸ .ofSettle ..
  generalize hb : p.2.spentBlocks p.1 = q
  have h3 : p.2.Account q.2.2 := hb ▸ .ofSpent ..
  exact ((((h1.trans h2).trans h3).trans (.ofCount q.2.2 q.1 q.2.1)).trans (.ofPool _ _ _ _)).trans (.ofPool _ _ _ _)
theorem State.settle_same (s : State) (c : Cmd) (n : Nat) :
    ∃ a, (s.settle c n).1 = { c with ahead := a } := by
  unfold State.settle; split
  · exact ⟨c.ahead, rfl⟩
  · exact ⟨_, rfl⟩
/-- The end of a step changes the metered energy of its command, and what it took in advance. -/
theorem State.closeStep_same (s : State) (c : Cmd) (n : Nat) :
    ∃ a, (s.closeStep c n).1 = { c with energy := c.energy + n, used := c.used + n, ahead := a } := by
  obtain ⟨a, h⟩ := State.settle_same (s.meter c n).2
    { (s.meter c n).1 with ahead := 0, used := (s.meter c n).1.used + n } (ceilDiv n 100)
  exact ⟨a, h⟩
theorem State.Account.work {s t : State} (h : s.Account t) : s.WorkStep t := ⟨by rw [h.rest], h.cmds⟩

/-! ## A step that runs to its end -/

/-- What the end of a step leaves: the command's code and output as its work left them. -/
theorem State.endStep_spec (s : State) (c x : Cmd) (code nj : Nat) :
    ∃ (u : State) (y : Cmd), s.Account u ∧ y.id = x.id ∧ y.ran = true ∧ y.granted = false ∧ y.step = c.step + 1 ∧
      y.code = x.code ∧ y.outs = x.outs ∧
      (s.endStep c x code nj = u.putCmd y ∨ ∃ n, s.endStep c x code nj = (u.putCmd y).releaseFrom y n) := by
  unfold State.endStep; simp only
  generalize hx : ({ x with stop := _ } : Cmd) = x1
  have hi : x1.id = x.id ∧ x1.code = x.code ∧ x1.outs = x.outs := by subst hx; exact ⟨rfl, rfl, rfl⟩
  obtain ⟨e, he⟩ := s.closeStep_same x1 nj
  have ha := State.Account.ofClose s x1 nj
  generalize s.closeStep x1 nj = p at he ha
  refine ⟨p.2, { p.1 with
    ran := true, granted := false, step := c.step + 1, stop := isBulk c.desc && x.code != ccOk || x.stop,
    drew := if c.repeating then c.drew else c.drew ++ [x.drawn - c.drawn]
    stepsDone := if isBulk c.desc = true then p.1.stepsDone else p.1.stepsDone + 1 }, ha, ?_, rfl, rfl, rfl, ?_, ?_, ?_⟩
  · show p.1.id = _; rw [he]; exact hi.1
  · show p.1.code = _; rw [he]; exact hi.2.1
  · show p.1.outs = _; rw [he]; exact hi.2.2
  · split
    · exact .inr ⟨_, rfl⟩
    · exact .inl rfl

theorem State.drawAhead_spec (s : State) (n : Nat) (c : Cmd) :
    s.Account (s.drawAhead n c).2 ∧ (s.drawAhead n c).1.id = c.id ∧ (s.drawAhead n c).1.code = c.code ∧
    (s.drawAhead n c).1.outs = c.outs ∧ (s.drawAhead n c).1.subst = c.subst ∧ (s.drawAhead n c).1.counted = c.counted := by
  unfold State.drawAhead; split
  · exact ⟨.ofDraw s c n, rfl, rfl, rfl, rfl, rfl⟩
  · exact ⟨.refl s, rfl, rfl, rfl, rfl, rfl⟩

theorem State.Account.ofCheck (s : State) (c : Cmd) (code : Nat) : s.Account (s.countCheck c code) := by
  unfold State.countCheck; simp only
  generalize ht : (if code = ccCounterExhausted ∧ c.invOver = true then s.bump R.CL_CNT_EXHAUST_COUNT else s) = t
  have h : s.Account t := by
    subst ht; split
    · exact .ofBump ..
    · exact .refl s
  split
  · exact h.trans (.ofBump ..)
  · exact h

/-- A carry record is all that the end of a step adds to what its work left. -/
theorem State.carryOut_spec (s : State) (c x : Cmd) :
    (s.carryOut c x).id = x.id ∧ (s.carryOut c x).code = x.code ∧ (s.carryOut c x).outs = x.outs := by
  unfold State.carryOut; split
  · exact ⟨rfl, rfl, rfl⟩
  · exact ⟨rfl, rfl, rfl⟩

/-- What a granted step does that runs to its end. -/
theorem State.goodStep_spec (s : State) (o : OpSpec) (c : Cmd) (nj : Nat) (hk : o.Keeps) :
    ∃ u y, (if s.stepCode o c = ccOk ∧ c.code = ccOk ∧ o.worksIn c = true
        then (o.work (s.drawAhead (o.pre c) c).2 (s.drawAhead (o.pre c) c).1).2 else s).Account u ∧
      y.id = c.id ∧ y.ran = true ∧ y.granted = false ∧ y.step = c.step + 1 ∧
      (s.stepCode o c ≠ ccOk → y.code = s.stepCode o c ∧ y.outs = []) ∧
      (s.stepCode o c = ccOk → if c.code = ccOk ∧ o.worksIn c = true then
          y.code = (o.work (s.drawAhead (o.pre c) c).2 (s.drawAhead (o.pre c) c).1).1.code ∧
          y.outs = (o.work (s.drawAhead (o.pre c) c).2 (s.drawAhead (o.pre c) c).1).1.outs
        else y.code = c.code ∧ y.outs = c.outs) ∧
      (s.goodStep o c nj = u.putCmd y ∨ ∃ n, s.goodStep o c nj = (u.putCmd y).releaseFrom y n) := by
  unfold State.goodStep; simp only
  by_cases hcode : s.stepCode o c = ccOk
  · rw [hcode, if_pos rfl]
    obtain ⟨ha, hid, hco, hou, hsu, hct⟩ := s.drawAhead_spec (o.pre c) c
    generalize hA : s.drawAhead (o.pre c) c = a at *
    by_cases hc : c.code = ccOk
    · have ht : a.1.turns = false := by simp [Cmd.turns, hco, hc]
      have hs : a.2.substCounts a.1 = false := by simp [State.substCounts, ht]
      have hx : ({ a.1 with subst := c.subst || a.1.turns, counted := c.counted || a.2.substCounts a.1 } : Cmd) = a.1 := by
        rw [ht, hs, Bool.or_false, Bool.or_false, ← hsu, ← hct]
      have hu : a.2.countCheck a.1 ccOk = a.2 := by
        unfold State.countCheck; simp only; rw [hs, if_neg (fun h => absurd h (by decide)), if_neg (fun h => absurd h.1 (by decide))]
      rw [hx, hu, hco]
      by_cases hw : o.worksIn c = true
      · rw [if_pos ⟨rfl, hc, hw⟩, if_pos ⟨hc, hw⟩]
        obtain ⟨hi, _⟩ := hk a.2 a.1
        obtain ⟨ki, kc, ko⟩ := (o.work a.2 a.1).2.carryOut_spec c (o.work a.2 a.1).1
        obtain ⟨u, y, h1, h2, h3, h4, h5, h6, h7, h8⟩ := (o.work a.2 a.1).2.endStep_spec c
          ((o.work a.2 a.1).2.carryOut c (o.work a.2 a.1).1) ccOk nj
        exact ⟨u, y, h1, h2.trans (ki.trans (hi.trans hid)), h3, h4, h5, fun h => absurd rfl h, fun _ => by
          rw [if_pos ⟨hc, hw⟩]; exact ⟨h6.trans kc, h7.trans ko⟩, h8⟩
      · rw [if_neg (fun h => hw h.2.2), if_neg (fun h => hw h.2)]
        obtain ⟨ki, kc, ko⟩ := a.2.carryOut_spec c a.1
        obtain ⟨u, y, h1, h2, h3, h4, h5, h6, h7, h8⟩ := a.2.endStep_spec c (a.2.carryOut c a.1) ccOk nj
        exact ⟨u, y, ha.trans h1, h2.trans (ki.trans hid), h3, h4, h5, fun h => absurd rfl h, fun _ => by
          rw [if_neg (fun h => hw h.2)]; exact ⟨h6.trans (kc.trans hco), h7.trans (ko.trans hou)⟩, h8⟩
    · rw [if_neg (fun h => hc h.2.1), if_neg (fun h => hc (hco ▸ h.1))]
      obtain ⟨ki, kc, ko⟩ := (a.2.countCheck a.1 ccOk).carryOut_spec c { a.1 with subst := c.subst || a.1.turns, counted := c.counted || a.2.substCounts a.1 }
      obtain ⟨u, y, h1, h2, h3, h4, h5, h6, h7, h8⟩ := (a.2.countCheck a.1 ccOk).endStep_spec c
        ((a.2.countCheck a.1 ccOk).carryOut c { a.1 with subst := c.subst || a.1.turns, counted := c.counted || a.2.substCounts a.1 }) ccOk nj
      exact ⟨u, y, (ha.trans (.ofCheck ..)).trans h1, h2.trans (ki.trans hid), h3, h4, h5, fun h => absurd rfl h, fun _ => by
          rw [if_neg (fun h => hc h.1)]; exact ⟨h6.trans (kc.trans hco), h7.trans (ko.trans hou)⟩, h8⟩
  · have hc : c.code = ccOk := by
      refine Classical.byContradiction fun h => ?_; exact hcode (by unfold State.stepCode; rw [if_neg (fun g => h g.2)])
    rw [if_neg hcode]
    obtain ⟨ha, hid, hco, hou, _⟩ := s.drawAhead_spec (o.pre c) (c.fail (s.stepCode o c))
    have hf : (c.fail (s.stepCode o c)).code = s.stepCode o c ∧ (c.fail (s.stepCode o c)).outs = [] := by
      unfold Cmd.fail; rw [if_pos hc]; exact ⟨rfl, rfl⟩
    rw [hf.1] at hco; rw [hf.2] at hou
    generalize s.stepCode o c = code at *
    generalize hA : s.drawAhead (o.pre c) (c.fail code) = a at *
    rw [if_neg (fun h => hcode h.1), if_neg (fun h => hcode (hco ▸ h.1))]
    obtain ⟨ki, kc, ko⟩ := (a.2.countCheck a.1 code).carryOut_spec c { a.1 with subst := c.subst || a.1.turns, counted := c.counted || a.2.substCounts a.1 }
    obtain ⟨u, y, h1, h2, h3, h4, h5, h6, h7, h8⟩ := (a.2.countCheck a.1 code).endStep_spec c
        ((a.2.countCheck a.1 code).carryOut c { a.1 with subst := c.subst || a.1.turns, counted := c.counted || a.2.substCounts a.1 }) code nj
    exact ⟨u, y, (ha.trans (.ofCheck ..)).trans h1, h2.trans (ki.trans (hid.trans (Cmd.fail_id ..))), h3, h4, h5,
      fun _ => ⟨h6.trans (kc.trans hco), h7.trans (ko.trans hou)⟩, fun h => absurd h hcode, h8⟩

/-! ## The rows -/

/-- Every engine row runs its opcode's step. -/
theorem engineRows_exec {s : State} {id : Nat} {r : EngineRow} (h : r ∈ engineRows (s.isContinue id)) (err : Bool) :
    exec (r.cmd id err) s = ok (s.runStep r.op r.spec id (errOf err)) := by
  unfold engineRows at h
  simp only [List.mem_append] at h
  rcases h with (((h | h) | h) | h) | h
  · cases hc : s.isContinue id <;> rw [hc] at h <;> cases List.mem_singleton.mp h
    · show ok (if s.isContinue id then s else _) = _
      rw [hc]; rfl
    · show ok (if s.isContinue id then _ else s) = _
      rw [hc]; rfl
  all_goals
    simp only [List.mem_cons, List.not_mem_nil, or_false] at h
    repeat (first | (rcases h with rfl | h; · rfl))

/-- Every engine row's work keeps the table of commands. -/
theorem engineRows_keeps {b : Bool} {r : EngineRow} (h : r ∈ engineRows b) : r.spec.Keeps := by
  unfold engineRows at h
  simp only [List.mem_append] at h
  rcases h with (((h | h) | h) | h) | h
  · cases b <;> cases List.mem_singleton.mp h <;> exact opKeygen_keeps
  · simp only [List.mem_cons, List.not_mem_nil, or_false] at h
    rcases h with rfl | rfl | rfl | rfl | rfl | rfl | rfl | rfl | rfl | rfl | rfl | rfl | rfl | rfl | rfl | rfl
    · exact opPinTranslate_keeps
    · exact opOffset_keeps false
    · exact opPvv_keeps false
    · exact opOffset_keeps true
    · exact opPvv_keeps true
    · exact opCvv_keeps true
    · exact opCvv_keeps false
    · exact opMac_keeps false
    · exact opMac_keeps true
    · exact opWagerSeal_keeps
    · exact opDrawSeed_keeps
    · exact opDukptTdes_keeps
    · exact opDukptAes_keeps
    · exact opArqc_keeps
    · exact opKeyblockImport_keeps
    · exact opKeyblockExport_keeps
  · simp only [List.mem_cons, List.not_mem_nil, or_false] at h
    rcases h with rfl | rfl | rfl | rfl | rfl | rfl | rfl | rfl | rfl | rfl | rfl | rfl | rfl | rfl | rfl | rfl
    · exact opTr34Recover_keeps
    · exact opTr34Import_keeps
    · exact opSymEcb_keeps
    · exact opSymCbc_keeps
    · exact opSymCtr_keeps
    · exact opSymGcm_keeps
    · exact opSymXts_keeps
    · exact opSymMac_keeps false
    · exact opSymMac_keeps true
    · exact opHash_keeps
    · exact opHashBatch_keeps
    · exact opHmac_keeps false
    · exact opHmac_keeps true
    · exact opRsaSign_keeps
    · exact opRsaDecrypt_keeps
    · exact opRsaSign_keeps
  · simp only [List.mem_cons, List.not_mem_nil, or_false] at h
    rcases h with rfl | rfl | rfl | rfl | rfl | rfl | rfl | rfl | rfl | rfl | rfl | rfl | rfl | rfl | rfl | rfl
    · exact opRsaDecrypt_keeps
    · exact opRsaVerify_keeps
    · exact opEcdsaSign_keeps 0x40
    · exact opEcdsaVerify_keeps 0x40
    · exact opEcdsaSign_keeps 0x41
    · exact opEcdsaVerify_keeps 0x41
    · exact opEddsaSign_keeps
    · exact opEddsaVerify_keeps
    · exact opEcAgree_keeps
    · exact opMlkemKeygen_keeps
    · exact opMlkemEncaps_keeps
    · exact opMlkemDecaps_keeps
    · exact opMldsaSign_keeps
    · exact opMldsaSign_keeps
    · exact opMldsaVerify_keeps
    · exact opMldsaKeygen_keeps
  · simp only [List.mem_cons, List.not_mem_nil, or_false] at h
    rcases h with rfl | rfl | rfl | rfl | rfl | rfl | rfl | rfl
    · exact opKeyGenerate_keeps
    · exact opKeyDerive_keeps
    · exact opKeyRewrap_keeps
    · exact opKeyInvalidate_keeps
    · exact opKeyComponent_keeps
    · exact opKeyWrapExport_keeps
    · exact opKeyWrapImport_keeps
    · exact opKeyAttest_keeps

/-! ## What a row can change -/

theorem State.cmd?_of_cmds {s t : State} (h : t.trv.cmds = s.trv.cmds) (n : Nat) : t.cmd? n = s.cmd? n := by
  unfold State.cmd?; rw [h]
/-- From `s` to `t` only what an engine's row can change changes. -/
def State.RowOnly (s t : State) : Prop :=
  t = { s with free := t.free, regs := t.regs, hif := t.hif, fb := t.fb, ks := t.ks, rng := t.rng, dose := t.dose, trv := t.trv, tiles := t.tiles, fab := t.fab }
theorem State.RowOnly.trans {s t u : State} (h : s.RowOnly t) (g : t.RowOnly u) : s.RowOnly u := by
  unfold State.RowOnly at *; rw [g, h]
theorem State.RowOnly.ofPut (s : State) (c : Cmd) : s.RowOnly (s.putCmd c) := rfl
theorem State.Account.ks {s t : State} (h : s.Account t) : t.ks = s.ks := by rw [h.rest]
theorem State.Account.fb {s t : State} (h : s.Account t) : t.fb = s.fb := by rw [h.rest]
theorem State.Account.hif {s t : State} (h : s.Account t) : t.hif = s.hif := by rw [h.rest]
theorem State.RowOnly.wires {s t : State} (h : s.RowOnly t) : t.wires = { s with
        free := t.wires.free, regs := t.wires.regs, hif := t.wires.hif, fb := t.wires.fb, ks := t.wires.ks, rng := t.wires.rng, dose := t.wires.dose, trv := t.wires.trv
        tiles := t.wires.tiles, fab := t.wires.fab
        tmp := { s.tmp with outLatch := t.wires.tmp.outLatch } } := by
  have g := State.wires_rest t
  generalize t.wires = w at *
  unfold State.RowOnly at h
  rw [h] at g
  rw [g]
theorem ok_cmd? (s : State) (n : Nat) : s.wires.cmd? n = s.cmd? n := rfl

theorem State.WorkStep.row {s t : State} (h : s.WorkStep t) : s.RowOnly t := by
  have := h.rest; unfold State.RowOnly; rw [this]
theorem State.SlotsOnly.row {ks : Nat → Prop} {s t : State} (h : s.SlotsOnly ks t) : s.RowOnly t := by
  have := h.rest; unfold State.RowOnly; rw [this]

end Sys2Proof.Machine
end

