-- ==== Sys2Proof/Laws/Exec.lean ====
section
/-! SUPPORT. Every meaning ends in a next state with its outputs brought up: no command faults and none is refused. -/

namespace Sys2Proof.Machine

theorem exec_ok (c : Instr) (s : State) : ∃ t, exec c s = ok t := by
  cases c <;> exact ⟨_, rfl⟩

end Sys2Proof.Machine
end

