-- ==== Sys2Proof/Laws/Memory.lean ====
section
/-! SUPPORT. The operations on memory keep its canonical form, and what a byte reads as after them. -/

namespace Sys2Proof.Machine

/-- A write of bytes keeps the canonical form. -/
theorem ramPut_wf {m : List Host.Cell} (a : Nat) (data : Bytes) (h : Memory.wf m = true) :
    Memory.wf (ramPut m a data) = true := by
  induction data generalizing m a with
  | nil => exact h
  | cons b bs ih => exact ih (m := Tab.put 0 m a b) (a + 1) (Tab.wf_put a b h)

/-- A reset or a tamper response, which drops cells, keeps the canonical form. -/
theorem Memory.wf_filter {m : List Host.Cell} (p : Host.Cell → Bool) (h : Memory.wf m = true) :
    Memory.wf (m.filter p) = true := Tab.wf_filter p h

/-- Memory at reset has the canonical form. -/
theorem reset_memory_wf : Memory.wf State.reset.fab.ram = true := rfl

end Sys2Proof.Machine
end

