-- ==== Sys2Proof/Tests/Slice0.lean ====
section
/-! SUPPORT. Tests of the model: an ill-formed command for each check of WellFormed, a witness for the hypotheses of every
statement (its clauses at boundary values), and a few steps whose results the spec gives. -/

namespace Sys2Proof.Tests

open Sys2Proof Sys2Proof.Machine

/-! ## Small states -/

/-- A state with register fields written. -/
def w (s : State) (l : List (Field × Nat × Nat)) : State := l.foldl (fun t e => t.set e.1 e.2.1 e.2.2) s

/-- Powered, in stage 7 and SERVICE, every clock gate on. -/
def live : State :=
  w { State.reset with glb := { State.reset.glb with powered := true } }
    [(R.GLB_STS_STAGE, 0, 7), (R.CLK_GATE_ON, 0, 0x1FF), (R.LC_STATE_CODE, 0, 3)]

/-- `live` with both host links up. -/
def linked : State := w live [(linkField 0, 0, 1), (linkField 1, 0, 1)]

/-- `live` with every role held for the device and for slice 1023. -/
def led : State := { live with sessions := [(1023, { st := 2, held := 0xF }), (1024, { st := 2, held := 0xF })] }

/-- `live` with slice 1023 as given. -/
def sliced (x : Slice) : State := { live with hif := { live.hif with slices := [(1023, x)] } }

/-- Slice 1023, READY, with ring 15 as given. -/
def ringed (g : Ring) : Slice := { st := .ready, gen := 255, rings := [(15, g)] }

/-- A held command of slice 1023. -/
def held : Cmd := { id := 1, slice := 1023, gen := 0, ring := 0, slot := 0, desc := fill 128 0, st := .held, obs := 0 }

/-! ## Commands that are not well formed -/

theorem test_ill_formed :
    [Instr.frameBoundary { temps := [0, 0, 0, 0, 0] }, .frameBoundary { pllLock := 8 }, .frameBoundary { windows := [[], [], [], [], [], []] },
      .badAccess 0x400000 4 true, .gatedAccess 0x400000 true,
      .registerWrite .admin 0x400000 0, .irqEnWrite .admin 0x400000 0, .doorbellWrite 0x400000 8 0,
      .descriptorFetchDone 1024 0 0 (fill 128 0), .descriptorFetchDone 0 16 0 (fill 128 0), .descriptorFetchDone 0 0 0 [],
      .descriptorFetchFail 0 16 0, .sliceLoad 1024, .sliceReset 1024, .sliceQuiesce 1024, .sliceQuiesceComplete 1024,
      .sliceResume 1024, .sliceDisable 1024, .logAck 1024 0, .functionLevelReset false 2, .indexFreed 1024 0,
      .contExpiry 1024 0, .componentTimeout 1024, .domainCreate 1024, .domainAdvance 1024, .raiseFloor 1024,
      .domainRekey 1024, .domainDestroy 1024, .tuSlicePolicyWrite .admin 1024 0, .rawBlockClose 8 0, .cellHealthFail 8 1,
      .cellHealthFail 0 16, .restartRunDone 8, .expanderAgeStop 4, .rngWarmupDone false 16, .expanderRepeat 4].all
      (fun c => !c.wellFormed) = true := by decide

theorem test_ill_formed_security :
    [Instr.dbgChallenge 16, .dbgRespond 16 none, .tapChallenge 16, .tapRespond 16 [], .quOpen 1025 0 0, .quOpen 0 16 0,
      .quSign 1025 none, .quClose 1025, .quEnroll 1025 none, .quRemove 1025 0 0, .quRemove 0 4 0, .quPolicy 1025 none,
      .sessionExpiry 1025, .tmpMesh ⟨8, []⟩, .tmpMesh ⟨0, [{ drv := 256 }]⟩, .tmpTs 4 true, .tmpRailUv 7, .tmpRailOv 8, .tmpTemp 5 0, .tmpLight 16, .tmpGlitch 3,
      .batteryCheck { mesh := List.replicate 17 {} }, .batteryCheck { mesh := [{ up := 256 }] }, .batteryCheck { ts := [(4, 0)] }, .batteryCheck { ts := [(0, 3)] },
      .batteryCheck { light := [2] }, .fabricAccess { group := 8, master := 0, op := 0, addr := 0, len := 1 },
      .fabricAccess { group := 0, master := 0, op := 3, addr := 0, len := 1 },
      .fabricAccess { group := 0, master := 0, op := 0, addr := 2 ^ 40, len := 1 },
      .fabricAccess { group := 0, master := 0, op := 0, addr := 0, len := 0 },
      .fabricAccess { group := 0, master := 0, op := 0, addr := 2 ^ 40 - 1, len := 2 }, .violClear 8, .mscRekey 16 0, .mscRekey 0 256,
      .mscRetire 256, .mscInit 16, .fbExport false false 1025, .storeRo 2].all (fun c => !c.wellFormed) = true := by decide

theorem test_ill_formed_links :
    [Instr.muxSwitchDone 3, .clockFailure 10 1 0, .safeStateWait 10 1 0, .pmbusReadDone 7 .vout .nack, .brownoutWarning 16 0,
      .netAdmit false 4096 none, .netExpel 4096, .netBench 4096, .moveHome 4096 0, .moveHome 0 1024, .portRekey 4,
      .linkUp 4 false false false, .linkDown 4 0, .linkDown 0 16, .linkRetrain 4, .flitError 4 ⟨fill 32 0, true⟩, .flitError 0 ⟨[], true⟩, .replayTimeout 4, .netAck 4 0,
      .netNak 4 0, .keySwitch 4 0 0, .keySwitch 0 16 0, .netRoute 4 0 0, .netRoute 0 4096 0, .netRoute 0 0 256,
      .netTable { src := 0, dst := 0, counter := 0 } 4096 [], .netTime { src := 4096, dst := 0, counter := 0 } 0 0,
      .netLease { src := 0, dst := 4096, counter := 0 } 0 [], .joinDone { src := 0, dst := 0, counter := 0, port := some 4 },
      .netDomainAck { src := 0, dst := 0, counter := 0 } 1024 0, .leaseLapse 1024, .gapTimeout 1024,
      .coldReset 16 {}, .warmReset 16 {}, .linkKeyChangeAuto 4, .ackInterval 4, .pciePowerState false 2 true,
      .vectorUnmask 2 ⟨0, []⟩, .vectorUnmask 0 ⟨1024, []⟩, .vectorUnmask 0 ⟨0, [(4096, 0)]⟩].all (fun c => !c.wellFormed) = true := by decide

/-- A DOMAIN record whose root is no 32 bytes, and one of slice 1024. -/
theorem test_ill_formed_domain :
    [({ slice := 1024, rseq := 1, home := 0, present := false, epoch := 0, floor := 0, gen0 := 0, cursor := 0, root := [], revoked := [], full := true } : DomainRec),
      { slice := 0, rseq := 1, home := 0, present := true, epoch := 0, floor := 0, gen0 := 0, cursor := 0, root := [], revoked := [], full := true }].all
      (fun r => !r.ok) = true := by decide

/-! ## Witnesses of the hypotheses -/

/-- Doorbells: slice 1023 and ring 15, a count equal to the ring size, one more, an equal TAIL, and each way to be dropped. -/
theorem wit_Doorbells :
    (let s := sliced (ringed { en := true, head := 65535 })
     let g := (s.slice 1023).ring 15
     s.hif.dropDoorbells = false ∧ bits 0xFF0000003F 39 32 = (s.slice 1023).gen ∧ (s.slice 1023).st ≠ .disabled ∧ g.en = true ∧ g.fault = false ∧
       ¬((s.slice 1023).st = .resetting ∧ (s.slice 1023).op.isSome) ∧ (bits 0xFF0000003F 15 0 + 65536 - g.head) % 65536 ≤ g.size ∧
       bits 0xFF0000003F 15 0 ≠ g.tail ∧ g.size < (bits 0xFF00000040 15 0 + 65536 - g.head) % 65536 ∧ bits 0x00 39 32 ≠ (s.slice 1023).gen ∧
       (bits 0xFF00000000 15 0 + 65536 - g.head) % 65536 ≤ g.size ∧ bits 0xFF00000000 15 0 = g.tail) ∧
    (live.slice 1023).st = .disabled ∧
    (let s := sliced (ringed { en := false })
     (s.slice 1023).st ≠ .disabled ∧ bits 0xFF00000001 39 32 = (s.slice 1023).gen ∧ ((s.slice 1023).ring 15).en = false) := by decide

/-- Fetches of an announced index, and of one that is not, with the DMA of the slice's port running and not. -/
theorem wit_DescriptorFetch :
    (let s := sliced (ringed { en := true, tail := 1 })
     ((s.slice 1023).ring 15).awaits 0 = true ∧ ((s.slice 1023).ring 15).awaits 1 = false ∧ s.dmaOn (s.slice 1023).port = false) ∧
    (let s : State := { linked with hif := { live.hif with slices := [(1023, ringed { en := true, tail := 1 })] } }
     ((s.slice 1023).ring 15).awaits 0 = true ∧ s.dmaOn (s.slice 1023).port = true) := by decide

/-- A command that waits for input 0 and not for input 1, with the DMA of its slice's port running and not. -/
theorem wit_InputReads :
    (let s : State := { linked with trv := { live.trv with cmds := [{ held with want := [0] }] } }
     s.cmd? 1 = some { held with want := [0] } ∧ s.dmaOn (s.slice held.slice).port = true) ∧
    (let s : State := { live with trv := { live.trv with cmds := [{ held with want := [0] }] } }
     s.cmd? 1 = some { held with want := [0] } ∧ s.dmaOn (s.slice held.slice).port = false) ∧ 0 ∈ [0] ∧ 1 ∉ [0] := by decide

theorem wit_SliceOperations :
    (let s := sliced { st := .ready }
     s.writable 0x010010 = true ∧ s.on R.HIF_SLICE_CMD_STS_BUSY = false ∧ s.sliceBusy 1023 = false ∧
       s.hif.staged.any (fun e => e.1 == 1023) = false ∧ (s.slice 1023).st ≠ .disabled) ∧
    (sliced { st := .ready, op := some .quiesce }).sliceBusy 1023 = true ∧
    live.sliceBusy 0 = false ∧ live.hif.staged.any (fun e => e.1 == 0) = false ∧ (live.slice 0).st = .disabled := by decide

set_option maxRecDepth 4096 in
theorem wit_SliceUpkeep :
    (live.writable 0x010010 = true ∧ live.on R.HIF_SLICE_CMD_STS_BUSY = false ∧ live.on R.GLB_CFG_STS_BUSY = false ∧ live.sliceBusy 1023 = false) ∧
    (let s : State := { linked with hif := { live.hif with loading := some 1023 } }
     s.hif.loading = some 1023 ∧ (parseCtx (fill 24 0 ++ [8] ++ fill 487 0)).isSome = true ∧ s.dmaOn s.adminPort = true ∧ s.on R.GLB_CFG_STS_BUSY = false ∧ s.sliceBusy 1023 = false ∧
       (s.slice 1023).st ≠ .ready) ∧
    ((sliced { st := .quiescing }).slice 1023).st = .quiescing ∧ (sliced { st := .quiescing }).inflightOf 1023 = 0 ∧
    live.writable 0x010018 = true := by decide

/-- A READY slice may be loaded with the context it has. -/
theorem wit_SliceUpkeep_ready : sameForReady {} ((sliced { st := .ready }).slice 1023).ctx = true := by decide

theorem wit_PostedWrites :
    (live.on (stallField 0) = false ∧ live.on (stallField 1) = false ∧ (w live [(stallField 1, 0, 1)]).on (stallField 1) = true) ∧
    (linked.dmaOn 0 = true ∧ linked.dmaOn 1 = true ∧ live.dmaOn 0 = false ∧ live.dmaOn 1 = false ∧ linked.linkUp 0 = true ∧
      linked.linkUp 1 = true) ∧
    (Tab.get false live.hif.d3 2 = false ∧ Tab.get false live.hif.d3 3 = false ∧ live.hif.creditA = true ∧ live.hif.creditB = true) ∧
    (1 < 2 ∧ 1023 < 1024 ∧ 1023 < pcieVectors 1 ∧ 2 < 3 ∧
      (let s : State := { live with hif := { live.hif with pba := [(2047, true)] } }
       let w (u : State) : State := [(4092, 5)].foldl (fun (v : State) (e : Nat × Nat) => v.msixWrite 1 e.1 e.2) u
       Tab.get false (w live).hif.pba 2047 = false ∧ Tab.get false (w s).hif.pba 2047 = true)) := by decide

theorem wit_HostLinks :
    (live.portInReset 0 = false ∧ (w live [(R.HIF_PORT_CTL_MODE, 0, 1)]).portInReset 1 = false) ∧
    (∃ p, p < 2 ∧ live.portInReset p = true) ∧ live.glb.rst = none ∧
    (let s := w live [(R.HIF_PORT_CTL_MODE, 0, 2), (linkField 1, 0, 1)]
     s.get R.HIF_PORT_CTL_MODE = 2 ∧ s.linkUp 1 = true ∧ s.linkUp 0 = false) ∧
    live.get R.HIF_PORT_CTL_MODE ≠ 2 := by decide

theorem wit_BadAccess :
    (regAt 0x000000).isSome = true ∧ badShape 0x000000 8 = true ∧ badShape 0x000000 4 = false ∧ live.stage ≠ 0 ∧ (w live [(R.GLB_STS_STAGE, 0, 1)]).stage ≠ 0 ∧
    State.reset.stage = 0 ∧ State.reset.glb.powered = false ∧ live.glb.badSeen = false ∧
    ({ live.glb with badSeen := true } : Glb).badSeen = true ∧ live.glb.powered = true := by decide

/-- An offset without a register, a gated one, and a piece at a gated one. -/
theorem wit_UnoccupiedAndGated :
    regAt 0x3FFFFC = none ∧
    (let s := w live [(R.CLK_GATE_ON, 0, 0)]
     (regAt 0x030000).isSome = true ∧ s.glb.powered = true ∧ s.gated 0x030000 = true ∧
       ({ group := 0, master := 0, op := 0, addr := 0x10030000, len := 4 } : FabricAcc).ok = true ∧ 0x10030000 % 4096 + 4 ≤ 4096 ∧
       fabStore 0x10030000 = some (.regs, 0x030000)) := by decide

theorem wit_ViolationCapture :
    7 < 8 ∧ 15 < 16 ∧ 3 < 4 ∧ 2 ^ 40 - 1 < 2 ^ 40 ∧ 2047 < 2 ^ 11 ∧ live.on R.GRD_VIOL_INFO_VALID 7 = false ∧
    (w live [(R.GRD_VIOL_INFO_VALID, 7, 1)]).on R.GRD_VIOL_INFO_VALID 7 = true ∧ live.writable 0x0D0108 = true := by decide

/-- A register with W1C fields; in stage 0xB nothing is writable. -/
theorem wit_PlainRegisterWrites :
    ((regAt 0x020028).isSome = true ∧ live.writable 0x020028 = true ∧ guardOwned 0x020028 = false ∧
      (live.specialWrite .admin 0x020028 0).isNone = true ∧ 0x020028 ≠ 0x000030) ∧
    (let s := w live [(R.GLB_STS_STAGE, 0, 0xB)]
     s.gated 0x010000 = false ∧ s.writable 0x010000 = false) := by decide

theorem wit_GuardRegisterWrites :
    ((regAt 0x0D0178).isSome = true ∧ guardOwned 0x0D0178 = true ∧ 0x0D0178 = 0x0D0108 + 16 * 7 ∧ live.writable 0x0D0178 = true) ∧
    (∀ g ∈ List.range 8, 0x0D0008 ≠ 0x0D0108 + 16 * g ∧ 0x0D0000 ≠ 0x0D0108 + 16 * g) ∧
    (Src.admin ≠ .core ∧ Src.corePriv ≠ .tamp) ∧
    ((regAt 0x0D0008).any (fun e => e.1.fields.any (fun f => f.acc == .st)) = true ∧
      (live.specialWrite .corePriv 0x0D0008 1).isNone = true ∧ live.writable 0x0D0008 = true) ∧
    (regAt 0x0D0000).any (fun e => e.1.fields.all (fun f => f.acc == .w1c || f.acc == .ro)) = true := by decide

/-- An enable of an event that is not pending, and of one that is. -/
theorem wit_InterruptEnableWrite :
    (irqOf 0x02002C).isSome = true ∧ live.writable 0x02002C = true ∧ guardOwned 0x02002C = false ∧ live.storedAt 0x020028 = 0 ∧
    (let s := w live [(R.TRV_ERR_STS_HOLD_EXPIRE, 0, 1)]
     let t := s.set R.TRV_IRQ_EN_EN 0 0x1F
     (t.get R.TRV_IRQ_EN_EN &&& s.storedAt 0x020028) &&& (2 ^ 64 - 1 - s.get R.TRV_IRQ_EN_EN) ≠ 0) := by decide

theorem wit_GuardedWrites :
    (live.writable (0x031000 + 4 * 1023) = true ∧ led.holds 1023 roleSO = true ∧ live.holds 1023 roleSO = false) ∧
    (live.writable 0x0C000C = true ∧ led.holds devSession roleSO = true ∧ live.get R.LC_STATE_CODE = 3) ∧
    (let s : State := { w led [(R.RNG_CTL_CELL_EN, 0, 0xFF)] with rng := { led.rng with cells := List.replicate 8 .inUse } }
     s.writable 0x090040 = true ∧ bit 0xF 0 = true ∧ bits 0xF 3 1 = 7 ∧
       4 ≤ ((List.range 8).filter (fun i => i != 7 && s.rng.cell i == .inUse)).length ∧ bit (s.get R.RNG_CTL_CELL_EN) 7 = true ∧
       s.rng.tap ≠ some 7 ∧ ({ s.rng with tap := some 7 } : Rng).tap = some 7) ∧
    ((List.range 8).filter (fun i => i != 7 && live.rng.cell i == .inUse)).length < 4 ∧
    (live.writable 0x110010 = true ∧ live.on R.GLB_STS_SERVICE_READY = false ∧
      (w live [(R.GLB_STS_SERVICE_READY, 0, 1)]).on R.GLB_STS_SERVICE_READY = true) := by decide

theorem wit_StoreLoading :
    live.writable 0x030010 = true ∧ live.writable 0x050010 = true ∧ live.writable 0x060010 = true ∧ live.writable 0x030000 = true ∧
    live.on R.TU_CTL_LOCK = false ∧ live.on StoreId.pkRoutine.lock = false ∧ live.on StoreId.luRoutine.lock = false ∧
    live.gated 0x030000 = false ∧ live.gated 0x050000 = false ∧ live.gated 0x060000 = false := by decide

/-- The last byte of core memory under the default map of the privileged cores has no colour open; a region opens it. -/
theorem wit_FabricPieces :
    (let s := w live [(R.GRD_RGN_VALID, 64, 1), (R.GRD_RGN_BASE, 64, 0x5BFF), (R.GRD_RGN_SIZE, 64, 12), (R.GRD_RGN_R, 64, 1),
       (R.GRD_RGN_W, 64, 1), (R.GRD_RGN_ANYCOL, 64, 1)]
     let a : FabricAcc := { group := 1, master := 0, op := 1, addr := 0x05BFFFFF, len := 1, data := [1] }
     let u := (s.flipDescs a.descFlips).dramErrors a.badReads []
     a.ok = true ∧ a.addr % 4096 + a.len ≤ 4096 ∧ fabStore a.addr = some (.coreMem, 0x3FFFFF) ∧ (u.regionCheck a .coreMem 0x3FFFFF).1 = 0xF ∧
       (u.regionCheck a .coreMem 0x3FFFFF).2.1.anycol = true ∧ (u.regionCheck a .coreMem 0x3FFFFF).2.2 = u) ∧
    (let a : FabricAcc := { group := 1, master := 0, op := 1, addr := 0x05BFFFFF, len := 1, data := [1] }
     live.storeGated .coreMem 0x3FFFFF = false ∧ lockedFor .coreMem 0x3FFFFF a.group a.master a.op = false ∧
       live.groupBad a.group = false ∧ live.matching a.group a.addr = []) ∧
    Memory.wf live.fab.ram = true := by decide

/-- An active command of slice 1023 with a granted step `k` of `n`, of class 0x10 or 0x11 for a bulk opcode. -/
def granted (op k n : Nat) : Cmd :=
  { held with
      desc := toLE 2 op ++ [BitVec.ofNat 8 (if op / 128 = 4 then 0x10 else if op / 128 = 5 then 0x11 else 0x20)] ++ fill 125 0
      st := .active
      granted := true
      step := k
      s := n
      tokens := 1 }

/-- `live` with command `c`. -/
def cmding (c : Cmd) : State := { live with trv := { live.trv with cmds := [c] } }

/-- A step that does not form its opcode's result has no two computations that could differ. -/
theorem disagrees_of_noWork (s : State) (o : OpSpec) (c : Cmd) (h : o.worksIn c = false) : s.disagrees o c = false := by
  simp [State.disagrees, h]

/-- Nor has one whose opcode compares nothing. -/
theorem disagrees_of_agrees (s : State) (o : OpSpec) (c : Cmd) (h : o.agrees = fun _ _ => true) : s.disagrees o c = false := by
  simp [State.disagrees, h]

/-- The rows that do work in every step. -/
theorem test_rows_at_work : (engineRows false ++ engineRows true).all (fun r => !r.spec.worksIn (granted r.op 1 2) ||
    [0x0200, 0x0201, 0x0202, 0x0203, 0x0204, 0x0208, 0x0209, 0x0280, 0x0281, 0x0288, 0x0289, 0x0330].contains r.op) = true := by decide

/-- Nothing voids a first step: of the rows that work in their last step, of the bulk rows, and of PK_KEYGEN once its output is
given up. -/
theorem wit_runsOn :
    (∀ r ∈ engineRows false ++ engineRows true, r.spec.worksIn (granted r.op 1 2) = false →
      (cmding (granted r.op 1 2)).runsOn r.spec (granted r.op 1 2)) ∧
    (∀ o ∈ [opSymEcb, opSymCbc, opSymCtr, opSymGcm, opSymXts, opSymMacGenerate, opSymMacVerify, opHash, opHashBatch, opHmacGenerate,
      opHmacVerify], ∀ op, live.runsOn o (granted op 1 2)) ∧
    live.runsOn opKeygen { granted 0x0330 1 2 with code := ccFormatInvalid } := by
  refine ⟨fun r _ h => ⟨by simp [granted], rfl, by simp [State.carryBad, granted], disagrees_of_noWork _ _ _ h⟩,
    fun o ho op => ⟨by simp [granted], rfl, by simp [State.carryBad, granted], ?_⟩,
    ⟨by decide, rfl, by simp [State.carryBad, granted], by simp [State.disagrees, ccFormatInvalid, ccOk]⟩⟩
  simp only [List.mem_cons, List.not_mem_nil, or_false] at ho
  rcases ho with h | h | h | h | h | h | h | h | h | h | h <;> subst h <;> exact disagrees_of_agrees _ _ _ rfl

/-- Every row of the engines has a command that is due, in its first step and in its last. -/
theorem wit_EngineStepRuns :
    (engineRows false ++ engineRows true).all (fun r =>
      Desc.opcode (granted r.op 1 1).desc == r.op && (cmding (granted r.op 1 1)).cmd? 1 == some (granted r.op 1 1)
        && (cmding (granted r.op 2 2)).cmd? 1 == some (granted r.op 2 2)) = true ∧
    live.on R.DOSE_STS_BROWNOUT = false ∧ (granted 0x0280 1 1).step ≠ 0 ∧ (granted 0x0280 2 2).step = (granted 0x0280 2 2).s ∧
    isBulk (granted 0x0200 1 1).desc = true ∧ isBulk (granted 0x0289 1 1).desc = true ∧ isBulk (granted 0x0300 1 1).desc = false ∧
    (granted 0x0300 1 1).used ≤ energyCap (granted 0x0300 1 1) := by decide

/-- A step that meters more than its tokens under brown-out, a first void and a void in the repeat; a command that is not
due. (What a step meters is a free value, so that it exceeds the tokens is a premise no state decides.) -/
theorem wit_EngineStepsLost :
    (let s := w (cmding { granted 0x0280 1 1 with cost := { dose := 1 } }) [(R.DOSE_STS_BROWNOUT, 0, 1)]
     let c : Cmd := { granted 0x0280 1 1 with cost := { dose := 1 } }
     s.cmd? 1 = some c ∧ s.on R.DOSE_STS_BROWNOUT = true) ∧
    ({ granted 0x0280 1 1 with tokens := 0 } : Cmd).tokens = 0 ∧ (granted 0x0280 1 1).tokens ≠ 0 ∧
    ({ granted 0x0280 1 1 with starved := true } : Cmd).starved = true ∧
    (granted 0x0280 1 1).repeats = 0 ∧ 1 ≤ ({ granted 0x0280 1 1 with repeats := 1 } : Cmd).repeats ∧
    (live.cmd? 1).isNone = true ∧ (engineRows (!live.isContinue 1)).any (fun r => r.op == 0x0330) = true := by decide

/-- The last step of two: no check of a first step stands before it. -/
theorem wit_EngineAnswers :
    [0x0131, 0x0209, 0x0289, 0x0130, 0x0208, 0x0288, 0x0280, 0x0138, 0x0403].all (fun op =>
      (cmding (granted op 2 2)).cmd? 1 == some (granted op 2 2) && Desc.opcode (granted op 2 2).desc == op
        && (granted op 2 2).step == (granted op 2 2).s && (granted op 2 2).code == ccOk) = true ∧
    live.on R.DOSE_STS_BROWNOUT = false ∧
    (∀ o ∈ [opMacVerify, opSymMacVerify, opHmacVerify, opMacGenerate, opSymMacGenerate, opHmacGenerate, opHash, opWagerSeal,
      opKeyInvalidate], ({ live with free := 1 } : State).stepCode o (granted 0x0131 2 2) = ccOk ∧
        live.runsOn o (granted 0x0131 2 2)) ∧
    hEphem ({} : KeyRec).handle = false ∧ live.ks.revoked.length + 1 ≤ 16384 := by
  refine ⟨by decide, by decide, fun o ho => ⟨rfl, by decide, rfl, by decide, ?_⟩, by decide, by decide⟩
  simp only [List.mem_cons, List.not_mem_nil, or_false] at ho
  rcases ho with h | h | h | h | h | h | h | h | h <;> subst h <;> exact disagrees_of_agrees _ _ _ rfl

theorem wit_FrameBoundaryOrder :
    (State.reset.glb.powered = false ∧ live.glb.powered = true ∧ live.clk.fatal = false ∧ live.clk.safe = none ∧ live.trv.words = []) ∧
    (let s (n : Nat) : State := { live with clk := { live.clk with safe := some [0], passRun := n } }
     let u (n : Nat) : State := ({ s n with frameNo := 1 } : State).tamperPins {}
     (u 10).clk.safe.isSome = true ∧ ((u 10).clockWindows {}).clk.passRun < 16 ∧ ((u 10).clockWindows {}).glb.rst = none ∧
       ((u 11).clockWindows {}).clk.safe.isSome = true ∧ 16 ≤ ((u 11).clockWindows {}).clk.passRun) ∧
    (let s : State := { live with clk := { live.clk with fatal := true } }
     let t := (s.creditFrame 0 true).creditFrame 1 true
     let u := ({ t with frameNo := 1 } : State).tamperPins {}
     s.clk.fatal = true ∧ t.clk.fatal = true ∧ u.clk.safe = none ∧ u.glb.rst = none) := by decide

/-- A released command and what its next checks look at; a held command that is ready, and refused since the configuration of the reset offers no engine; one that waits 4,096 frames. -/
theorem wit_HeldWork :
    (let r : Cmd := { held with st := .released, tries := 63 }
     (cmding r).cmd? 1 = some r ∧ r.st = .released ∧ (w (cmding r) [(R.TRV_STS_FATAL, 0, 1)]).on R.TRV_STS_FATAL = true) ∧
    (cmding held).cmd? 1 = some held ∧ held.st = .held ∧ held.dep = 0 ∧ held.release ≤ live.frameNo + 1 ∧
    live.frameNo + 1 < ({ held with release := 2 } : Cmd).release ∧ 64 ≤ ({ held with tries := 64 } : Cmd).tries ∧
    live.on R.TRV_STS_UPDATE = false ∧ live.on R.TRV_STS_FATAL = false ∧ Desc.continue_ held.desc = false ∧
    ({ held with dep := 1 } : Cmd).waitFrom + 4096 ≤ ({ live with frameNo := 4096 } : State).frameNo ∧
    (4095 : Nat) < ({ held with dep := 1 } : Cmd).waitFrom + 4096 ∧ ({ held with tries := 63 } : Cmd).tries < 64 := by decide

/-- A present domain of slice 1023 at epoch `e` with FLOOR `f`. -/
def domained (e f : Nat) : State :=
  { w led [(R.KS_STS_DATUM, 0, 1)] with ks := { live.ks with
    domains := [(1023, { present := true, floor := f })]
    leaves := [(0, { kind := .epoch, slice := 1023, owner := 1023, a := e, b := e, c := e })] } }

theorem wit_DomainCommands :
    (live.writable 0x08000C = true ∧ live.notHome 1023 = false ∧ live.on R.KS_CMD_STS_BUSY = false ∧ live.holds 1023 roleSO = false) ∧
    (let s := w led [(R.KS_STS_DATUM, 0, 1)]
     s.holds 1023 roleSO = true ∧ s.on R.KS_STS_DATUM = true ∧ s.ks.ctRo = false ∧ (s.domain 1023).present = false ∧ s.ks.leaves.length + 3 ≤ 31744) ∧
    (let s := domained 3 1
     (s.domain 1023).present = true ∧ s.epochOf 1023 - (s.domain 1023).floor ≠ 3 ∧ s.epochOf 1023 ≠ 2 ^ 48 - 1 ∧ (s.domain 1023).floor ≠ s.epochOf 1023) ∧
    (domained 4 1).epochOf 1023 - ((domained 4 1).domain 1023).floor = 3 ∧
    ((domained 4 4).domain 1023).floor = (domained 4 4).epochOf 1023 ∧
    (domained (2 ^ 48 - 1) (2 ^ 48 - 1)).epochOf 1023 = 2 ^ 48 - 1 := by decide

theorem wit_KeyStoreCommands :
    (led.writable 0x080008 = true ∧ led.on R.TMP_STS_CLAMP = false ∧ led.on R.KS_CMD_STS_BUSY = false ∧ led.holds devSession roleSO = true ∧
      led.get R.LC_STATE_CODE = 3 ∧ (w led [(R.RNG_STS_STATE, 0, rngService)]).rngState = rngService ∧
      (w led [(R.TMP_STS_CLAMP, 0, 1)]).on R.TMP_STS_CLAMP = true ∧ 2 ≤ led.stage ∧ led.stage ≠ 0xB ∧ led.gated 0x080008 = false ∧ led.writable 0x080014 = true ∧ led.writable 0x080088 = true ∧
      (w led [(R.LC_STATE_CODE, 0, 2)]).get R.LC_STATE_CODE = 2) ∧
    (let y : Dying := { index := 5, slots := 2, frame := 0, handles := [1023 * 2 ^ 54 + 5 * 2 ^ 30] }
     let s : State := { live with ks := { live.ks with domains := [(1023, { present := true, dying := [y] })] } }
     let t : State := { s with ks := { s.ks with krc := [{ handle := 1023 * 2 ^ 54 + 5 * 2 ^ 30 }] } }
     (s.domain 1023).dying.find? (fun z => z.index == 5 && !z.freed) = some y ∧ s.ks.krc.any (s.dyingEntry 1023 y) = false ∧
       (t.domain 1023).dying.find? (fun z => z.index == 5 && !z.freed) = some y ∧ t.ks.krc.any (t.dyingEntry 1023 y) = true) ∧
    (let s : State := { sliced { st := .ready, cont := [(3, 7, 1, 0)] } with frameNo := 65536 }
     (s.slice 1023).cont.find? (fun e => e.1 == 3) = some (3, 7, 1, 0) ∧ 0 + 65536 ≤ s.frameNo ∧ 65535 < 0 + 65536) ∧
    (let a : Accum := { slice := 1023, session := 1, seq := 0, acc := [], officers := [], total := 2, params := [], frame := 0 }
     ∃ x ∈ ({ live.ks with accums := [a] } : Ks).accums, x.slice = 1023 ∧ x.frame + 256 ≤ 256) ∧
    (∀ a ∈ live.ks.accums, a.slice = 1023 → live.frameNo < a.frame + 256) := by decide

theorem wit_RawBlocks :
    (let s : State := { w live [(R.RNG_STS_STATE, 0, rngService)] with rng := { live.rng with cells := List.replicate 7 .off ++ [.inUse] } }
     s.rng.cell 7 = .inUse ∧ s.rngState = rngService ∧ s.rngState ≠ rngWarmup ∧ s.recentFails < 7) ∧
    (w live [(R.RNG_STS_STATE, 0, rngWarmup)]).rngState = rngWarmup ∧
    (let s : State := { w live [(R.RNG_STS_STATE, 0, rngWarmup)] with rng := { live.rng with cells := List.replicate 7 .off ++ [.inUse], warmFails := 6, blocks := 1023 } }
     s.rng.cell 7 = .inUse ∧ s.rngState = rngWarmup ∧ s.rng.warmFails < 7 ∧ s.rng.blocks < 1024) ∧
    (let s (n : Nat) : State := { live with rng := { live.rng with cells := [.restart n] } }
     (s 4).rng.cell 0 = .restart 4 ∧ (s 3).rng.cell 0 = .restart 3 ∧ 4 ≤ 4 ∧ 3 < 4) ∧
    (∀ n ∈ List.range 5, live.rng.cell 7 ≠ .restart n) ∧ ({ live.rng with cells := [.passed] } : Rng).cell 0 = .passed ∧
    (let soon (r : Rng) : Bool := r.holdReq.any (fun h => decide (h.1 ≤ live.frameNo + 1))
     soon live.rng = false ∧ soon { live.rng with holdReq := some (live.frameNo + 1, true, 0) } = true ∧
     soon { live.rng with holdReq := some (live.frameNo + 2, true, 0) } = false) ∧
    (w live [(R.RNG_STS_STATE, 0, rngHold)]).rngState = rngHold := by decide

set_option exponentiation.threshold 2048 in
set_option maxRecDepth 65536 in
/-- A block of equal bits fails a test of a block. -/
theorem wit_RawBlocks_tests : live.blockTests 7 0 ≠ 0 := by decide

set_option exponentiation.threshold 2048 in
set_option maxRecDepth 65536 in
/-- A block of alternating bits passes them. -/
theorem wit_RawBlocks_passes : live.blockTests 7 (BitVec.ofNat 1024 (fieldLE (fill 128 0x55) 0 128)) = 0 := by decide

theorem wit_HoldAndAlarm :
    (let s : State := { w live [(R.RNG_STS_STATE, 0, rngHold)] with rng := { live.rng with
       cells := List.replicate 8 .inUse, exps := List.replicate 4 { refill := true, fresh := true } } }
     s.rngState = rngHold ∧ s.cellsWell = true ∧ (∀ i ∈ List.range 4, (s.rng.exp i).fresh = true ∧ (s.rng.exp i).run = true)) ∧
    live.rngState ≠ rngHold ∧ 3 < 4 ∧ (w live [(R.RNG_STS_STATE, 0, rngService)]).rngServes = true ∧ live.rngServes = false ∧
    (let soon (r : Rng) : Bool := r.holdReq.any (fun h => decide (h.1 ≤ live.frameNo))
     soon live.rng = false ∧ soon { live.rng with holdReq := some (live.frameNo, false, 0) } = true ∧
     soon { live.rng with holdReq := some (live.frameNo + 1, false, 0) } = false) ∧
    (let r : Rng := { live.rng with exps := [{ age := 16 }] }; 16 ≤ (r.exp 0).age ∧ (r.exp 1).age < 16) ∧ live.rngState ≠ rngFatal ∧ (w live [(R.RNG_STS_STATE, 0, rngFatal)]).rngState = rngFatal := by decide

theorem wit_WarmupAndTap :
    (let s : State := { w live [(R.RNG_STS_STATE, 0, rngWarmup)] with rng := { live.rng with
        blocks := 1024, cells := List.replicate 8 .inUse, queue := List.replicate 6 (fill 32 1) } }
     s.rngState = rngWarmup ∧ 1024 ≤ s.rng.blocks ∧ s.cellsWell = true ∧ 6 ≤ s.rng.queue.length ∧ s.get R.RNG_KAT_STS_COND = 0 ∧
       s.get R.RNG_KAT_STS_EXP = 0 ∧ s.rng.admin = [] ∧ s.rng.reserve = []) ∧ 16 % 16 = 0 ∧ 15 % 16 ≠ 0 ∧ live.rng.blocks < 1024 ∧
    (let s : State := { w live [(R.RNG_RAW_CTL_RESTART, 0, 1), (R.RNG_RAW_CTL_RESTART_LEN, 0, 1023)] with rng := { live.rng with tap := some 7 } }
     let n := s.get R.RNG_RAW_CTL_RESTART_LEN
     s.rng.tap.isSome = true ∧ s.rng.tapLeft = 0 ∧ ({ s.rng with tapLeft := 1 } : Rng).tapLeft ≠ 0 ∧
       s.on R.RNG_RAW_CTL_RESTART = true ∧ s.rng.tapStop = none ∧ 0 < n ∧
       s.rng.tapFrom + n ≤ s.rng.tapBits + 1023 ∧
       ({ s.rng with tapStop := some 2 } : Rng).tapStop.isSome = true ∧
       s.rng.tapBits + 1023 < s.rng.tapFrom + (w s [(R.RNG_RAW_CTL_RESTART_LEN, 0, 1024)]).get R.RNG_RAW_CTL_RESTART_LEN) ∧ live.rng.tap = none ∧ live.on R.RNG_RAW_CTL_RESTART = false := by decide

theorem wit_AdminDraws :
    (let s : State := { w live [(R.RNG_STS_STATE, 0, rngService)] with rng := { live.rng with admin := [{ len := 48 }], waiting := [(48, .netCreate)] } }
     s.rng.waiting = [(48, .netCreate)] ∧ s.rngServes = true ∧ 48 ≤ s.rng.pool) ∧
    (47 : Nat) < 48 ∧ live.rng.waiting = [] ∧ AdminOp.datum ≠ .netCreate := by decide

theorem wit_LifecycleWrites :
    (live.lcWritable = true ∧ State.reset.lcWritable = false ∧ live.tapAnswers = true ∧
      (w live [(R.LC_STATE_CODE, 0, 1)]).get R.LC_STATE_CODE ≤ 1 ∧ State.reset.tapAnswers = false ∧ 1 < live.get R.LC_STATE_CODE) ∧
    (led.writable 0x0A0014 = true ∧ led.holds devSession roleSO = true ∧ live.holds devSession roleSO = false ∧ led.get R.LC_STATE_CODE = 3 ∧
      led.on R.LC_STS_BUSY = false ∧ led.updating = false ∧ (w led [(R.LC_STS_BUSY, 0, 1)]).on R.LC_STS_BUSY = true ∧
      (w led [(R.LC_STATE_CODE, 0, 2)]).get R.LC_STATE_CODE ≠ 3) := by decide

theorem wit_DrainsEnd :
    (let s : State := { w live [(R.LC_STS_DRAIN, 0, 1)] with lc := { live.lc with target := some 2, begun := true } }
     s.lc.target = some 2 ∧ s.lc.begun = true ∧ s.lc.programming = false ∧ s.on R.LC_STS_DRAIN = true ∧ s.trv.cmds = [] ∧
       s.otpAt otpDeviceSecret = {} ∧ s.lcBits 3 ≠ []) ∧
    (let s : State := { live with lc := { live.lc with zeroize := true, zeroBegun := true } }
     s.lc.zeroize = true ∧ s.lc.zeroBegun = true ∧ s.trv.cmds = []) ∧ (cmding held).trv.cmds ≠ [] := by decide

/-- OTP fields at both ends of the codes, in their states; the bits that CAPS needs; a damaged field of each kind. -/
theorem wit_OtpAccess :
    (live.writable 0x0A0040 = true ∧ live.on R.LC_OTP_STS_BUSY = false ∧ (w live [(R.LC_OTP_STS_BUSY, 0, 1)]).on R.LC_OTP_STS_BUSY = true) ∧
    (0 ∉ otpCodes ∧ 7 ∉ otpCodes ∧ 1 ∈ otpCodes ∧ 0x1F ∈ otpCodes ∧ live.get R.LC_STATE_CODE ≠ otpState 1) ∧
    (let s := w live [(R.LC_STATE_CODE, 0, 1)]
     s.get R.LC_STATE_CODE = otpState 0x1F ∧ (s.otpAt 0x1F).lock = false ∧ subBits (s.otpAt 0x1F).a 1 = true ∧
       ({ s with otp := [(0x1F, { lock := true })] } : State).otpAt 0x1F = { lock := true }) ∧
    (let s := w live [(R.LC_STATE_CODE, 0, 2)]
     s.get R.LC_STATE_CODE = otpState 5 ∧ fuseMinimum 1 = true ∧ missingBits 5 0 256 1 0 ≠ [] ∧ fuseMinimum (2 ^ 64 - 1) = false) ∧
    (1 ≠ 6 ∧ (live.otpAt 1).damaged 1 = false) ∧
    (let l : Lc := { live.lc with otpBits := [(1, 0, 1), (1, 0, 0)] }
     l.bits = [] ∧ l.bitRan = false ∧ l.otpTries < 3 ∧ live.glb.pwrFail = false ∧ live.clk.fatal = false ∧ live.clk.safe = none ∧
       ({ live.clk with safe := some [1] } : Clk).safe.isSome = true) ∧
    (let s : State := { live with otp := [(1, { a := 1 }), (2, { a := 1 }), (5, { a := 1 })] }
     (s.otpAt 1).damaged 1 = true ∧ (s.otpAt 2).damaged 2 = true ∧ (s.otpAt 5).damaged 5 = true ∧ 1 < s.get R.LC_STATE_CODE) := by decide

/-- A response of the right form still rests on its signatures, which the spec takes from outside; the other answers are shown. -/
theorem wit_DebugCommands :
    (live.on R.LC_DBG_STS_BUSY = false ∧ live.writable 0x0A0020 = true ∧ live.tapAnswers = true ∧ live.get R.LC_STATE_CODE ≠ 4 ∧
      live.get R.LC_STATE_CODE ≠ 5 ∧ live.get R.LC_STATE_CODE ≠ 7 ∧ live.dbgCheck (some []) = 2) ∧
    (let s : State := { live with lc := { live.lc with chal := some (0, 15) } }
     s.lc.chal = some (0, 15) ∧ s.dbgCheck (some (fill 224 0)) ≠ 0 ∧ s.dbgCheck (some (fill 224 0)) ≠ 2) ∧
    ((w live [(R.LC_STATE_CODE, 0, 4)]).get R.LC_STATE_CODE = 4 ∧ (w live [(R.LC_STATE_CODE, 0, 7)]).get R.LC_STATE_CODE = 7 ∧
      (w live [(R.LC_STATE_CODE, 0, 7)]).writable 0x0A0020 = true) ∧
    (let s : State := { w live [(R.LC_STATE_CODE, 0, 4)] with lc := { live.lc with toOpen := some (15, 0) } }
     s.lc.toOpen = some (15, 0) ∧ s.get R.LC_STATE_CODE ≠ 2 ∧ s.get R.LC_STATE_CODE ≠ 3) ∧
    live.lc.toOpen = none ∧ 0 + 65536 ≤ ({ live with frameNo := 65536 } : State).frameNo ∧ (65535 : Nat) < 0 + 65536 := by decide

theorem wit_QuorumCommands :
    (live.writable 0x0B0004 = true ∧ (w live [(R.QU_CMD_STS_BUSY, 0, 1)]).on R.QU_CMD_STS_BUSY = true ∧ live.on R.QU_CMD_STS_BUSY = false ∧
      1024 ≤ devSession ∧ devSession < 1025 ∧ live.debugIsOpen = false ∧ live.quorumState = true ∧ (led.session 1024).st ≠ 0 ∧
      (live.session 1024).st = 0) ∧
    (live.enrollErr 1024 none ≠ 0 ∧ live.removeErr 1024 0 0 ≠ 0 ∧ live.policyErr 1024 none ≠ 0) ∧
    (∃ b : Bytes, (led.policyErr 1023 (some b) ≠ 0)) := by
  refine ⟨by decide, by decide, ⟨[], by decide⟩⟩

theorem wit_SignInAndExpiry :
    (let c : QuCmd := { op := 2, scope := 1024 }
     ({ live with lc := { live.lc with cmd := some c } } : State).lc.cmd = some c ∧ c.op = 2) ∧ live.lc.cmd = none ∧
    (let s : State := { led with sessions := [(1024, { st := 2, start := 1, life := 255 })], frameNo := 256 }
     (s.session 1024).st ≠ 0 ∧ (s.session 1024).start + (s.session 1024).life ≤ s.frameNo) ∧
    (live.session 1024).st = 0 ∧ 255 < 1 + 255 := by decide

theorem wit_TamperSensors :
    (let s : State := { live with tmp := { live.tmp with meshRun := [(7, 1)], zeroLow := true } }
     let b : MeshBit := { drv := 0x80, up := 0x80, down := 0 }
     ¬(bit b.up 7 = bit b.drv 7 ∧ bit b.down 7 = bit b.drv 7) ∧ Tab.get 0 s.tmp.meshRun 7 + 1 = 2 ∧
       (bit b.up 6 = bit b.drv 6 ∧ bit b.down 6 = bit b.drv 6) ∧ s.tmp.zeroLow = true ∧ live.tmp.zeroLow = false) ∧
    (7 < 8 ∧ bit ((w live [(R.TMP_MESH_CFG_EN, 0, 0x80)]).get R.TMP_MESH_CFG_EN) 7 = true ∧ bit ((w live [(R.TMP_MESH_CFG_EN, 0, 0)]).get R.TMP_MESH_CFG_EN) 7 = false) ∧
    (let s := w live [(R.TMP_TS_CFG_INPUT, 0, 0x01000000)]
     let t := w live [(R.TMP_TS_CFG_INPUT, 0, 0x05000000)]
     bit (s.get R.TMP_TS_CFG_INPUT / 256 ^ 3 % 256) 0 = true ∧ bit (s.get R.TMP_TS_CFG_INPUT / 256 ^ 3 % 256) 2 = false ∧
       bit (t.get R.TMP_TS_CFG_INPUT / 256 ^ 3 % 256) 2 = true ∧ bit (s.get R.TMP_TS_CFG_INPUT / 256 ^ 0 % 256) 0 = false) ∧
    (live.tmpOff = false ∧ (w live [(R.LC_STATE_CODE, 0, 5)]).tmpOff = true ∧ State.reset.tmpOff = false) ∧
    (2300 ≤ 2300 ∧ 2299 < 2300 ∧ (-40 : Int) ≤ -40 ∧ (-41 : Int) < -40 ∧ 2500 ≤ 2500 ∧ 2499 < 2500) ∧
    (6 ≤ 6 ∧ 7 = 7 ∧ 7 < 8 ∧ live.glb.powered = true ∧ State.reset.glb.powered = false ∧ ({ live.tmp with uvArmed := true } : Tmp).uvArmed = true) ∧
    ((100 : Int) ≤ 100 ∧ (100 : Int) < 101 ∧ 3600 ≤ 3600 ∧ 3600 < 3601 ∧ 3900 ≤ 3900 ∧ 3900 < 3901) ∧
    (let c : BatteryReadings := { vbat := 2300, temp := -640 }
     c.mesh = [] ∧ c.ts = [] ∧ c.light = [] ∧ c.zeroize = false ∧ c.reversed = false ∧ -640 ≤ c.temp ∧ c.temp ≤ 1600 ∧ 2300 ≤ c.vbat ∧ c.vbat ≤ 3900) := by
  decide

theorem wit_TamperResponse :
    ((w live [(R.LC_STATE_CODE, 0, 7)]).get R.LC_STATE_CODE = 7 ∧ (w live [(R.LC_STATE_CODE, 0, 1)]).get R.LC_STATE_CODE = 1 ∧
      live.on R.TMP_CTL_TEST_ARM = false ∧ 2 ≤ live.get R.LC_STATE_CODE ∧ live.get R.LC_STATE_CODE ≤ 4 ∧
      (w live [(R.LC_STATE_CODE, 0, 4)]).get R.LC_STATE_CODE = 4) ∧
    (live.glb.powered = true ∧ live.tmp.respEnd ≤ live.frameNo ∧ live.frameNo < ({ live.tmp with respEnd := 1 } : Tmp).respEnd) ∧
    (w State.reset [(R.LC_STATE_CODE, 0, 3)]).glb.powered = false ∧ State.reset.tmp.once ≠ 2 := by decide

theorem wit_MemorySecurityCommands :
    (live.writable 0x0E0008 = true ∧ live.on R.MSC_CMD_STS_BUSY = false ∧ (w live [(R.MSC_CMD_STS_BUSY, 0, 1)]).on R.MSC_CMD_STS_BUSY = true) ∧
    (let s := w live [(R.CLK_GATE_ON, 0, 0)]
     s.writable 0x0E0008 = false ∧ s.glb.powered = true ∧ s.gated 0x0E0008 = true) ∧
    (let s : State := { w live [(R.MSC_WALK_STS_ACTIVE, 0, 1), (R.MSC_WALK_STS_INIT, 0, 1), (R.MSC_WALK_STS_ENTRY, 0, 15),
       (R.MSC_MAP_SIZE, 15, 1), (R.MSC_WALK_STS_POS, 0, 0x400000 - 4096)] with fab := { live.fab with walkRate := 4096 } }
     s.on R.MSC_WALK_STS_ACTIVE = true ∧ s.on R.MSC_WALK_STS_INIT = true ∧
       (s.get R.MSC_MAP_BASE 15 + s.get R.MSC_MAP_SIZE 15) * 2 ^ 22 ≤ s.get R.MSC_WALK_STS_POS + min 4096 s.fab.walkRate) ∧
    live.on R.MSC_WALK_STS_ACTIVE = false ∧
    (let e : WcbEntry := { line := 5, data := fill 64 0, mask := 1, anycol := true }
     let s : State := { live with fab := { live.fab with wcb := [e] }, frameNo := 16 }
     s.fab.wcb.find? (fun x => x.line == 5) = some e ∧ e.frame + 16 ≤ s.frameNo ∧ 15 < e.frame + 16 ∧ e.mask ≠ 2 ^ 64 - 1 ∧ e.anycol = true ∧
       e.setcol = false) ∧
    (let s : State := { w live [(R.MSC_MAP_VALID, 0, 1), (R.MSC_MAP_SIZE, 0, 1), (R.MSC_MAP_KEYID, 0, 1), (R.MSC_KEYID_STS_ACTIVE, 0, 2)] with
       fab := { live.fab with lines := [(5, { data := fill 64 0, keyId := 1, alloc := 7 })], allocs := [(1, 7)], badReads := [(5, 2)] } }
     Tab.get 0 s.fab.badReads 5 < 3 ∧ s.lineFault 5 = none ∧ s.debugBars 0 (s.lineAt 5).colour = false ∧ s.mapOf (5 * 64) = some 0) ∧
    live.fab.wcb.any (fun e => e.line == 5) = false := by decide

/-- A session of the device with every role, and one of none. -/
theorem wit_FieldbookCommands :
    (led.writable 0x0F0008 = true ∧ led.on R.FB_CMD_STS_BUSY = false ∧ (w led [(R.FB_CMD_STS_BUSY, 0, 1)]).on R.FB_CMD_STS_BUSY = true ∧
      led.holds devSession roleAud = true ∧ led.holds devSession roleSO = true ∧ live.holds devSession roleAud = false ∧
      live.holds 1023 roleAud = false ∧ led.fb.frozenAt = none ∧ led.fb.exporting = false ∧ 1024 ≤ 1024 ∧ 1024 < 1025) ∧
    (let b : Fb := { live.fb with frozenAt := some 0, keep := true, clearOk := true }
     b.frozenAt.isSome = true ∧ b.keep = true ∧ b.clearOk = true ∧ b.exporting = false) := by decide

theorem wit_FieldbookEvents :
    (let s : State := { linked with fb := { live.fb with exporting := true, frozenAt := some 0 }, frameNo := 4096 }
     s.fb.exporting = true ∧ s.credit s.adminPort = true ∧ s.fb.exLeft = 0 ∧ s.fb.exNow < s.fb.exRate ∧ s.fb.pending.length < 64 ∧
       (s.triggers 0x0002).length = 0 ∧ s.fb.frozenAt = some 0 ∧ ({ s.fb with exNow := 512 } : Fb).exRate ≤ 512) ∧
    (let s : State := { live with fb := { live.fb with frozenAt := some 0 }, frameNo := 4096 }
     s.fb.frozenAt = some 0 ∧ 0 + 4096 ≤ s.frameNo ∧ s.fb.exporting = false ∧ s.fb.frozenAt.isSome = true) ∧
    (4095 < 0 + 4096 ∧ live.fb.frozenAt = none ∧ live.fb.exporting = false ∧ live.fb.bufferBytes ≤ 98304) ∧
    (let s : State := { live with fb := { live.fb with refused := 1 }, frameNo := 4096 }
     s.frameNo % 4096 = 0 ∧ s.fb.refused ≠ 0) ∧ 4095 % 4096 ≠ 0 ∧ live.fb.refused = 0 ∧ 2 ≤ 2 := by decide

/-- The diagnostic buffer past 96 KB: 308 records of 320 bytes. -/
theorem wit_FieldbookEvents_buffer (r : FbRec) (h : r.diag = true) :
    98304 < ({ live.fb with buffer := List.replicate 308 r } : Fb).bufferBytes := by
  have : ∀ n k, (List.replicate n r).foldl (fun m (x : FbRec) => m + (if x.diag then 320 else 64)) k = k + 320 * n := by
    intro n
    induction n with
    | zero => intro k; rfl
    | succ n ih => intro k; rw [List.replicate_succ, List.foldl_cons, ih]; simp only [h, if_true]; omega
  simp only [Fb.bufferBytes]
  rw [this 308 0]; omega

theorem wit_UpdateCommands :
    (led.writable 0x100004 = true ∧ led.on R.UPD_CMD_STS_BUSY = false ∧ (w led [(R.UPD_CMD_STS_BUSY, 0, 1)]).on R.UPD_CMD_STS_BUSY = true ∧
      led.on R.LC_STS_BUSY = false ∧ led.get R.UPD_STS_STATE = 0 ∧ led.holds devSession roleOper = true ∧ live.holds devSession roleOper = false ∧
      live.holds devSession roleSO = false) ∧
    ((w live [(R.UPD_STS_STATE, 0, 6), (R.UPD_PROGRESS_NEXT, 0, 1)]).get R.UPD_STS_STATE = 6 ∧
      (w live [(R.UPD_STS_STATE, 0, 6), (R.UPD_PROGRESS_NEXT, 0, 1)]).get R.UPD_PROGRESS_NEXT ≠ 0 ∧
      (∀ n ∈ [1, 2, 3, 5], (w live [(R.UPD_STS_STATE, 0, n)]).get R.UPD_STS_STATE = n)) ∧
    (led.upd.cand = none ∧ ({ led.upd with cand := some [0] } : Upd).cand.isSome = true ∧ (w led [(R.LC_STS_BUSY, 0, 1)]).on R.LC_STS_BUSY = true) ∧
    (led.on R.UPD_STS_UNCONFIRMED = false ∧ (w led [(R.UPD_STS_UNCONFIRMED, 0, 1)]).on R.UPD_STS_UNCONFIRMED = true ∧ led.get R.LC_STATE_CODE = 3 ∧
      led.ks.ctRo = false) := by decide

/-- Whether a head sector is acceptable rests on its signatures; a malformed one is not. -/
theorem wit_UpdateSteps :
    (let s : State := { w live [(R.UPD_STS_STATE, 0, 1)] with upd := { live.upd with cand := some [0] } }
     s.get R.UPD_STS_STATE = 1 ∧ s.upd.cand = some [0] ∧ s.upd.passed = none ∧ s.upd.sector = none ∧ s.updHalted = false ∧
       (w s [(R.UPD_STS_STATE, 0, 6)]).get R.UPD_STS_STATE = 6 ∧ (w s [(R.TMP_STS_HALT, 0, 1)]).updHalted = true) ∧
    (let s : State := { w live [(R.UPD_STS_STATE, 0, 2)] with upd := { live.upd with recorded := true } }
     s.get R.UPD_STS_STATE = 2 ∧ s.upd.recorded = true ∧ s.updStopped = false ∧ s.glb.pwrFail = false ∧ s.trv.cmds = [] ∧
       ({ s with glb := { s.glb with pwrFail := true } } : State).updStopped = true) ∧
    (∃ c ∈ (cmding (granted 0x0280 1 1)).trv.cmds, c.isHeld = false) ∧
    (live.get R.UPD_STS_STATE ≠ 1 ∧ live.get R.UPD_STS_STATE ≠ 6 ∧ live.get R.UPD_STS_STATE ≠ 2 ∧ live.upd.sector = none) ∧
    (let u : Upd := { live.upd with sector := some [], tries := 2 }
     u.sector = some [] ∧ u.tries < 3 ∧ 3 ≤ ({ u with tries := 3 } : Upd).tries) ∧
    (w live [(R.UPD_STS_STATE, 0, 4)]).get R.UPD_STS_STATE = 4 ∧ headSectors [] ≤ 0 := by decide

theorem wit_TrimAndMuxes :
    ((w live [(R.CLK_TRIM_CFG_SRC, 0, 3)]).get R.CLK_TRIM_CFG_SRC = 3 ∧ (w live [(R.CLK_TRIM_CFG_SRC, 0, 2)]).get R.CLK_TRIM_CFG_SRC = 2) ∧
    (let s := w live [(R.CLK_TRIM_CFG_SRC, 0, 1)]
     s.get R.CLK_TRIM_CFG_SRC ≠ 0 ∧ s.on R.CLK_STS_HOLDOVER = false ∧ s.clk.skip = false ∧ s.on R.CLK_STS_LOCK = false ∧
       (trimError 1 8192041 0).natAbs ≤ 500 ∧ 500 < (trimError 1 8192042 0).natAbs ∧ 2000 < (trimError 1 8192165 0).natAbs ∧
       500 < (trimError 2 200000000 5010).natAbs ∧ (trimError 3 8192000 (-204)).natAbs ≤ 500) ∧
    (2 ≤ ({ live.clk with good := 1 } : Clk).good + 1 ∧ (w live [(R.CLK_STS_LOCK, 0, 1)]).on R.CLK_STS_LOCK = true ∧
      ({ live.clk with skip := true } : Clk).skip = true ∧ live.get R.CLK_TRIM_CFG_SRC = 0) ∧
    (w live [(R.CLK_STS_HOLDOVER, 0, 1)]).on R.CLK_STS_HOLDOVER = true ∧
    (let s := w live [(R.CLK_MUX_STS_BUSY, 0, 4), (R.CLK_STS_DDR_LOCK, 0, 1)]
     2 < 3 ∧ bit (s.get R.CLK_MUX_STS_BUSY) 2 = true ∧ s.oldClockRuns 2 = true) ∧ bit (live.get R.CLK_MUX_STS_BUSY) 0 = false := by decide

theorem wit_ClockFailures :
    (let s := w live [(R.GLB_STS_SERVICE_READY, 0, 1), (R.CLK_MON_STS_OK, 0, 0x3FF)]
     s.glb.powered = true ∧ s.get R.LC_STATE_CODE = 3 ∧ s.on R.GLB_STS_SERVICE_READY = true ∧ s.clk.fatal = false ∧
       bit (s.get R.CLK_MON_STS_OK) 2 = true ∧ s.glb.rst = none) ∧
    (6 = 6 ∧ 7 = 7 ∧ 8 = 8 ∧ 9 = 9 ∧ 9 < 10 ∧ live.get R.CLK_TRIM_CFG_SRC ≠ 1 ∧ live.get R.CLK_TRIM_CFG_SRC ≠ 2 ∧
      (w live [(R.CLK_TRIM_CFG_SRC, 0, 2)]).get R.CLK_TRIM_CFG_SRC = 2) ∧
    (let s := w live [(R.CLK_MON_STS_OK, 0, 0), (R.GLB_STS_SERVICE_READY, 0, 1)]
     let failed := s.monitorFails 5 1 0
     bit (failed.get R.CLK_MON_STS_OK) 2 = false ∧ bit (failed.get R.CLK_MON_STS_OK) 0 = false ∧ failed.glb.rst = none) ∧
    (live.on R.GLB_STS_SERVICE_READY = false ∧ live.clk.safe = none ∧ 1 ≠ 0 ∧ ({ live.clk with fatal := true } : Clk).fatal = true ∧
      (let k : Clk := { live.clk with safe := some [5], passRun := 11 }
       k.safe.isSome = true ∧ 11 ≤ k.passRun ∧ live.clk.passRun < 11)) := by decide

theorem wit_Telemetry :
    (let s := w live [(R.DOSE_RAIL_CFG_EN, 6, 1)]
     6 ∈ s.railsOn ∧ 7 ∉ s.railsOn ∧ bit (s.get R.CLK_GATE_ON) 8 = true ∧ s.clk.safe = none ∧
       bit ((w s [(R.CLK_GATE_ON, 0, 0xFF)]).get R.CLK_GATE_ON) 8 = false ∧ bits 0x1F 7 5 = 0 ∧ bits 0x20 7 5 ≠ 0 ∧ ({ live.dose with modes := [(6, 64 + 31)] } : Dose).modes.get 0 6 = 64 + 31) ∧
    (95 * railNominal 0 ≤ 100 * 713 ∧ 100 * 712 < 95 * railNominal 0) ∧
    (scaled (40 % 2048) (40 / 2048 % 32) 4 = 160 ∧ bit 0x8000 15 = true ∧ bit 0x4000 14 = true ∧ bit 0x3FFF 15 = false ∧ bit 0x3FFF 14 = false) ∧
    (0 % 256 = 0 ∧ live.dose.roundAt ≠ live.frameNo + 1 ∧ 255 % 256 ≠ 0 ∧ live.dose.roundVoid = false ∧ live.railsOn = [] ∧
      ({ live.dose with roundVoid := true } : Dose).roundVoid = true ∧ live.dose.voids < 3 ∧ 3 ≤ ({ live.dose with voids := 3 } : Dose).voids ∧
      live.dose.rounds.length < 3 ∧ 3 ≤ ({ live.dose with rounds := [1, 2, 3] } : Dose).rounds.length) := by decide

theorem wit_WarningsAndCeiling :
    (live.dose.brownReq = none ∧ ({ live.dose with brownReq := some (15, 0) } : Dose).brownReq.isSome = true) ∧
    (let s : State := { w live [(R.DOSE_STS_BROWNOUT, 0, 1)] with dose := { live.dose with clean := true, alertHigh := true }, frameNo := 256 }
     s.on R.DOSE_STS_BROWNOUT = true ∧ s.dose.brownAt + 256 ≤ s.frameNo ∧ s.dose.alertHigh = true ∧ s.dose.clean = true) ∧
    (live.on R.DOSE_STS_BROWNOUT = false ∧ 255 < live.dose.brownAt + 256) ∧
    (let s : State := { w live [(R.DOSE_THERM_EN, 0, 1)] with dose := { live.dose with hot := 2 } }
     s.on R.DOSE_THERM_EN = true ∧ 2 ≤ s.dose.hot ∧ s.on R.DOSE_STS_THERM = false) ∧
    (let s : State := { w live [(R.DOSE_STS_THERM, 0, 1), (R.DOSE_THERM_EN, 0, 1)] with dose := { live.dose with cool := 256 } }
     s.on R.DOSE_STS_THERM = true ∧ 256 ≤ s.dose.cool ∧ ({ s.dose with cool := 255 } : Dose).cool < 256) ∧
    (bit (live.get R.CLK_GATE_ON) 8 = true ∧ live.clk.safe = none ∧ ({ live.clk with safe := some [5] } : Clk).safe.isSome = true) := by decide

theorem wit_ConfigurationCommands :
    live.writable 0x000048 = true ∧ live.on R.GLB_CFG_STS_BUSY = false ∧ (w live [(R.GLB_CFG_STS_BUSY, 0, 1)]).on R.GLB_CFG_STS_BUSY = true ∧
    4 ≤ live.stage ∧ (w live [(R.GLB_STS_STAGE, 0, 3)]).stage < 4 ∧ (w live [(R.GLB_STS_STAGE, 0, 3)]).writable 0x000048 = true ∧
    (let s : State := { w live [(R.GLB_CFG_STS_PASSED, 0, 1)] with glb := { live.glb with clean := true } }
     s.on R.GLB_CFG_STS_PASSED = true ∧ s.glb.clean = true ∧ s.on R.GLB_CFG_STS_STALE = false) ∧ live.on R.GLB_CFG_STS_PASSED = false := by decide

theorem wit_ResetsAskedFor :
    (led.writable 0x000030 = true ∧ led.glb.rst = none ∧ led.glb.powered = true ∧ 1 ≤ led.stage ∧ led.get R.LC_STATE_CODE ≠ 5 ∧
      led.holds devSession roleSO = true ∧ live.holds devSession roleSO = false ∧ live.on R.TMP_STS_HALT = false ∧ live.stage ≠ 8) ∧
    (let g : Glb := { live.glb with rst := some ⟨true, 9, true⟩ }
     g.rst = some ⟨true, 9, true⟩ ∧ live.trv.cmds.all (·.isHeld) = true ∧ live.warmAllowed = true ∧
       (cmding (granted 0x0280 1 1)).trv.cmds.all (·.isHeld) = false ∧ (w live [(R.GLB_STS_STAGE, 0, 4)]).warmAllowed = false) := by decide

theorem wit_ResetsPerformed :
    15 < 16 ∧ live.glb.powered = true ∧ live.warmAllowed = true ∧ (w live [(R.GLB_STS_STAGE, 0, 0xB)]).warmAllowed = true ∧
    State.reset.glb.powered = false ∧ (w live [(R.GLB_STS_STAGE, 0, 4)]).warmAllowed = false := by decide

/-- Every condition of R371 in one state. -/
def ready : State :=
  { w live [(R.MSC_DRAM_STS_CH0, 0, 1), (R.TU_CTL_LOCK, 0, 1), (R.PK_CTL_LOCK, 0, 1), (R.LU_CTL_LOCK, 0, 1), (R.CL_STS_KAT_DONE, 0, 1),
      (R.HL_STS_KAT_DONE, 0, 1), (R.PK_STS_KAT_DONE, 0, 1), (R.LU_STS_KAT_DONE, 0, 1), (R.RNG_STS_KAT_DONE, 0, 1), (R.RNG_STS_STATE, 0, rngService),
      (R.KS_STS_READY, 0, 1)] with glb := live.glb }

theorem wit_PowerAndService :
    (State.reset.glb.powered = false ∧ live.glb.powered = true ∧ live.glb.pwrFail = false ∧ ({ live.glb with pwrFail := true } : Glb).pwrFail = true ∧
      live.glb.rst = none) ∧
    (let s := w live [(R.MGT_PIN_STS_PERST_A_N, 0, 1), (R.MGT_PIN_STS_PERST_B_N, 0, 1), (R.HIF_PORT_CTL_MODE, 0, 2)]
     s.on R.MGT_PIN_STS_PERST_A_N = true ∧ s.on R.MGT_PIN_STS_PERST_B_N = true ∧ s.portInReset 0 = false ∧ s.portInReset 1 = false ∧
       s.get R.HIF_PORT_CTL_MODE = 2) ∧
    (ready.readyNow = true ∧ ready.on R.GLB_STS_SERVICE_READY = false ∧ live.readyNow = false) := by decide

/-- `led` as member 7 of a Net. -/
def member : State := w led [(R.NET_STS_MEMBER, 0, 1), (R.NET_STS_ID, 0, 7), (R.NET_MEMBER_STATE, 4095, 1), (R.KS_STS_DATUM, 0, 1)]

/-- Port 3 in a STATE. -/
def ported (s : State) (st : Nat) (x : NetPort) : State :=
  { w s [(R.NET_PORT_STS_STATE, 3, st), (R.NET_PORT_CTL_EN, 3, 1)] with net := { s.net with ports := [(3, x)] } }

theorem wit_NetCommands :
    (led.writable 0x130008 = true ∧ led.on R.NET_CMD_STS_BUSY = false ∧ (w led [(R.NET_CMD_STS_BUSY, 0, 1)]).on R.NET_CMD_STS_BUSY = true ∧
      led.holds devSession roleSO = true ∧ live.holds devSession roleSO = false ∧ led.on R.NET_STS_MEMBER = false ∧ led.get R.LC_STATE_CODE = 3 ∧
      (w led [(R.KS_STS_DATUM, 0, 1)]).on R.KS_STS_DATUM = true ∧ led.on R.KS_STS_DATUM = false) ∧
    (3 < 4 ∧ (ported led 3 {}).get R.NET_PORT_STS_STATE 3 = 3 ∧ 1023 < 1024 ∧ led.get R.NET_PORT_STS_STATE 3 ≠ 3) ∧
    (member.on R.NET_STS_MEMBER = true ∧ member.on R.NET_STS_BENCH = false ∧ member.homedAt 7 = [] ∧ member.get R.NET_MEMBER_STATE 4095 = 1 ∧
      member.get R.NET_MEMBER_STATE 0 ≠ 1 ∧ (w member [(R.NET_STS_BENCH, 0, 1)]).on R.NET_STS_BENCH = true ∧ member.isHome 1023 = false) ∧
    (let s := w member [(R.NET_SLICE_REPL, 1023, 1), (R.NET_SLICE_HOME, 1023, 7)]
     s.isHome 1023 = true ∧ s.homedAt (s.get R.NET_STS_ID) ≠ []) ∧
    (let s : State := { led with net := { led.net with request := some ([], 0, [], []) } }
     s.requested = true ∧ s.acceptCheck none = (0xA, []) ∧ led.requested = false) := by decide

theorem wit_NetLinks :
    ((ported live 1 {}).get R.NET_PORT_STS_STATE 3 = 1 ∧ live.get R.NET_PORT_STS_STATE 3 ≠ 1 ∧
      (let s : State := { ported live 4 {} with frameNo := 1024 }
       s.get R.NET_PORT_STS_STATE 3 = 4 ∧ s.on R.NET_PORT_CTL_EN 3 = true ∧ (s.port 3).downAt + 1024 ≤ s.frameNo)) ∧
    (let s := ported live 2 { flitFails := 2, tagFails := [0, 0, 0, 0, 0, 0, 0], acked := 5, rxSeq := 1 }
     s.netRuns = true ∧ (w s [(R.CLK_GATE_ON, 0, 0)]).netRuns = false ∧ (s.port 3).await = false ∧
     s.get R.NET_PORT_STS_STATE 3 = 2 ∧ (s.port 3).flitFails < 3 ∧ (s.port 3).acked ≤ 5 ∧ 4 < (s.port 3).acked ∧ (s.port 3).rxSeq ≠ 0 ∧
       7 ≤ ((s.port 3).tagFails.filter (fun f => decide (s.frameNo < f + 4096))).length) ∧
    (let s := ported live 3 { flitFails := 3 }
     s.get R.NET_PORT_STS_STATE 3 = 3 ∧ (s.port 3).flitFails = 3 ∧ (s.port 3).rxSeq = 0) := by decide

theorem cut_append (a b : Bytes) (k : Nat) (h : a.length = k) (hb : b.length = 2) : cut (a ++ b) k 2 = b := by
  subst h; simp only [cut, List.drop_left]; exact List.take_of_length_le (Nat.le_of_eq hb)

theorem toLE_two_ne (n : Nat) : toLE 2 (n + 1) ≠ toLE 2 n := by
  intro h
  have h1 : BitVec.ofNat 8 (n + 1) = BitVec.ofNat 8 n := (List.cons.inj h).1
  have h2 := congrArg BitVec.toNat h1
  simp only [BitVec.toNat_ofNat] at h2
  omega

/-- On a port without a key, of which a flit is awaited: a flit as it was sent, one with another TAG, and one with another DCODE. -/
theorem wit_NetLinks_flits :
    (let s := ported live 2 { flitFails := 2, await := true, rxSeq := 6 }
     let y := (s.idleIn 3).port 3
     let good : Bytes := fill 30 0
     let bad : Bytes := fill 28 0 ++ [1#8, 0#8]
     y.rxKey y.rxSeq = none ∧ y.await = true ∧ ((s.port 3).tagFails.filter (fun g => decide (s.frameNo < g + 4096))).length < 7 ∧
       flitFault none 6 (flitBytes none 6 idlePayload) = none ∧
       flitFault none 6 (bad ++ toLE 2 (crcOf 16 0x1021 bad)) = some true ∧
       flitFault none 6 (good ++ toLE 2 (crcOf 16 0x1021 good + 1)) = some false) := by
  have hlen : ∀ n, (toLE 2 n).length = 2 := fun _ => rfl
  refine ⟨by decide, by decide, by decide, ?_, ?_, ?_⟩
  · have hb : flitBytes none 6 idlePayload = fill 30 0 ++ toLE 2 (crcOf 16 0x1021 (fill 30 0)) := rfl
    rw [hb]; unfold flitFault
    rw [cut_append _ _ 30 rfl (hlen _), List.take_left' (i := 30) rfl, if_neg (by simp), if_neg (by simp [cut, fill, flitTag])]
  · unfold flitFault
    rw [cut_append _ _ 30 rfl (hlen _), List.take_left' (i := 30) rfl, if_neg (by simp), if_pos (by simp [cut, fill, flitTag])]
  · unfold flitFault
    rw [cut_append _ _ 30 rfl (hlen _), List.take_left' (i := 30) rfl, if_pos (toLE_two_ne _)]

theorem wit_LinkKeys :
    (let h : HelloFlit := { member := 4095, nonce := [], netId := [] }
     let s := ported member 2 {}
     s.netRuns = true ∧ s.get R.NET_PORT_STS_STATE 3 = 2 ∧ s.on R.NET_STS_MEMBER = true ∧ s.netSilent = false ∧ (s.port 3).next = none ∧ h.member ≤ 0xFFF ∧
       h.member ≠ s.get R.NET_STS_ID ∧ fitTo 8 h.netId = fitTo 8 s.net.netId ∧ s.get R.NET_MEMBER_STATE h.member ≠ 2) ∧
    (let s := ported member 3 { next := some (15, [], []), txSwitch := some 4, acked := 4, peer := some { member := 4095, nonce := [], netId := [] } }
     (s.port 3).next = some (15, [], []) ∧ (s.port 3).rxSwitch = none ∧ (s.port 3).txSwitch = some 4 ∧ 4 ≤ (s.port 3).acked ∧ 15 < 16 ∧ 15 ≠ 14) ∧
    (let s := ported member 3 { txSwitch := some 4, acked := 3, sent := 2 ^ 40, peer := some { member := 4095, nonce := [], netId := [] } }
     (s.port 3).acked < 4 ∧ (s.port 3).peer = some { member := 4095, nonce := [], netId := [] } ∧ s.get R.NET_PORT_STS_STATE 3 = 3 ∧
       (s.port 3).next = none ∧ 2 ^ 40 ≤ (s.port 3).sent ∧ (s.port 3).rcvd < 2 ^ 40 ∧ 2 ^ 40 ≤ ({ rcvd := 2 ^ 40 } : NetPort).rcvd) ∧
    (let h : HelloFlit := { member := 4095, nonce := [], netId := [] }
     let s := ported member 3 { peer := some h }
     (s.port 3).next = none ∧ (s.port 3).peer = some h ∧ s.get R.NET_PORT_STS_STATE 3 = 3 ∧ 1 = (s.port 3).keyId % 15 + 1 ∧
       ((ported member 3 {}).port 3).peer = none ∧ (s.port 3).sent < 2 ^ 40) ∧
    (14 < 15 ∧ 0xFFF ≤ 0xFFF ∧ 15 ≤ 15) := by decide

theorem wit_NetMessages :
    (let h : NetHeader := { src := 4095, dst := 7, counter := 0, port := some 3 }
     let s := ported member 3 {}
     h.port = some 3 ∧ s.netRuns = true ∧ s.get R.NET_PORT_STS_STATE 3 = 3 ∧ s.netSilent = false ∧ s.on R.NET_STS_MEMBER = true ∧
       s.net.counterOk h = true ∧ s.get R.NET_MEMBER_STATE h.src = 1 ∧ h.bcast = false ∧ h.dst = s.get R.NET_STS_ID ∧
       6 ≠ s.get R.NET_STS_ID ∧ ({ h with bcast := true } : NetHeader).bcast = true) ∧
    (member.get R.NET_MEMBER_STATE 0 ≠ 1 ∧ member.others ≠ []) ∧ live.get R.NET_PORT_STS_STATE 3 ≠ 3 ∧
    (w live [(R.CLK_GATE_ON, 0, 0)]).netRuns = false := by decide

/-- A message sealed as its sender seals it has the right tag, and its counter is new. -/
theorem wit_NetMessages_tag (body : NetBody) (bcast : Bool) :
    (let s := ported member 3 {}
     let h : NetHeader := { src := 4095, dst := 7, bcast := bcast, counter := 0, port := some 3, tag := (messageSeal s.net.nrk 4095 7 bcast 0 [] body).2 }
     h.tag = (messageSeal s.net.nrk h.src h.dst h.bcast h.counter h.boot body).2 ∧ s.net.counterOk h = true) := ⟨rfl, rfl⟩

theorem wit_NetUpkeep :
    (({ live.net with stepTo := some 1 } : Net).stepTo = some 1 ∧ live.frameNo < 1 ∧ live.net.stepTo = none) ∧
    (let s : State := { ported member 3 {} with net := { (ported member 3 {}).net with aligning := true } }
     s.netRuns = true ∧ s.get R.NET_PORT_STS_STATE 3 = 3 ∧ s.netSilent = false ∧ s.net.aligning = true) ∧
    (member.net.aligning = false ∧ member.on R.NET_STS_ALIGNED = false ∧ ({ frame := 0, elapsed := 0, hops := 0, first := true } : MarkFlit).first = true) ∧
    (let s : State := { w member [(R.NET_SLICE_REPL, 1023, 1), (R.NET_SLICE_HOME, 1023, 4095), (R.NET_SLICE_LEASE_OK, 1023, 1)] with
       net := { member.net with slices := [(1023, { lease := 16384 })] }, frameNo := 16384 }
     s.on R.NET_STS_MEMBER = true ∧ s.on R.NET_SLICE_REPL 1023 = true ∧ s.get R.NET_SLICE_HOME 1023 ≠ s.get R.NET_STS_ID ∧
       s.on R.NET_SLICE_LEASE_OK 1023 = true ∧ (s.repl 1023).lease ≤ s.frameNo ∧ 16383 < (s.repl 1023).lease) ∧
    (let r : DomainRec := { slice := 1023, rseq := 2, home := 0, present := false, epoch := 0, floor := 0, gen0 := 0, cursor := 0, root := [], revoked := [], full := false }
     (({ waiting := [(r, 0, 0)] } : Repl).waiting.any (fun e => decide (e.2.1 + 4096 ≤ 4096)) = true ∧
       ({ waiting := [(r, 1, 0)] } : Repl).waiting.any (fun e => decide (e.2.1 + 4096 ≤ 4096)) = false)) ∧
    (live.repl 1023).sent = [] ∧ ({ live.net with request := some ([], 0, [], []) } : Net).request = some ([], 0, [], []) ∧ 0 + 65536 ≤ 65536 ∧
    65535 < 0 + 65536 ∧ live.net.request = none := by decide

/-- Each state in which one of the forms completes: a frame step asked for, a mark while ALIGNING, a lease, a record and a gap that have
run out, a join request of 65,536 frames, and a reset of either kind. -/
theorem wit_UpkeepAndResetsComplete :
    (({ live.net with stepTo := some 1 } : Net).stepTo = some 1 ∧ live.frameNo < 1) ∧
    (let s : State := { ported member 3 {} with net := { (ported member 3 {}).net with aligning := true } }
     s.netRuns = true ∧ s.get R.NET_PORT_STS_STATE 3 = 3 ∧ s.netSilent = false ∧ s.net.aligning = true ∧
       ({ frame := 0, elapsed := 0, hops := 0, first := true } : MarkFlit).first = true) ∧
    (let s : State := { w member [(R.NET_SLICE_REPL, 1023, 1), (R.NET_SLICE_HOME, 1023, 4095), (R.NET_SLICE_LEASE_OK, 1023, 1)] with
       net := { member.net with slices := [(1023, { lease := 16384 })] }, frameNo := 16384 }
     s.on R.NET_STS_MEMBER = true ∧ s.on R.NET_SLICE_REPL 1023 = true ∧ s.get R.NET_SLICE_HOME 1023 ≠ s.get R.NET_STS_ID ∧
       s.on R.NET_SLICE_LEASE_OK 1023 = true ∧ (s.repl 1023).lease ≤ s.frameNo) ∧
    (let r : DomainRec := { slice := 1023, rseq := 2, home := 0, present := false, epoch := 0, floor := 0, gen0 := 0, cursor := 0, root := [], revoked := [], full := false }
     let s : State := { live with net := { live.net with slices := [(1023, { sent := [{ record := r, frame := 0, pend := [5] }], waiting := [(r, 0, 5)] })] }, frameNo := 4096 }
     s.netRuns = true ∧ (s.repl 1023).sent.any (fun e => decide (e.frame + 1024 ≤ s.frameNo)) = true ∧ (r, 0, 5) ∈ (s.repl 1023).waiting ∧
       0 + 4096 ≤ s.frameNo) ∧
    (({ live.net with request := some ([], 0, [], []) } : Net).request = some ([], 0, [], []) ∧ 0 + 65536 ≤ 65536) ∧
    (led.writable 0x000030 = true ∧ led.glb.rst = none ∧ led.glb.powered = true ∧ 1 ≤ led.stage ∧ led.get R.LC_STATE_CODE ≠ 5 ∧
      led.holds devSession roleSO = true) ∧
    (({ live.glb with rst := some ⟨false, 2, true⟩ } : Glb).rst = some ⟨false, 2, true⟩ ∧ live.trv.cmds.all (·.isHeld) = true) := by decide

theorem wit_StepRunsFrontCommand :
    ({ live with pending := [Instr.lcStatus, .batRev] } : State).pending = Instr.lcStatus :: [.batRev] ∧ live.pending = [] := by decide

/-- A state whose outputs follow, and its step. -/
theorem wit_StepKeepsOutputs : live.wires.OutputsFollow ∧ step live.wires = .next live.wires :=
  ⟨State.wires_follow _, by
    have h : live.wires.pending = [] := by rw [State.wires_pending]; rfl
    unfold step; rw [h]⟩

/-! ## Single steps -/

/-- The state after a step. -/
def after (o : Host.Outcome State Fault Refusal) : State := match o with | .next t => t | _ => State.reset

/-- R40: a doorbell of slice 0, ring 0 with TAIL 3 moves the TAIL, and its TAIL is in the present interval. -/
theorem test_doorbell :
    (let s : State := { live with hif := { live.hif with slices := [(0, { st := .ready, rings := [(0, { en := true })] })] } }
     (((after (exec (.doorbellWrite 0 8 3) s)).slice 0).ring 0).tail = 3) := by decide

/-- R40: a count one above the ring size puts the ring in fault. -/
theorem test_doorbell_overrun :
    (let s : State := { live with hif := { live.hif with slices := [(0, { st := .ready, rings := [(0, { en := true })] })] } }
     (((after (exec (.doorbellWrite 0 8 65) s)).slice 0).ring 0).fault = true) := by decide

/-- R59: RESET of a disabled slice answers ERR 5, of a READY one the slice is RESETTING at once. -/
theorem test_slice_reset :
    (after (exec (.sliceReset 0) live)).get R.HIF_SLICE_CMD_STS_ERR = 5 ∧
    ((after (exec (.sliceReset 1023) (sliced { st := .ready }))).slice 1023).st = .resetting := by decide

set_option maxRecDepth 8192 in
/-- R10: a 64-bit read of the 32-bit GLB_ID returns 0. -/
theorem test_read_width : live.bar0Read 0x000000 8 = 0 := by decide

/-- R11: a W1C field clears where 1 is written. -/
theorem test_write_one_to_clear :
    (let s := w live [(R.TRV_ERR_STS_HOLD_EXPIRE, 0, 1)]
     (after (exec (.registerWrite .admin 0x020028 (2 ^ R.TRV_ERR_STS_HOLD_EXPIRE.lo)) s)).get R.TRV_ERR_STS_HOLD_EXPIRE = 0 ∧
       (after (exec (.registerWrite .admin 0x020028 0) s)).get R.TRV_ERR_STS_HOLD_EXPIRE = 1) := by decide

/-- R284: the violation of an access with the gate off is captured for the administrative function's group 2, cause 1. -/
theorem test_gated_capture :
    (let t := after (exec (.gatedAccess 0x030000 true) (w live [(R.CLK_GATE_ON, 0, 0)]))
     t.get R.GRD_VIOL_INFO_CAUSE 2 = 1 ∧ t.get R.GRD_VIOL_ADDR_ADDR 2 = 0x10030000) := by decide

/-- R369: power-up begins in stage 0 with cause 1. -/
theorem test_power_up :
    (let t := after (exec (.powerUp {}) State.reset)
     t.glb.powered = true ∧ t.stage = 0 ∧ t.get R.GLB_RST_STS_CAUSE = 1) := by decide

/-- R367: before power nothing counts. -/
theorem test_frame_no :
    (after (exec (.frameBoundary {}) State.reset)).frameNo = 0 := by decide

/-- R269: light sensor 15 shows its trip. -/
theorem test_light :
    bit ((after (exec (.tmpLight 15) (w live [(R.LC_STATE_CODE, 0, 0)]))).get R.TMP_LIGHT_STS_TRIP) 15 = true := by decide

/-- R352: without an ACK the oldest unacknowledged flit goes out again. -/
theorem test_replay : (after (exec (.replayTimeout 3) (ported live 2 { acked := 9 }))).net.sent = [.resend 3 9] := by decide

/-- R23: a byte written to core memory reads back. -/
theorem test_fabric_memory :
    (let s := w live [(R.GRD_RGN_VALID, 64, 1), (R.GRD_RGN_BASE, 64, 0x5BFF), (R.GRD_RGN_SIZE, 64, 12), (R.GRD_RGN_R, 64, 1),
       (R.GRD_RGN_W, 64, 1), (R.GRD_RGN_ANYCOL, 64, 1)]
     let a : FabricAcc := { group := 1, master := 0, op := 1, addr := 0x05BFFFFF, len := 1, data := [0xA5] }
     let t := after (exec (.fabricAccess a) s)
     t.ramByte 0x05BFFFFF = 0xA5 ∧ (after (exec (.fabricAccess { a with op := 0 }) t)).fab.reply.data = [0xA5]) := by decide

/-- R399: a bus held low is flagged. -/
theorem test_pmb_stuck : (after (exec .pmbStuck live)).get R.MGT_PMB_ERR_STUCK = 1 := by decide

/-- R341: the ceiling is left after 256 cool boundaries. -/
theorem test_thermal_off :
    (let s : State := { w live [(R.DOSE_STS_THERM, 0, 1), (R.DOSE_THERM_EN, 0, 1)] with dose := { live.dose with cool := 256 } }
     (after (exec .thermalCeilingOff s)).on R.DOSE_STS_THERM = false) := by decide
end Sys2Proof.Tests
end

namespace Sys2Proof.Machine

/-! ## The register map

Where a register lies (R14, R15), and that every register of the map is aligned to its width (R10). -/

/-- The bytes of a register: its width and its alignment (R10). -/
def Reg.bytes (r : Reg) : Nat := if r.wide then 8 else 4

/-- Every element of the register array is aligned to the register's width. -/
def Reg.aligned (r : Reg) : Bool := r.off % r.bytes == 0 && r.stride % r.bytes == 0

theorem regTabOf_all_aligned (n : Nat) : (regTabOf n).all Reg.aligned = true := by
  unfold regTabOf
  split <;> decide

/-- A register found at an offset is listed in its block, and the offset is that of the element found. -/
theorem regAt_some {off i : Nat} {r : Reg} (h : regAt off = some (r, i)) :
    r ∈ regTabOf (off / 0x10000) ∧ off = r.off + r.stride * i := by
  obtain ⟨q, hq, hf⟩ := List.exists_of_findSome?_eq_some h
  split at hf
  next h0 =>
    cases hf
    exact ⟨hq, by simpa using h0⟩
  next =>
    split at hf
    next h1 =>
      obtain ⟨-, hle, hmod, -⟩ := h1
      cases hf
      refine ⟨hq, ?_⟩
      have := Nat.mul_div_cancel' (Nat.dvd_of_mod_eq_zero hmod)
      omega
    next => cases hf

theorem bytes_dvd_of_regAt {off i : Nat} {r : Reg} (h : regAt off = some (r, i)) : r.bytes ∣ off := by
  obtain ⟨hr, rfl⟩ := regAt_some h
  have ha : r.off % r.bytes = 0 ∧ r.stride % r.bytes = 0 := by
    simpa [Reg.aligned] using List.all_eq_true.1 (regTabOf_all_aligned _) r hr
  exact Nat.dvd_add (Nat.dvd_of_mod_eq_zero ha.1) (Nat.dvd_mul_right_of_dvd (Nat.dvd_of_mod_eq_zero ha.2) i)

theorem Reg.four_dvd_bytes (r : Reg) : 4 ∣ r.bytes := by
  unfold Reg.bytes; split <;> decide

theorem badShape_of_regAt {off i : Nat} {r : Reg} (h : regAt off = some (r, i)) (width : Nat) :
    badShape off width = (width != r.bytes) := by
  simp only [badShape, h, Reg.bytes]

/-! ## Accesses that reach no register (R10, R14) -/

theorem State.bar0Read_of_badShape {off width : Nat} (h : badShape off width = true) (s : State) :
    s.bar0Read off width = 0 := by
  simp [State.bar0Read, h]

theorem State.bar0Read_of_gated {s : State} {off : Nat} (h : s.gated off = true) (width : Nat) :
    s.bar0Read off width = 0 := by
  simp [State.bar0Read, h]

theorem State.view_of_unoccupied {off : Nat} (h : regAt off = none) (s : State) : s.view off = 0 := by
  simp [State.view, h]

theorem State.bar0Read_of_unoccupied {off : Nat} (h : regAt off = none) (s : State) (width : Nat) :
    s.bar0Read off width = 0 := by
  simp [State.bar0Read, State.view_of_unoccupied h]

/-- The first badly shaped access since the cold reset is recorded. -/
theorem State.badAccess_first {s : State} {off width : Nat} (isWrite : Bool) (h : badShape off width = true)
    (hp : s.glb.powered = true) (hst : s.stage ≠ 0) (hb : s.glb.badSeen = false) :
    s.badAccess off width isWrite =
      ({ s with glb := { s.glb with badSeen := true } }).record 0x0203 1 devScope off width (b2n isWrite) := by
  simp [State.badAccess, h, hp, hst, hb]

/-- An access before stage 1, or after one that was recorded, changes nothing. -/
theorem State.badAccess_silent {s : State} (off width : Nat) (isWrite : Bool)
    (h : s.glb.powered = false ∨ s.stage = 0 ∨ s.glb.badSeen = true) : s.badAccess off width isWrite = s := by
  unfold State.badAccess
  rw [if_pos]
  rcases h with h | h | h <;> simp [h]

theorem State.gatedAccess_of_gated {s : State} {off : Nat} (src : Src) (isWrite : Bool) (hr : (regAt off).isSome = true)
    (hp : s.glb.powered = true) (hg : s.gated off = true) :
    s.gatedAccess src off isWrite = s.violate (groupOf src) 1 (b2n isWrite) (0x10000000 + off) (masterOf src) 0 := by
  simp [State.gatedAccess, hr, hp, hg]

/-! ## Register writes as they arrive (R14, R238, R263, R369) -/

theorem State.regWrite_of_unoccupied {off : Nat} (h : regAt off = none) (s : State) (src : Src) (word : Nat) :
    s.regWrite src off word = s := by
  simp [State.regWrite, h]

theorem State.regWrite_of_gated {s : State} {off : Nat} (src : Src) (word : Nat) (hr : (regAt off).isSome = true)
    (hg : s.gated off = true) : s.regWrite src off word = s.gatedAccess src off true := by
  simp [State.regWrite, Option.isNone_eq_false_iff.2 hr, hg]

theorem State.gated_of_writable {s : State} {off : Nat} (h : s.writable off = true) : s.gated off = false := by
  simp only [State.writable, Bool.and_eq_true, Bool.not_eq_true'] at h
  exact h.2

theorem State.halt_of_writable {s : State} {off : Nat} (h : s.writable off = true) : s.on R.TMP_STS_HALT = false := by
  simp only [State.writable, Bool.and_eq_true, Bool.not_eq_true'] at h
  exact h.1.2

/-- A register whose write does nothing more than set its fields, in a block that takes it. -/
theorem State.regWrite_plain {s : State} {src : Src} {off word : Nat} (hr : (regAt off).isSome = true)
    (hw : s.writable off = true) (hown : guardOwned off = false) (hsp : s.specialWrite src off word = none)
    (hrst : off ≠ 0x000030) (hlc : off ≠ 0x0A0008) : s.regWrite src off word = s.writeFields none off word := by
  have hdatum : off ≠ 0x080008 := by
    rintro rfl
    simp [State.specialWrite, inRange] at hsp
  have hreg : s.writeReg src off word = s.writeFields none off word := by
    simp [State.writeReg, hown, hsp]
  simp [State.regWrite, Option.isNone_eq_false_iff.2 hr, State.gated_of_writable hw, hrst, hlc, State.halt_of_writable hw,
    hdatum, State.ifWritable_true hw, hreg]

/-- A block that takes no write keeps everything; the registers that are taken on other terms are left out. -/
theorem State.regWrite_of_not_writable {s : State} {off : Nat} (src : Src) (word : Nat) (hg : s.gated off = false)
    (hw : s.writable off = false) (hrst : off ≠ 0x000030) (hdatum : off ≠ 0x080008) (hlc : off ≠ 0x0A0008)
    (hevt : off ≠ 0x0C0008) : s.regWrite src off word = s := by
  simp [State.regWrite, hg, hrst, hlc, hevt, hdatum, State.ifWritable_false hw hg]

/-! ## A piece of the fabric that a clock gate stops (R14, R23) -/

theorem State.gated_of_regs {s t : State} (h : t.regs = s.regs) (off : Nat) : t.gated off = s.gated off := by
  simp only [State.gated, State.get_of_regs h]

/-- An access that crosses no 4 KB boundary is one piece. -/
theorem fabPieces_of_le {a : FabricAcc} (n : Nat) (h : a.addr % 4096 + a.len ≤ 4096) : fabPieces (n + 1) a = [a] := by
  rw [fabPieces]
  exact if_pos (by omega)

/-- A transaction of one piece answers what the piece answers. -/
theorem State.runPieces_single (s : State) (a : FabricAcc) : State.runPieces [a] [] false s = s.fabricPiece a := by
  have hfill : fill 0 0 = [] := rfl
  simp [State.runPieces, hfill]

/-- A piece of the registers whose block has its clock gate off is refused with cause GATED. -/
theorem State.fabricPiece_of_gated {s : State} {a : FabricAcc} {off : Nat} (ha : fabStore a.addr = some (.regs, off))
    (hg : s.gated off = true) : s.fabricPiece a = s.refusePiece a 1 0 := by
  simp [State.fabricPiece, ha, State.storeGated, hg]

theorem State.fabricAccess_of_gated {s : State} {a : FabricAcc} {off : Nat} (hok : a.ok = true)
    (hlen : a.addr % 4096 + a.len ≤ 4096) (hgrp : a.group ≠ 7) (hp : s.glb.powered = true)
    (ha : fabStore a.addr = some (.regs, off)) (hg : s.gated off = true) :
    s.fabricAccess a = ((s.flipDescs a.descFlips).dramErrors a.badReads []).refusePiece a 1 0 := by
  have hlt : a.group < 8 := (of_decide_eq_true hok).1
  have hg' : ((s.flipDescs a.descFlips).dramErrors a.badReads []).gated off = true :=
    (State.gated_of_regs (s := s) rfl off).trans hg
  unfold State.fabricAccess
  rw [if_neg (by simp [hp, hgrp]; omega), fabPieces_of_le _ hlen, State.runPieces_single, State.fabricPiece_of_gated ha hg']

/-! ## The mark of the BAD_ACCESS record through a cold reset (R10, R373) -/

theorem State.setWaiting_glb (s : State) (l : List (Nat × AdminOp)) : (s.setWaiting l).glb = s.glb := rfl

theorem State.showPend_glb (s : State) (n : Nat) : (s.showPend n).glb = s.glb := rfl

theorem State.clkRecord_glb (s : State) (event : Nat) : (s.clkRecord event).glb = s.glb :=
  (State.LogStep.ofRecord ..).glb

/-- A fold of steps of which each keeps the global state keeps it. -/
theorem State.foldl_glb {α : Type} {f : State → α → State} (h : ∀ t x, (f t x).glb = t.glb) (l : List α) (s : State) :
    (l.foldl f s).glb = s.glb :=
  List.foldlRecOn l f (motive := fun t => t.glb = s.glb) rfl (fun t ht x _ => (h t x).trans ht)

theorem State.showHomePends_glb (s : State) (l : List Nat) :
    (l.foldl (fun v n => if v.isHome n then v.showPend n else v) s).glb = s.glb := by
  refine State.foldl_glb (fun t n => ?_) l s
  split
  · exact t.showPend_glb n
  · rfl

/-- A warm reset keeps the mark of the BAD_ACCESS record, a cold one clears it. -/
theorem State.volatileReset_badSeen (s : State) (warm : Bool) (cause : Nat) :
    (s.volatileReset warm cause).glb.badSeen = (warm && s.glb.badSeen) := by
  simp only [State.volatileReset, State.setWaiting_glb, State.set_glb, State.showHomePends_glb]

theorem State.coldReset_badSeen (s : State) (cause : Nat) (boot : BootEnv) : (s.coldReset cause boot).glb.badSeen = false := by
  have h : (s.resetEnds.volatileReset false cause).glb.badSeen = false := s.resetEnds.volatileReset_badSeen false cause
  simp only [State.coldReset]
  split
  · rw [State.clkRecord_glb, State.set_glb, h]
  · rw [State.set_glb, h]

/-! ## The frame boundary (R9, R336, R337, R367) -/

theorem State.queueWords_of_nil {s : State} (h : s.trv.words = []) : s.queueWords = s := by
  simp [State.queueWords, h]

theorem State.resetDue_of_none {s : State} (h : s.glb.rst = none) : s.resetDue = s := by
  simp [State.resetDue, h]

theorem State.safeEnd_of_passed {s : State} (h : s.clk.safe.isSome = true) (hrun : 11 ≤ s.clk.passRun) :
    s.safeEnd = s.askReset false 4 false := by
  simp [State.safeEnd, h, hrun]

theorem State.frameBoundary_of_unpowered {s : State} (env : FrameEnv) (h : s.glb.powered = false) :
    s.frameBoundary env = s := by
  simp [State.frameBoundary, h]

/-- On the fatal clock path and in the safe-state wait the boundary is the quiet one. -/
theorem State.frameBoundary_of_quiet {s : State} (env : FrameEnv) (hp : s.glb.powered = true)
    (h : s.clk.fatal = true ∨ s.clk.safe.isSome = true) : s.frameBoundary env = s.quietBoundary env := by
  unfold State.frameBoundary
  rw [if_neg (by simp [hp]), if_pos h]

/-- The quiet boundary of the safe-state wait, with no status word waiting. -/
theorem State.quietBoundary_of_wait {s : State} (env : FrameEnv) (hfatal : s.clk.fatal = false) (hwords : s.trv.words = [])
    (hwait : (({ s with frameNo := s.frameNo + 1 } : State).tamperPins env).clk.safe.isSome = true) :
    s.quietBoundary env =
      (let v := (({ s with frameNo := s.frameNo + 1 } : State).tamperPins env).clockWindows env
       (if v.clk.safe.isSome ∧ 16 ≤ v.clk.passRun then v.safeEnd else v).resetDue) := by
  simp only [State.quietBoundary, State.queueWords_of_nil hwords, hfatal, hwait, if_true, Bool.false_eq_true, if_false]

/-- The quiet boundary of the fatal clock path, with no status word waiting and no wait begun. -/
theorem State.quietBoundary_of_fatal {s : State} (env : FrameEnv) (hfatal : s.clk.fatal = true) (hwords : s.trv.words = [])
    {t : State} (ht : t = (s.creditFrame 0 env.creditA).creditFrame 1 env.creditB)
    (hsafe : (({ t with frameNo := t.frameNo + 1 } : State).tamperPins env).clk.safe = none) :
    s.quietBoundary env = (({ t with frameNo := t.frameNo + 1 } : State).tamperPins env).resetDue := by
  subst ht
  simp only [State.quietBoundary, State.queueWords_of_nil hwords, hfatal, hsafe, if_true, Option.isSome_none, Bool.false_eq_true,
    if_false, false_and]

/-! ## The statements -/

/-- Settles O14: the register map is aligned, a badly shaped access reads zero and is recorded once, and a cold reset
clears the mark of the record. -/
theorem badAccess : Obligations.BadAccess := by
  unfold Obligations.BadAccess
  refine ⟨fun off i r h => ⟨?_, fun hw => ?_, fun width => ?_⟩, fun s off width isWrite h => ⟨?_, fun hp hst hb => ?_, fun hno => ?_⟩,
    fun s cause boot hp => ⟨_, rfl, ?_⟩⟩
  · exact Nat.mod_eq_zero_of_dvd (Nat.dvd_trans r.four_dvd_bytes (bytes_dvd_of_regAt h))
  · have hd := bytes_dvd_of_regAt h
    rw [Reg.bytes, if_pos hw] at hd
    exact Nat.mod_eq_zero_of_dvd hd
  · rw [badShape_of_regAt h, bne_iff_ne, Reg.bytes]
  · exact State.bar0Read_of_badShape h s
  · exact congrArg ok (State.badAccess_first isWrite h hp hst hb)
  · exact congrArg ok (State.badAccess_silent off width isWrite hno)
  · rw [State.wires_glb, if_pos hp, State.coldReset_badSeen]

/-- Settles O15: an offset without a register and a gated block, over BAR0 and over the fabric. -/
theorem unoccupiedAndGated : Obligations.UnoccupiedAndGated := by
  unfold Obligations.UnoccupiedAndGated
  refine ⟨fun s src off width value h => ⟨?_, ?_⟩, fun s off width value hr hp hg => ⟨?_, ?_, fun isWrite => ?_⟩,
    fun s a off hok hlen hgrp hp ha hg => ?_⟩
  · exact State.bar0Read_of_unoccupied h s width
  · exact congrArg ok (State.regWrite_of_unoccupied h s src value)
  · exact State.bar0Read_of_gated hg width
  · exact congrArg ok ((State.regWrite_of_gated .admin value hr hg).trans (State.gatedAccess_of_gated .admin true hr hp hg))
  · exact congrArg ok (State.gatedAccess_of_gated .admin isWrite hr hp hg)
  · exact congrArg ok (State.fabricAccess_of_gated hok hlen hgrp hp ha hg)

/-- Settles O1: the step takes the front command off the queue. -/
theorem stepRunsFrontCommand : Obligations.StepRunsFrontCommand := by
  unfold Obligations.StepRunsFrontCommand
  intro c rest s h
  rw [step, h]
  rfl

/-- Settles O2: the step of an empty queue. -/
theorem stepIdlesOnEmptyQueue : Obligations.StepIdlesOnEmptyQueue := by
  unfold Obligations.StepIdlesOnEmptyQueue
  intro s h
  rw [step, h]

/-- Settles O3: every meaning ends in `ok`. -/
theorem everyCommandGoesOn : Obligations.EveryCommandGoesOn := by
  unfold Obligations.EveryCommandGoesOn
  intro c s
  obtain ⟨t, ht⟩ := exec_ok c s
  exact ⟨t.wires, ht⟩

/-- Settles O17: a plain write acts field by field, and a block that takes no write keeps everything. -/
theorem plainRegisterWrites : Obligations.PlainRegisterWrites := by
  unfold Obligations.PlainRegisterWrites
  refine ⟨fun s src off word i r hr hw hown hsp hrst hlc => ?_, fun s src off word hg hw hrst hdatum hlc hevt => ?_⟩
  · have hplain := State.regWrite_plain (by rw [hr]; rfl) hw hown hsp hrst hlc
    have hfields : s.writeFields none off word = r.fields.foldl (fun t f => t.writeField none f i word) s := by
      rw [State.writeFields, hr]
    exact congrArg ok (hplain.trans hfields)
  · exact congrArg ok (State.regWrite_of_not_writable src word hg hw hrst hdatum hlc hevt)

/-- Settles O26: no power, the safe-state wait, the fatal clock path, and the ordered events. -/
theorem frameBoundaryOrder : Obligations.FrameBoundaryOrder := by
  unfold Obligations.FrameBoundaryOrder
  intro s env
  refine ⟨fun hp => ?unpowered, fun hp hfatal hsafe hwords => ?wait, fun hp hfatal hwords => ?fatal,
    fun hp hfatal hsafe => ?running⟩
  case unpowered => exact congrArg ok (State.frameBoundary_of_unpowered env hp)
  case wait =>
    intro u v
    have hquiet := State.frameBoundary_of_quiet env hp (Or.inr hsafe)
    refine ⟨fun hu hgoes hrst => congrArg ok ?_, fun hu hv hpast => congrArg ok ?_⟩
    · have hstays : ¬(v.clk.safe.isSome = true ∧ 16 ≤ v.clk.passRun) := by
        rintro ⟨h1, h2⟩
        rcases hgoes with h | h
        · simp [h] at h1
        · omega
      rw [hquiet, State.quietBoundary_of_wait env hfatal hwords hu]
      exact (congrArg State.resetDue (if_neg hstays)).trans (State.resetDue_of_none hrst)
    · rw [hquiet, State.quietBoundary_of_wait env hfatal hwords hu]
      exact congrArg State.resetDue ((if_pos ⟨hv, hpast⟩).trans (State.safeEnd_of_passed hv (Nat.le_trans (by decide) hpast)))
  case fatal =>
    intro t u _ hu hrst
    refine congrArg ok ?_
    rw [State.frameBoundary_of_quiet env hp (Or.inl hfatal), State.quietBoundary_of_fatal env hfatal hwords rfl hu]
    exact State.resetDue_of_none hrst
  case running =>
    have hloud : ¬(s.clk.fatal = true ∨ s.clk.safe.isSome = true) := by simp [hfatal, hsafe]
    refine congrArg ok ?_
    rw [State.frameBoundary, if_neg (by simp [hp]), if_neg hloud]

end Sys2Proof.Machine

namespace Sys2Proof.Machine

/-! ## Bytes of the on-chip memory (R276) -/

theorem fitTo_length (n : Nat) (bs : Bytes) : (fitTo n bs).length = n := by
  simp [fitTo, fill]

/-- Bytes written read back in order. -/
theorem ramPut_get_within (m : List Host.Cell) (a : Nat) (data : Bytes) {b : Nat} (hlo : a ≤ b) (hhi : b < a + data.length) :
    Tab.get 0 (ramPut m a data) b = data.getD (b - a) 0 := by
  induction data generalizing m a with
  | nil => simp only [List.length_nil] at hhi; omega
  | cons x xs ih =>
    rw [List.length_cons] at hhi
    rw [ramPut]
    by_cases hb : b = a
    · subst hb
      rw [ramPut_get _ _ _ _ (Or.inl (Nat.lt_succ_self b)), Tab.get_put_self, Nat.sub_self]
      rfl
    · have hsucc : b - a = (b - (a + 1)) + 1 := by omega
      rw [ih _ _ (by omega) (by omega), hsucc, List.getD_cons_succ]

/-- Memory after a write: the bytes written at their addresses, every other byte as before. -/
theorem ramPut_get_eq (m : List Host.Cell) (a : Nat) (data : Bytes) (b : Nat) :
    Tab.get 0 (ramPut m a data) b =
      if a ≤ b ∧ b < a + data.length then data.getD (b - a) 0 else Tab.get 0 m b := by
  split
  next h => exact ramPut_get_within m a data h.1 h.2
  next h => exact ramPut_get m a data b (by omega)

theorem State.ramByte_of_fab {s t : State} (h : t.fab = s.fab) (b : Nat) : t.ramByte b = s.ramByte b := by
  simp only [State.ramByte, h]

/-! ## A transaction of one piece (R23, R280) -/

/-- The state in which the pieces of an access begin: the errors that the access brings have happened. -/
def State.beforePieces (s : State) (a : FabricAcc) : State := (s.flipDescs a.descFlips).dramErrors a.badReads []

/-- With power, an access of one page by a group other than the debug master is one piece. -/
theorem State.fabricAccess_onePiece {s : State} {a : FabricAcc} (hok : a.ok = true) (hlen : a.addr % 4096 + a.len ≤ 4096)
    (hgrp : a.group ≠ 7) (hp : s.glb.powered = true) : s.fabricAccess a = (s.beforePieces a).fabricPiece a := by
  have hlt : a.group < 8 := (of_decide_eq_true hok).1
  unfold State.fabricAccess
  rw [if_neg (by simp [hp, hgrp]; omega), fabPieces_of_le _ hlen, State.runPieces_single]
  rfl

theorem State.exec_fabricAccess_onePiece {s : State} {a : FabricAcc} (hok : a.ok = true)
    (hlen : a.addr % 4096 + a.len ≤ 4096) (hgrp : a.group ≠ 7) (hp : s.glb.powered = true) :
    exec (.fabricAccess a) s = ok ((s.beforePieces a).fabricPiece a) :=
  congrArg ok (State.fabricAccess_onePiece hok hlen hgrp hp)

/-! ## A piece granted at on-chip memory (R278, R281) -/

/-- Staging, core memory and the other SRAM: no gate, no lock, and granules with colours. -/
def FabStore.isPlainSram (x : FabStore) : Prop := x = .staging ∨ x = .coreMem ∨ x = .otherSram

theorem State.fabricPiece_of_granted {s : State} {a : FabricAcc} {x : FabStore} {off : Nat} {gr : Grant}
    (hx : x.isPlainSram) (ha : fabStore a.addr = some (x, off)) (hgr : s.regionCheck a x off = (0xF, gr, s)) :
    s.fabricPiece a = s.ramPiece a x gr := by
  rcases hx with rfl | rfl | rfl <;> simp [State.fabricPiece, ha, hgr, State.storeGated, lockedFor]

/-- A grant of every colour passes each granule, but for the debug master. -/
theorem State.colourCheck_of_anycol (s : State) {a : FabricAcc} {gr : Grant} (hgrp : a.group ≠ 7) (hgr : gr.anycol = true)
    (c : Nat) : s.colourCheck a gr c = 0xF := by
  simp [State.colourCheck, State.debugBars, hgrp, hgr]

/-- No granule stops a piece whose grant passes every colour. -/
theorem State.no_granule_stops (s : State) {a : FabricAcc} {gr : Grant} (hgrp : a.group ≠ 7) (hgr : gr.anycol = true)
    (l : List Nat) : l.find? (fun n => s.colourCheck a gr (Tab.get 0 s.fab.colours n) != 0xF) = none := by
  rw [List.find?_eq_none]
  intro n _
  simp [s.colourCheck_of_anycol hgrp hgr]

/-- A write that passes stores its bytes, and may change colours of granules (R281). -/
theorem State.ramPiece_write (s : State) {a : FabricAcc} {x : FabStore} {gr : Grant} (hx : x.isPlainSram)
    (hgrp : a.group ≠ 7) (hgr : gr.anycol = true) (hop : a.op = 1) :
    ∃ colours, s.ramPiece a x gr = { s with fab := { s.fab with
      ram := ramPut s.fab.ram a.addr (fitTo a.len a.data), colours := colours, reply := {} } } := by
  have hmram : x ≠ .mram := by rcases hx with rfl | rfl | rfl <;> decide
  refine ⟨(s.ramPiece a x gr).fab.colours, ?_⟩
  simp only [State.ramPiece, s.no_granule_stops hgrp hgr, hop, hmram, if_true, if_false]

/-- A read that passes stores nothing and returns the bytes. -/
theorem State.ramPiece_read (s : State) {a : FabricAcc} (x : FabStore) {gr : Grant} (hgrp : a.group ≠ 7)
    (hgr : gr.anycol = true) (hop : a.op ≠ 1) :
    s.ramPiece a x gr = { s with fab := { s.fab with reply := { data := s.ramBytes a.addr a.len } } } := by
  simp only [State.ramPiece, s.no_granule_stops hgrp hgr, hop, if_false]

/-- A piece that passes changes the fabric's state alone, and there no line of DRAM. -/
theorem State.ramPiece_frame (s : State) {a : FabricAcc} {x : FabStore} {gr : Grant} (hx : x.isPlainSram)
    (hgrp : a.group ≠ 7) (hgr : gr.anycol = true) :
    s.ramPiece a x gr = { s with fab := (s.ramPiece a x gr).fab } ∧ (s.ramPiece a x gr).fab.lines = s.fab.lines := by
  by_cases hop : a.op = 1
  · obtain ⟨_, hw⟩ := s.ramPiece_write hx hgrp hgr hop
    rw [hw]
    exact ⟨rfl, rfl⟩
  · rw [s.ramPiece_read x hgrp hgr hop]
    exact ⟨rfl, rfl⟩

theorem State.ramPiece_wf {s : State} {a : FabricAcc} {x : FabStore} {gr : Grant} (hx : x.isPlainSram)
    (hgrp : a.group ≠ 7) (hgr : gr.anycol = true) (hwf : Memory.wf s.fab.ram = true) :
    Memory.wf (s.ramPiece a x gr).fab.ram = true := by
  by_cases hop : a.op = 1
  · obtain ⟨_, hw⟩ := s.ramPiece_write hx hgrp hgr hop
    rw [hw]
    exact ramPut_wf a.addr _ hwf
  · rw [s.ramPiece_read x hgrp hgr hop]
    exact hwf

/-! ## A piece that no region matches (R280) -/

theorem State.verifyDescs_nil (s : State) : s.verifyDescs [] = s := rfl

theorem State.regionCheck_of_unmatched {s : State} {a : FabricAcc} (x : FabStore) (off : Nat) (hgrp : a.group ≠ 0)
    (hbad : s.groupBad a.group = false) (hno : s.matching a.group a.addr = []) :
    s.regionCheck a x off = (4, {}, s) := by
  simp [State.regionCheck, hbad, hno, hgrp, State.verifyDescs_nil]

theorem State.fabricPiece_of_unmatched {s : State} {a : FabricAcc} {x : FabStore} {off : Nat}
    (ha : fabStore a.addr = some (x, off)) (hgate : s.storeGated x off = false)
    (hlock : lockedFor x off a.group a.master a.op = false) (hgrp : a.group ≠ 0) (hbad : s.groupBad a.group = false)
    (hno : s.matching a.group a.addr = []) : s.fabricPiece a = s.refusePiece a 4 0 := by
  simp [State.fabricPiece, ha, hgate, hlock, State.regionCheck_of_unmatched x off hgrp hbad hno]

/-! ## A transaction split at its page boundaries (R23) -/

/-- What the split of an access gives: pieces of one page that make up its length, the first at its address. -/
def IsSplitOf (a : FabricAcc) (ps : List FabricAcc) : Prop :=
  (∀ p ∈ ps, p.addr % 4096 + p.len ≤ 4096) ∧ (ps.map (fun p => p.len)).sum = a.len ∧ ps.head?.map (fun p => p.addr) = some a.addr

/-- `n` pages from the page of the first byte on are enough for `n` pieces. -/
theorem fabPieces_isSplitOf {n : Nat} {a : FabricAcc} (hpos : 0 < n) (hn : a.addr % 4096 + a.len ≤ 4096 * n) :
    IsSplitOf a (fabPieces n a) := by
  induction n generalizing a with
  | zero => omega
  | succ n ih =>
    by_cases hone : a.addr % 4096 + a.len ≤ 4096
    · rw [fabPieces_of_le n hone]
      exact ⟨by simpa using hone, by simp, rfl⟩
    · have hcut : ¬a.len ≤ 4096 - a.addr % 4096 := by omega
      obtain ⟨hpage, hsum, -⟩ := ih (a := { a with
        addr := a.addr + (4096 - a.addr % 4096), len := a.len - (4096 - a.addr % 4096)
        data := a.data.drop (4096 - a.addr % 4096) }) (by omega) (by dsimp only; omega)
      rw [fabPieces, if_neg hcut]
      refine ⟨fun p hp => ?_, ?_, rfl⟩
      · rcases List.mem_cons.1 hp with rfl | hp
        · dsimp only; omega
        · exact hpage p hp
      · rw [List.map_cons, List.sum_cons, hsum]
        dsimp only; omega

/-! ## The rows of the engines -/

/-- The row of PK_KEYGEN that a descriptor with or without CONTINUE selects (R57, R169). -/
def keygenRow (cont : Bool) : EngineRow :=
  if cont then ⟨.pkKeygenContinue, 0x0330, opKeygen⟩ else ⟨.pkKeygen, 0x0330, opKeygen⟩

/-- CONTINUE selects one row, and the others are the same with it and without it. -/
theorem engineRows_eq_cons (b : Bool) : engineRows b = keygenRow b :: (engineRows false).tail := by
  cases b <;> rfl

theorem mem_engineRows_or_keygen {r : EngineRow} {b : Bool} (h : r ∈ engineRows b) (b' : Bool) :
    r = keygenRow b ∨ r ∈ engineRows b' := by
  rw [engineRows_eq_cons] at h ⊢
  exact (List.mem_cons.1 h).imp_right (List.mem_cons_of_mem _)

/-- Of the rows only those of PK_KEYGEN have its opcode. -/
theorem eq_keygenRow_of_op {r : EngineRow} {b : Bool} (h : r ∈ engineRows b) (hop : r.op = 0x0330) : r = keygenRow b := by
  have hrest : ∀ q ∈ (engineRows false).tail, q.op ≠ 0x0330 := by
    have hall : (engineRows false).tail.all (fun q => q.op != 0x0330) = true := by decide
    simpa using hall
  rw [engineRows_eq_cons] at h
  exact (List.mem_cons.1 h).resolve_right (fun hr => hrest r hr hop)

/-- The row of PK_KEYGEN that the descriptor does not select does nothing (R57). -/
theorem exec_keygenRow_unselected (s : State) (id : Nat) (err : Bool) :
    exec ((keygenRow (!s.isContinue id)).cmd id err) s = ok s := by
  cases h : s.isContinue id
  · show ok (if s.isContinue id then _ else s) = _
    rw [h]; rfl
  · show ok (if s.isContinue id then s else _) = _
    rw [h]; rfl

/-- A row of either list runs its opcode's step, or is the row of PK_KEYGEN that does nothing. -/
theorem exec_engineRow {s : State} {id : Nat} {b : Bool} {r : EngineRow} (h : r ∈ engineRows b) (err : Bool) :
    exec (r.cmd id err) s = ok s ∨ exec (r.cmd id err) s = ok (s.runStep r.op r.spec id (errOf err)) := by
  rcases mem_engineRows_or_keygen h (s.isContinue id) with rfl | hr
  · by_cases hb : b = s.isContinue id
    · subst hb
      exact Or.inr (engineRows_exec h err)
    · rw [Bool.eq_not_of_ne hb]
      exact Or.inl (exec_keygenRow_unselected s id err)
  · exact Or.inr (engineRows_exec hr err)

/-! ## When a row runs its step, and how the step starts (R25, R26, R343) -/

theorem State.runStep_of_due {s : State} {id op : Nat} {c : Cmd} (hc : s.cmd? id = some c) (hdue : c.due_ op) (o : OpSpec)
    (e : StepErr) : s.runStep op o id e = (s.stepRun o c e).tilesAfter c := by
  obtain ⟨hst, hgr, hran, hop, hstep⟩ := hdue
  simp [State.runStep, hc, hst, hgr, hran, hop, hstep]

theorem State.runStep_of_not_due {s : State} {id op : Nat} (h : ∀ c, s.cmd? id = some c → ¬c.due_ op) (o : OpSpec)
    (e : StepErr) : s.runStep op o id e = s := by
  unfold State.runStep
  split
  next => rfl
  next c hc =>
    refine if_pos (Classical.byContradiction fun hgo => h c hc ?_)
    simpa [Cmd.due_] using hgo

theorem State.stepRun_of_noTokens (s : State) (o : OpSpec) {c : Cmd} (e : StepErr) (h : c.tokens = 0) :
    s.stepRun o c e = s.tokensOut c := by
  simp [State.stepRun, h]

theorem State.stepRun_of_voided {s : State} {o : OpSpec} {c : Cmd} {e : StepErr} (ht : c.tokens ≠ 0)
    (hv : s.voidedBy o c e ≠ .none) : s.stepRun o c e = s.voidStep o c (s.voidedBy o c e) := by
  simp [State.stepRun, ht, hv]

theorem State.voidedBy_none_of_runsOn {s : State} {o : OpSpec} {c : Cmd} (h : s.runsOn o c) :
    s.voidedBy o c .none = .none := by
  obtain ⟨-, hstarved, hcarry, hcmp⟩ := h
  simp [State.voidedBy, hstarved, hcarry, hcmp]

/-- What voids a step that its row, its lanes, its carry record or its two computations void. -/
theorem State.voidedBy_unit_or_memory {s : State} {o : OpSpec} {c : Cmd} {err : Bool}
    (h : err = true ∨ c.starved = true ∨ s.carryBad c = true ∨ s.disagrees o c = true) :
    s.voidedBy o c (errOf err) = .unit ∨ s.voidedBy o c (errOf err) = .memory := by
  cases err
  · by_cases hstarved : c.starved = true
    · exact Or.inr (by simp [State.voidedBy, errOf, hstarved])
    · have hlate : s.carryBad c = true ∨ s.disagrees o c = true := by simpa [hstarved] using h
      exact Or.inl (by simp [State.voidedBy, errOf, hstarved, hlate])
  · exact Or.inl (by simp [State.voidedBy, errOf])

/-- The blocks of a resource that a step's energy pays for: none in a bulk step that a check stops (R143). -/
def State.paidBlocks (s : State) (o : OpSpec) (c : Cmd) (total : Nat) : Nat :=
  if isBulk c.desc && s.stepCode o c != ccOk then 0 else share total c.s c.step

/-- What a step that runs meters. -/
def State.runEnergy (s : State) (o : OpSpec) (c : Cmd) : Nat :=
  (s.stepEnergy c (s.paidBlocks o c c.cost.cl) (s.paidBlocks o c c.cost.hl)).1

/-- The state after its energy, a free value, is drawn. -/
def State.energyDrawn (s : State) : State := { s with free := s.free + 1 }

theorem State.stepRun_of_runsOn {s : State} {o : OpSpec} {c : Cmd} (h : s.runsOn o c) :
    s.stepRun o c .none =
      if s.on R.DOSE_STS_BROWNOUT ∧ ceilDiv (s.runEnergy o c) 100 > c.tokens then
        (s.energyDrawn.meter c (100 * c.tokens)).2.tokensOut (s.energyDrawn.meter c (100 * c.tokens)).1
      else s.energyDrawn.goodStep o c (s.runEnergy o c) := by
  rw [State.stepRun, if_neg h.1, State.voidedBy_none_of_runsOn h, if_neg (by simp)]
  rfl

theorem State.stepRun_of_steady {s : State} {o : OpSpec} {c : Cmd} (h : s.runsOn o c)
    (hb : s.on R.DOSE_STS_BROWNOUT = false) :
    s.stepRun o c .none = s.energyDrawn.goodStep o c (s.runEnergy o c) := by
  rw [State.stepRun_of_runsOn h, if_neg (by simp [hb])]

theorem State.stepRun_of_brownout {s : State} {o : OpSpec} {c : Cmd} (h : s.runsOn o c)
    (hb : s.on R.DOSE_STS_BROWNOUT = true) (hmore : 100 * c.tokens < s.runEnergy o c) :
    s.stepRun o c .none =
      (s.energyDrawn.meter c (100 * c.tokens)).2.tokensOut (s.energyDrawn.meter c (100 * c.tokens)).1 := by
  have hover : ceilDiv (s.runEnergy o c) 100 > c.tokens := by simp only [ceilDiv]; omega
  rw [State.stepRun_of_runsOn h, if_pos ⟨hb, hover⟩]

/-! ## One entry of the table of commands -/

/-- From `s` to `t` the entry of command `id` becomes `x`, and every other entry stays. -/
structure State.PutsEntry (s : State) (id : Nat) (x : Cmd) (t : State) : Prop where
  self : t.cmd? id = some x
  others : ∀ n, n ≠ id → t.cmd? n = s.cmd? n

theorem State.PutsEntry.ofPutCmd {s : State} {id : Nat} {c x : Cmd} (h : s.cmd? id = some c) (hx : x.id = id) :
    s.PutsEntry id x (s.putCmd x) :=
  ⟨State.cmd?_putCmd_self h hx, fun _ hn => State.cmd?_putCmd_other (fun e => hn (e.symm.trans hx))⟩

theorem State.PutsEntry.before {r s t : State} {id : Nat} {x : Cmd} (g : s.PutsEntry id x t)
    (h : s.trv.cmds = r.trv.cmds) : r.PutsEntry id x t :=
  ⟨g.self, fun n hn => (g.others n hn).trans (State.cmd?_of_cmds h n)⟩

theorem State.PutsEntry.after {s t u : State} {id : Nat} {x : Cmd} (g : s.PutsEntry id x t)
    (h : u.trv.cmds = t.trv.cmds) : s.PutsEntry id x u :=
  ⟨(State.cmd?_of_cmds h id).trans g.self, fun n hn => (State.cmd?_of_cmds h n).trans (g.others n hn)⟩

/-- Puts an entry into a state that holds the commands of `s`. -/
theorem State.PutsEntry.ofPutCmd_before {s t : State} {id : Nat} {c x : Cmd} (hs : s.cmd? id = some c)
    (h : t.trv.cmds = s.trv.cmds) (hx : x.id = id) : s.PutsEntry id x (t.putCmd x) :=
  (State.PutsEntry.ofPutCmd ((State.cmd?_of_cmds h id).trans hs) hx).before h

/-! ## What the slots of a routine leave alone -/

theorem State.SlotsOnly.trv {ks : Nat → Prop} {s t : State} (h : s.SlotsOnly ks t) : t.trv = s.trv := by rw [h.rest]
theorem State.SlotsOnly.dose {ks : Nat → Prop} {s t : State} (h : s.SlotsOnly ks t) : t.dose = s.dose := by rw [h.rest]
theorem State.SlotsOnly.regs {ks : Nat → Prop} {s t : State} (h : s.SlotsOnly ks t) : t.regs = s.regs := by rw [h.rest]
theorem State.SlotsOnly.frameNo {ks : Nat → Prop} {s t : State} (h : s.SlotsOnly ks t) : t.frameNo = s.frameNo := by
  rw [h.rest]
theorem State.SlotsOnly.ks {ks : Nat → Prop} {s t : State} (h : s.SlotsOnly ks t) : t.ks = s.ks := by rw [h.rest]
theorem State.SlotsOnly.fb {ks : Nat → Prop} {s t : State} (h : s.SlotsOnly ks t) : t.fb = s.fb := by rw [h.rest]
theorem State.SlotsOnly.hif {ks : Nat → Prop} {s t : State} (h : s.SlotsOnly ks t) : t.hif = s.hif := by rw [h.rest]
theorem State.SlotsOnly.fab {ks : Nat → Prop} {s t : State} (h : s.SlotsOnly ks t) :
    t.fab = { s.fab with ram := t.fab.ram } := by rw [h.rest]

/-- The state that a row's step leaves as `s`, once its slots and the outputs have followed. -/
def State.rowEnd (s : State) (c : Cmd) : State := (s.tilesAfter c).wires

theorem errOf_false : errOf false = .none := rfl

theorem exec_of_due {s : State} {id : Nat} {c : Cmd} {r : EngineRow} (hr : r ∈ engineRows (s.isContinue id))
    (hc : s.cmd? id = some c) (hdue : c.due_ r.op) (err : Bool) :
    exec (r.cmd id err) s = .next ((s.stepRun r.spec c (errOf err)).rowEnd c) := by
  rw [engineRows_exec hr, State.runStep_of_due hc hdue]
  rfl

theorem State.rowEnd_trv (s : State) (c : Cmd) : (s.rowEnd c).trv = s.trv :=
  (State.wires_trv _).trans (State.SlotsOnly.ofAfter s c).trv
theorem State.rowEnd_dose (s : State) (c : Cmd) : (s.rowEnd c).dose = s.dose :=
  (State.wires_dose _).trans (State.SlotsOnly.ofAfter s c).dose
theorem State.rowEnd_ks (s : State) (c : Cmd) : (s.rowEnd c).ks = s.ks :=
  (State.wires_ks _).trans (State.SlotsOnly.ofAfter s c).ks
theorem State.rowEnd_fb (s : State) (c : Cmd) : (s.rowEnd c).fb = s.fb :=
  (State.wires_fb _).trans (State.SlotsOnly.ofAfter s c).fb
theorem State.rowEnd_hif (s : State) (c : Cmd) : (s.rowEnd c).hif = s.hif :=
  (State.wires_hif _).trans (State.SlotsOnly.ofAfter s c).hif
theorem State.rowEnd_get (s : State) (c : Cmd) (f : Field) (i : Nat) (hf : f.key i ∉ wiredKeys) :
    (s.rowEnd c).get f i = s.get f i :=
  (State.get_wires _ f i hf).trans (State.get_of_regs (State.SlotsOnly.ofAfter s c).regs f i)

theorem State.PutsEntry.rowEnd {s t : State} {id : Nat} {x : Cmd} (g : s.PutsEntry id x t) (c : Cmd) :
    s.PutsEntry id x (t.rowEnd c) :=
  g.after (congrArg Trv.cmds (t.rowEnd_trv c))

/-! ## A command that is left unable to finish (R26, R30, R71, R343) -/

/-- A release gives amounts to the unused pools and changes nothing outside Traverse (R30). -/
theorem State.releaseFrom_rest (s : State) (c : Cmd) (n : Nat) :
    s.releaseFrom c n = { s with trv := (s.releaseFrom c n).trv } := by
  unfold State.releaseFrom
  refine List.foldlRecOn (motive := fun (t : State) => t = { s with trv := t.trv }) _ _ rfl (fun t ht e _ => ?_)
  have hpool (f r a : Nat) : t.toPool f r a = { t with trv := (t.toPool f r a).trv } := by
    unfold State.toPool; split <;> rfl
  split
  · rw [hpool, ht]
  · exact ht

theorem State.releaseFrom_cmds (s : State) (c : Cmd) (n : Nat) : (s.releaseFrom c n).trv.cmds = s.trv.cmds :=
  (State.Account.ofRelease s c n).cmds

/-- The entry of a command whose outcome is decided as `code`, its status word queued in frame `due`. -/
def Cmd.decided (c : Cmd) (code due : Nat) : Cmd :=
  { c with code := code, outs := [], stop := true, granted := false, ran := true, due := due, step := max 1 c.step, want := [] }

theorem State.unfinished_eq (s : State) (c : Cmd) (code due : Nat) :
    s.unfinished c code due = ((s.slotsClear c.id).putCmd (c.decided code due)).releaseFrom { c with cost := c.costLeft } due :=
  rfl

theorem State.unfinished_dose (s : State) (c : Cmd) (code due : Nat) : (s.unfinished c code due).dose = s.dose := by
  rw [State.unfinished_eq, State.releaseFrom_rest, State.putCmd_dose, (State.SlotsOnly.ofClear s c.id).dose]

theorem State.unfinished_regs (s : State) (c : Cmd) (code due : Nat) : (s.unfinished c code due).regs = s.regs := by
  rw [State.unfinished_eq, State.releaseFrom_rest, State.putCmd_regs, (State.SlotsOnly.ofClear s c.id).regs]

/-- The state holds command `id`, and `c` is an entry for it. -/
def State.holdsCmd (s : State) (id : Nat) (c : Cmd) : Prop := (∃ c₀, s.cmd? id = some c₀) ∧ c.id = id

theorem State.PutsEntry.ofUnfinished {s : State} {id : Nat} {c : Cmd} (h : s.holdsCmd id c) (code due : Nat) :
    s.PutsEntry id (c.decided code due) (s.unfinished c code due) := by
  obtain ⟨⟨c₀, hc⟩, hid⟩ := h
  have hput : s.PutsEntry id (c.decided code due) ((s.slotsClear c.id).putCmd (c.decided code due)) :=
    .ofPutCmd_before hc (congrArg Trv.cmds (State.SlotsOnly.ofClear s c.id).trv) hid
  exact hput.after (State.releaseFrom_cmds ..)

theorem State.PutsEntry.ofIntegrity {s : State} {id : Nat} {c : Cmd} (h : s.holdsCmd id c) (code due : Nat) :
    s.PutsEntry id (c.decided code due) (s.integrity c code due) :=
  (State.PutsEntry.ofUnfinished h code due).after (congrArg Trv.cmds (State.event_trv ..))

theorem State.integrity_dose (s : State) (c : Cmd) (code due : Nat) : (s.integrity c code due).dose = s.dose :=
  (State.event_dose ..).trans (s.unfinished_dose c code due)

/-- An outcome of a repeat shows in RECOMP_FAIL (R31, R86). -/
theorem State.integrity_recompFail (s : State) (c : Cmd) (code due : Nat) :
    (s.integrity c code due).get R.TRV_ERR_STS_RECOMP_FAIL = 1 := by
  rw [State.integrity, State.trvErr, State.get_event_self _ _ _ _ _ (by decide)]
  show ((s.unfinished c code due).get R.TRV_ERR_STS_RECOMP_FAIL ||| 1) % 2 ^ 1 = 1
  rw [Nat.pow_one, Nat.or_mod_two_eq_one]
  exact Or.inr rfl

theorem State.PutsEntry.ofTokensOut {s : State} {id : Nat} {c : Cmd} (h : s.holdsCmd id c) :
    s.PutsEntry id (c.decided ccIntegrityFault (s.frameNo + 1)) (s.tokensOut c) := by
  unfold State.tokensOut
  split
  · exact .ofIntegrity h _ _
  · exact .ofUnfinished h _ _

theorem State.tokensOut_dose (s : State) (c : Cmd) : (s.tokensOut c).dose = s.dose := by
  unfold State.tokensOut
  split
  · exact s.integrity_dose ..
  · exact s.unfinished_dose ..

theorem State.tokensOut_recompFail (s : State) (c : Cmd) :
    (s.tokensOut c).get R.TRV_ERR_STS_RECOMP_FAIL = if c.repeating then 1 else s.get R.TRV_ERR_STS_RECOMP_FAIL := by
  unfold State.tokensOut
  split
  · exact s.integrity_recompFail ..
  · exact State.get_of_regs (s.unfinished_regs ..) _ _

/-! ## A voided step (R31, R70, R71) -/

/-- What the unit's registers record of a void step that its unit or a memory detected. -/
theorem State.WorkStep.ofVoidErr (s : State) (o : OpSpec) (c : Cmd) {e : StepErr} (he : e = .unit ∨ e = .memory) :
    s.WorkStep (s.voidErr o c e) := by
  have hbump (f g h k : Field) (a b : Nat) (q : Option Field) (u : Option Nat) (op : Nat) :
      s.WorkStep ((s.bump f).unitErr g a b h q k u op) := (State.WorkStep.ofBump s f 1 0).trans (.ofUnitErr ..)
  rcases he with rfl | rfl <;> cases hu : unitOf c.desc <;> simp only [State.voidErr, hu]
  case inl.cl | inl.tu | inl.ks =>
    split
    · exact .ofUnitErr ..
    · exact .refl s
  case inl.hl | inr.pk | inr.lu => exact .ofUnitErr ..
  case inl.pk | inl.lu =>
    split
    · exact hbump ..
    · exact .ofUnitErr ..
  all_goals exact .refl s

/-- What a void step leaves of its command, before its repeat or its end is decided. -/
structure Cmd.Voided (c x : Cmd) : Prop where
  id : x.id = c.id
  desc : x.desc = c.desc
  s : x.s = c.s
  step : x.step = c.step
  due : x.due = c.due
  repeats : x.repeats = c.repeats
  ran : x.ran = true
  granted : x.granted = false

/-- A void step accounts for what it spent; then the first one starts the repeat, and a second one ends the command. -/
theorem State.voidStep_spec (s : State) (o : OpSpec) (c : Cmd) {e : StepErr} (he : e = .unit ∨ e = .memory) :
    ∃ (u : State) (x : Cmd), c.Voided x ∧ u.trv.cmds = s.trv.cmds ∧ u.frameNo = s.frameNo ∧
      s.voidStep o c e =
        if 1 ≤ x.repeats then u.integrity x ccIntegrityFault (u.frameNo + 1)
        else (if isBulk c.desc then u else u.releaseRest x).putCmd (x.again u.frameNo) := by
  have hreg := State.WorkStep.ofVoidErr s o c he
  generalize hs1 : s.voidErr o c e = s1 at hreg
  have henergy : s1.Account (s1.voidEnergy c).2 := .ofFresh s1
  generalize hs2 : s1.voidEnergy c = p2 at henergy
  have hclose := State.Account.ofClose p2.2 c p2.1
  obtain ⟨a, hc1⟩ := p2.2.closeStep_same c p2.1
  generalize hs3 : p2.2.closeStep c p2.1 = p3 at hclose hc1
  have hdraw := State.Account.ofDrawReserve p3.2 (s1.stepDraws o c)
  have hslots := State.SlotsOnly.ofClear (p3.2.drawReserve (s1.stepDraws o c)).2 c.id
  have hwork := hreg.trans ((henergy.trans (hclose.trans hdraw)).work)
  refine ⟨((p3.2.drawReserve (s1.stepDraws o c)).2).slotsClear c.id, { p3.1 with
    rndLeft := if p3.1.drawsAfresh then p3.1.rndLeft else p3.1.rndLeft - s1.stepDraws o c, ran := true, granted := false
    drew := if p3.1.repeating then p3.1.drew else p3.1.drew ++ [s1.stepDraws o c] }, ?_, ?_, ?_, ?_⟩
  · constructor <;> simp only [hc1]
  · rw [hslots.trv, hwork.cmds]
  · rw [hslots.frameNo, hwork.rest]
  · simp only [State.voidStep, hs1, hs2, hs3]
    rcases he with rfl | rfl <;> rfl

theorem State.Account.ofReleaseRest (s : State) (c : Cmd) : s.Account (s.releaseRest c) := by
  unfold State.releaseRest
  split <;> exact .ofRelease ..

/-- A second void ends the command, and RECOMP_FAIL shows it. -/
theorem State.voidStep_of_repeated {s : State} {id : Nat} {c : Cmd} (hc : s.cmd? id = some c) (o : OpSpec) {e : StepErr}
    (he : e = .unit ∨ e = .memory) (hrep : 1 ≤ c.repeats) :
    ∃ x : Cmd, s.PutsEntry id (x.decided ccIntegrityFault (s.frameNo + 1)) (s.voidStep o c e) ∧
      (s.voidStep o c e).get R.TRV_ERR_STS_RECOMP_FAIL = 1 := by
  obtain ⟨u, x, hx, hcmds, hframe, hstep⟩ := s.voidStep_spec o c he
  have hholds : u.holdsCmd id x := ⟨⟨c, (State.cmd?_of_cmds hcmds id).trans hc⟩, hx.id.trans (State.cmd?_id hc)⟩
  rw [hstep, if_pos (hx.repeats.symm ▸ hrep), hframe]
  exact ⟨x, (State.PutsEntry.ofIntegrity hholds _ _).before hcmds, u.integrity_recompFail ..⟩

/-- The first void starts the repeat. -/
theorem State.voidStep_of_first {s : State} {id : Nat} {c : Cmd} (hc : s.cmd? id = some c) (o : OpSpec) {e : StepErr}
    (he : e = .unit ∨ e = .memory) (hrep : c.repeats = 0) :
    ∃ x : Cmd, c.Voided x ∧ s.PutsEntry id (x.again s.frameNo) (s.voidStep o c e) := by
  obtain ⟨u, x, hx, hcmds, hframe, hstep⟩ := s.voidStep_spec o c he
  refine ⟨x, hx, ?_⟩
  rw [hstep, if_neg (by rw [hx.repeats, hrep]; decide), hframe]
  refine .ofPutCmd_before hc ?_ (hx.id.trans (State.cmd?_id hc))
  split
  · exact hcmds
  · exact (State.Account.ofReleaseRest u x).cmds.trans hcmds

/-! ## The energy of a step (R144, R176) -/

/-- A step meters at most what R144 and R176 leave it. -/
theorem State.stepEnergy_le (s : State) (c : Cmd) (cl hl : Nat) :
    (s.stepEnergy c cl hl).1 ≤ if isBulk c.desc then bulkCap c cl hl else energyCap c - c.used := by
  simp only [State.stepEnergy]
  exact Nat.le_trans (Nat.le_of_lt_succ (Nat.mod_lt _ (Nat.succ_pos _))) (Nat.min_le_left ..)

theorem State.used_stepEnergy_le {s : State} {c : Cmd} (hb : isBulk c.desc = false) (hused : c.used ≤ energyCap c)
    (cl hl : Nat) : c.used + (s.stepEnergy c cl hl).1 ≤ energyCap c := by
  have h := s.stepEnergy_le c cl hl
  rw [if_neg (by simp [hb])] at h
  omega

theorem State.stepEnergy_le_bulkCap {s : State} {c : Cmd} (hb : isBulk c.desc = true) (cl hl : Nat) :
    (s.stepEnergy c cl hl).1 ≤ bulkCap c cl hl := by
  have h := s.stepEnergy_le c cl hl
  rwa [if_pos hb] at h

/-! ## A step that runs to its end (R92, R93, R143, R155) -/

/-- The step forms the opcode's result: no check of it failed, none had failed before, and it is a step that works. -/
def State.worksNow (s : State) (o : OpSpec) (c : Cmd) : Prop :=
  s.stepCode o c = ccOk ∧ c.code = ccOk ∧ o.worksIn c = true

/-- The result of the opcode's work in a step, after what the step draws ahead. -/
def State.workResult (s : State) (o : OpSpec) (c : Cmd) : Cmd × State :=
  o.work (s.drawAhead (o.pre c) c).2 (s.drawAhead (o.pre c) c).1

/-- A check of a first step is made only while no check has failed. -/
theorem State.stepCode_of_failed {s : State} {c : Cmd} (o : OpSpec) (h : c.code ≠ ccOk) : s.stepCode o c = ccOk := by
  simp [State.stepCode, h]

/-- The entry that a step which runs to its end leaves: the failing check's code, the work's code and output, or those it
had. -/
structure State.EndsWith (s : State) (o : OpSpec) (c y : Cmd) : Prop where
  id : y.id = c.id
  ran : y.ran = true
  granted : y.granted = false
  step : y.step = c.step + 1
  failed : s.stepCode o c ≠ ccOk → y.code = s.stepCode o c ∧ y.outs = []
  worked : s.worksNow o c → y.code = (s.workResult o c).1.code ∧ y.outs = (s.workResult o c).1.outs
  kept : s.stepCode o c = ccOk → (c.code ≠ ccOk ∨ ¬o.worksIn c = true) → y.code = c.code ∧ y.outs = c.outs

theorem State.WorkStep.tiles {s t : State} (h : s.WorkStep t) : t.tiles = s.tiles := by rw [h.rest]
theorem State.WorkStep.fab {s t : State} (h : s.WorkStep t) : t.fab = s.fab := by rw [h.rest]

/-- The state after the work of a step, where it works. -/
def State.afterWork (s : State) (o : OpSpec) (c : Cmd) : State :=
  if s.stepCode o c = ccOk ∧ c.code = ccOk ∧ o.worksIn c = true then (s.workResult o c).2 else s

theorem State.afterWork_of_works {s : State} {o : OpSpec} {c : Cmd} (h : s.worksNow o c) :
    s.afterWork o c = (s.workResult o c).2 := if_pos h

theorem State.afterWork_of_idle {s : State} {o : OpSpec} {c : Cmd} (h : ¬s.worksNow o c) : s.afterWork o c = s := if_neg h

theorem State.WorkStep.ofAfterWork (s : State) {o : OpSpec} (hk : o.Keeps) (c : Cmd) : s.WorkStep (s.afterWork o c) := by
  unfold State.afterWork
  split
  · exact ((s.drawAhead_spec (o.pre c) c).1.work).trans (hk _ _).2
  · exact .refl s

/-- What a step that runs to its end leaves of the state: its entry, the work's effect, and accounts. -/
structure State.RunsTo (s : State) (o : OpSpec) (c y : Cmd) (t : State) : Prop where
  entry : s.PutsEntry c.id y t
  row : s.RowOnly t
  tiles : t.tiles = s.tiles
  fab : t.fab = s.fab
  ks : t.ks = (s.afterWork o c).ks
  fb : t.fb = (s.afterWork o c).fb
  hif : t.hif = (s.afterWork o c).hif

theorem State.goodStep_runsTo {s : State} {o : OpSpec} {c : Cmd} (hk : o.Keeps) (hc : s.cmd? c.id = some c) (nj : Nat) :
    ∃ y, s.EndsWith o c y ∧ s.RunsTo o c y (s.goodStep o c nj) := by
  obtain ⟨u, y, hu, hid, hran, hgr, hstep, hfail, hok, hend⟩ := s.goodStep_spec o c nj hk
  have hu : (s.afterWork o c).Account u := hu
  have hwork : s.WorkStep u := (State.WorkStep.ofAfterWork s hk c).trans hu.work
  have hput : (u.putCmd y).Account (s.goodStep o c nj) := by
    rcases hend with h | ⟨n, h⟩ <;> rw [h]
    · exact .refl _
    · exact .ofRelease ..
  refine ⟨y, ⟨hid, hran, hgr, hstep, hfail, fun hw => ?_, fun hcode hno => ?_⟩, ?_, ?_, ?_, ?_, ?_, ?_, ?_⟩
  · have h := hok hw.1
    rwa [if_pos hw.2] at h
  · have h := hok hcode
    rwa [if_neg (fun hw => hno.elim (fun hc => hc hw.1) (fun hn => hn hw.2))] at h
  · exact (State.PutsEntry.ofPutCmd_before hc hwork.cmds hid).after hput.cmds
  · exact (hwork.row.trans (.ofPut u y)).trans hput.work.row
  · exact hput.work.tiles.trans hwork.tiles
  · exact hput.work.fab.trans hwork.fab
  · exact hput.ks.trans hu.ks
  · exact hput.fb.trans hu.fb
  · exact hput.hif.trans hu.hif

/-! ## What a row leaves unchanged -/

theorem State.SlotsOnly.wires_ramByte {ks : Nat → Prop} {s t : State} (h : s.SlotsOnly ks t) {a : Nat}
    (ha : ∀ k, ks k → a < slotBase k ∨ slotBase k + slotSize k ≤ a) : t.wires.ramByte a = s.ramByte a :=
  (State.ramByte_of_fab (State.wires_fab t) a).trans (h.bytes a ha)

theorem State.holdsSlot_of_tiles {s t : State} (h : t.tiles = s.tiles) (id : Nat) : t.holdsSlot id = s.holdsSlot id := by
  funext k
  simp only [State.holdsSlot, State.heldSlots, h]

/-- After a step that left the memory and the tiles alone, a row changes no byte outside the command's slots. -/
theorem State.rowEnd_ramByte {s t : State} {c : Cmd} (htiles : t.tiles = s.tiles) (hfab : t.fab = s.fab) {a : Nat}
    (ha : ∀ k ∈ s.heldSlots c.id, a < slotBase k ∨ slotBase k + slotSize k ≤ a) :
    (t.rowEnd c).ramByte a = s.ramByte a := by
  have hslots := State.SlotsOnly.ofAfter t c
  rw [State.holdsSlot_of_tiles htiles] at hslots
  exact (hslots.wires_ramByte ha).trans (State.ramByte_of_fab hfab a)

/-- A row changes only what an engine's row can change, and of the fabric's state only the memory. -/
theorem State.rowEnd_rest {s t : State} (c : Cmd) (hrow : s.RowOnly t) (hfab : t.fab = s.fab) :
    t.rowEnd c = { s with
      free := (t.rowEnd c).free, regs := (t.rowEnd c).regs, hif := (t.rowEnd c).hif, fb := (t.rowEnd c).fb, ks := (t.rowEnd c).ks
      rng := (t.rowEnd c).rng, dose := (t.rowEnd c).dose, trv := (t.rowEnd c).trv, tiles := (t.rowEnd c).tiles
      fab := { s.fab with ram := (t.rowEnd c).fab.ram }
      tmp := { s.tmp with outLatch := (t.rowEnd c).tmp.outLatch } } := by
  have hslots := State.SlotsOnly.ofAfter t c
  have hram : (t.rowEnd c).fab = { s.fab with ram := (t.rowEnd c).fab.ram } := by
    have h := hslots.fab
    rw [hfab] at h
    rw [State.rowEnd, State.wires_fab]
    exact h
  rw [← hram]
  exact (hrow.trans hslots.row).wires

theorem State.RowOnly.ofEnergyDrawn (s : State) : s.RowOnly s.energyDrawn := rfl

/-! ## The statements of the fabric and the engines -/

/-- Settles O22: a granted piece at plain on-chip memory, an unmatched piece, and the split of a transaction. -/
theorem fabricPieces : Obligations.FabricPieces := by
  unfold Obligations.FabricPieces
  refine ⟨fun s a x off gr hok hlen hop2 hgrp hp ha hx hgr hany => ?granted,
    fun s a x off hok hlen hgrp hgrp0 hp ha hgate hlock hbad hno => ?unmatched, fun a => ?split⟩
  case granted =>
    have hrun : exec (.fabricAccess a) s = ok ((s.beforePieces a).ramPiece a x gr) := by
      rw [State.exec_fabricAccess_onePiece hok hlen hgrp hp, State.fabricPiece_of_granted (s := s.beforePieces a) hx ha hgr]
    obtain ⟨hrest, hlines⟩ := (s.beforePieces a).ramPiece_frame hx hgrp hany
    refine ⟨_, hrun, fun hop b => ?_, fun hop => ?_, fun hop b => ?_, fun hwf => ?_, ?_, ?_, ?_, ?_, ?_⟩
    · obtain ⟨_, hw⟩ := (s.beforePieces a).ramPiece_write hx hgrp hany hop
      rw [State.ramByte, State.wires_fab, hw, ramPut_get_eq, fitTo_length]
      rfl
    · rw [State.wires_fab, State.ramPiece_read _ x hgrp hany (by omega)]
      exact ⟨rfl, rfl⟩
    · rw [State.ramByte, State.wires_fab, State.ramPiece_read _ x hgrp hany (by omega)]
      rfl
    · rw [State.wires_fab]
      exact State.ramPiece_wf hx hgrp hany hwf
    · rw [State.wires_fab]
      exact hlines
    · rw [State.wires_trv, hrest]; rfl
    · rw [State.wires_hif, hrest]; rfl
    · rw [State.wires_ks, hrest]; rfl
    · rw [State.wires_fb, hrest]; rfl
  case unmatched =>
    have hrefused := State.fabricPiece_of_unmatched (s := s.beforePieces a) ha hgate hlock hgrp0 hbad hno
    rw [State.exec_fabricAccess_onePiece hok hlen hgrp hp, hrefused]
    rfl
  case split => exact fabPieces_isSplitOf (by omega) (by omega)

/-- Settles O24: a step without tokens, one that brown-out stops, a voided one, and the rows that do nothing. -/
theorem engineStepsLost : Obligations.EngineStepsLost := by
  unfold Obligations.EngineStepsLost
  refine ⟨fun s id c err r hr hc hdue ht => ?noTokens, fun s id c r hr hc hdue hruns hb hmore => ?brownout,
    fun s id c err r hr hc hdue ht hvoid => ?voided, fun s id err => ⟨fun b r hr hno => ?notDue, fun r hr hop => ?unselected⟩⟩
  case noTokens =>
    have hput := (State.PutsEntry.ofTokensOut ⟨⟨c, hc⟩, State.cmd?_id hc⟩).rowEnd c
    have hexec := exec_of_due hr hc hdue err
    rw [State.stepRun_of_noTokens s r.spec (errOf err) ht] at hexec
    refine ⟨_, _, hexec, hput.self, rfl, rfl, rfl, rfl, rfl, rfl, ?_, ?_, hput.others⟩
    · rw [State.rowEnd_dose, State.tokensOut_dose]
    · rw [State.rowEnd_get _ _ _ _ (by decide), State.tokensOut_recompFail]
  case brownout =>
    have hholds : (s.energyDrawn.meter c (100 * c.tokens)).2.holdsCmd id (s.energyDrawn.meter c (100 * c.tokens)).1 :=
      ⟨⟨c, hc⟩, (State.cmd?_id hc : c.id = id)⟩
    have hput := (State.PutsEntry.ofTokensOut hholds).rowEnd c
    have hexec := exec_of_due hr hc hdue false
    rw [errOf_false, State.stepRun_of_brownout hruns hb hmore] at hexec
    refine ⟨_, _, hexec, hput.self, rfl, rfl, rfl, rfl, rfl, rfl, ?_, hput.others⟩
    rw [State.rowEnd_dose, State.tokensOut_dose]
    rfl
  case voided =>
    have he := State.voidedBy_unit_or_memory hvoid
    have hne : s.voidedBy r.spec c (errOf err) ≠ .none := by rcases he with h | h <;> rw [h] <;> decide
    have hexec := exec_of_due hr hc hdue err
    rw [State.stepRun_of_voided ht hne] at hexec
    by_cases hrep : c.repeats = 0
    · obtain ⟨x, hx, hfirst⟩ := State.voidStep_of_first hc r.spec he hrep
      have hput := hfirst.rowEnd c
      refine ⟨_, _, hexec, hput.self, hx.ran, hx.granted, fun _ => ⟨rfl, rfl, rfl, ?_, ?_⟩, fun h => by omega, hput.others⟩
      · simp only [Cmd.again, hx.desc, hx.step]
      · simp only [Cmd.again, hx.desc, hx.due, hx.s]
    · have hrep1 : 1 ≤ c.repeats := Nat.one_le_iff_ne_zero.2 hrep
      obtain ⟨x, hsecond, hshown⟩ := State.voidStep_of_repeated hc r.spec he hrep1
      have hput := hsecond.rowEnd c
      refine ⟨_, _, hexec, hput.self, rfl, rfl, fun h => absurd h hrep, fun _ => ⟨rfl, rfl, rfl, ?_⟩, hput.others⟩
      rw [State.rowEnd_get _ _ _ _ (by decide)]
      exact hshown
  case notDue =>
    rcases exec_engineRow (s := s) (id := id) hr err with h | h
    · exact h
    · rw [h, State.runStep_of_not_due hno]
      rfl
  case unselected =>
    rw [eq_keygenRow_of_op hr hop]
    exact exec_keygenRow_unselected s id err

/-- Settles O23: what a step meters, and the row of a granted step that nothing voids or stops. -/
theorem engineStepRuns : Obligations.EngineStepRuns := by
  unfold Obligations.EngineStepRuns
  refine ⟨fun s c cl hl => ⟨fun hb hused => State.used_stepEnergy_le hb hused cl hl,
    fun hb => State.stepEnergy_le_bulkCap hb cl hl⟩, fun s id c r hr hc hdue hruns hsteady => ?_⟩
  have hid := State.cmd?_id hc
  subst hid
  have hexec := exec_of_due hr hc hdue false
  rw [errOf_false, State.stepRun_of_steady hruns hsteady] at hexec
  obtain ⟨y, hy, ht⟩ := State.goodStep_runsTo (s := s.energyDrawn) (engineRows_keeps hr) hc (s.runEnergy r.spec c)
  generalize s.energyDrawn.goodStep r.spec c (s.runEnergy r.spec c) = g at hexec ht
  have hput := ht.entry.rowEnd c
  refine ⟨_, y, hexec, hput.self, hy.ran, hy.granted, hy.step, hy.failed, fun hfailed => ?before, fun hcode hok hw => ?works,
    fun hidle => ?idle, fun hcode hok hw => ?waits, hput.others, fun a ha => ?bytes, ?rest⟩
  case before => exact hy.kept (State.stepCode_of_failed r.spec hfailed) (Or.inl hfailed)
  case works =>
    have hnow : s.energyDrawn.worksNow r.spec c := ⟨hcode, hok, hw⟩
    obtain ⟨hc', ho'⟩ := hy.worked hnow
    refine ⟨hc', ho', ?_, ?_, ?_⟩
    · rw [State.rowEnd_ks, ht.ks, State.afterWork_of_works hnow]; rfl
    · rw [State.rowEnd_fb, ht.fb, State.afterWork_of_works hnow]; rfl
    · rw [State.rowEnd_hif, ht.hif, State.afterWork_of_works hnow]; rfl
  case idle =>
    have hnot : ¬s.energyDrawn.worksNow r.spec c := fun ⟨h1, h2, h3⟩ => by
      rcases hidle with h | h | h
      · exact h h1
      · exact h h2
      · exact h h3
    refine ⟨?_, ?_, ?_⟩
    · rw [State.rowEnd_ks, ht.ks, State.afterWork_of_idle hnot]; rfl
    · rw [State.rowEnd_fb, ht.fb, State.afterWork_of_idle hnot]; rfl
    · rw [State.rowEnd_hif, ht.hif, State.afterWork_of_idle hnot]; rfl
  case waits =>
    obtain ⟨hc', ho'⟩ := hy.kept hcode (Or.inr hw)
    exact ⟨hc'.trans hok, ho'⟩
  case bytes => exact State.rowEnd_ramByte (s := s) ht.tiles ht.fab ha
  case rest => exact State.rowEnd_rest c ((State.RowOnly.ofEnergyDrawn s).trans ht.row) ht.fab

end Sys2Proof.Machine

namespace Sys2Proof.Machine

/-! ## Doorbells (R40, R44, R59) -/

/-- A ring that takes doorbells: enabled, without a fault, and no reset of its slice waits (R44). -/
def State.ringOpen (s : State) (n r : Nat) : Prop :=
  ((s.slice n).ring r).en = true ∧ ((s.slice n).ring r).fault = false ∧
    ¬((s.slice n).st = .resetting ∧ (s.slice n).op.isSome)

/-- A doorbell word for a ring that takes doorbells, of an enabled slice and its generation. -/
def State.doorbellFits (s : State) (n r word : Nat) : Prop :=
  (s.slice n).st ≠ .disabled ∧ bits word 39 32 = (s.slice n).gen ∧ s.ringOpen n r

theorem State.not_ringOpen_iff {s : State} {n r : Nat} :
    ¬s.ringOpen n r ↔ ((s.slice n).ring r).en = false ∨ ((s.slice n).ring r).fault = true ∨
      ((s.slice n).st = .resetting ∧ (s.slice n).op.isSome) := by
  rw [State.ringOpen, Decidable.not_and_iff_not_or_not, Decidable.not_and_iff_not_or_not, Bool.not_eq_true, Bool.not_eq_false,
    Decidable.not_not]

theorem State.bar2Write_ring {s : State} {n r : Nat} (word : Nat) (hn : n < 1024) (hr : r < 16)
    (hdrop : s.hif.dropDoorbells = false) : s.bar2Write (n * 0x1000 + 8 * r) 8 word = s.doorbell n r word := by
  have hpage : (n * 0x1000 + 8 * r) / 0x1000 = n := by omega
  have hoff : (n * 0x1000 + 8 * r) % 0x1000 = 8 * r := by omega
  have hin : ¬(s.hif.dropDoorbells = true ∨ n * 0x1000 + 8 * r ≥ 0x400000) := by rw [hdrop]; simp; omega
  have hshape : ¬((8 : Nat) ≠ 8 ∨ 8 * r % 8 ≠ 0 ∨ 8 * r ≥ 128) := by omega
  simp only [State.bar2Write, hpage, hoff, if_neg hin, if_neg hshape, Nat.mul_div_cancel_left r (by decide : 0 < 8)]

/-- A write that is no aligned 64-bit write at a ring doorbell. -/
theorem State.bar2Write_misshaped {s : State} {n o width : Nat} (word : Nat) (hn : n < 1024) (ho : o < 0x1000)
    (hdrop : s.hif.dropDoorbells = false) (hshape : width ≠ 8 ∨ o % 8 ≠ 0 ∨ 128 ≤ o) :
    s.bar2Write (n * 0x1000 + o) width word = s.hifErr R.HIF_ERR_STS_BAD_DB n 0 := by
  have hpage : (n * 0x1000 + o) / 0x1000 = n := by omega
  have hoff : (n * 0x1000 + o) % 0x1000 = o := by omega
  have hin : ¬(s.hif.dropDoorbells = true ∨ n * 0x1000 + o ≥ 0x400000) := by rw [hdrop]; simp; omega
  simp only [State.bar2Write, hpage, hoff, if_neg hin, ge_iff_le, if_pos hshape]

theorem State.doorbell_of_disabled {s : State} {n : Nat} (r word : Nat) (hst : (s.slice n).st = .disabled) :
    s.doorbell n r word = s.hifErr R.HIF_ERR_STS_BAD_DB n r := if_pos hst

theorem State.doorbell_of_stale {s : State} {n word : Nat} (r : Nat) (hst : (s.slice n).st ≠ .disabled)
    (hgen : bits word 39 32 ≠ (s.slice n).gen) :
    s.doorbell n r word =
      (s.modSlice n (fun x => { x with staleDrops := (x.staleDrops + 1) % 2 ^ 32 })).hifErr R.HIF_ERR_STS_STALE n r := by
  rw [State.doorbell, if_neg hst, if_pos hgen]

theorem State.doorbell_of_closed {s : State} {n r word : Nat} (hst : (s.slice n).st ≠ .disabled)
    (hgen : bits word 39 32 = (s.slice n).gen) (hclosed : ¬s.ringOpen n r) :
    s.doorbell n r word = s.hifErr R.HIF_ERR_STS_BAD_DB n r := by
  have hguard : (!((s.slice n).ring r).en || ((s.slice n).ring r).fault ||
      ((s.slice n).st == .resetting && (s.slice n).op.isSome)) = true := by
    simpa [or_assoc] using State.not_ringOpen_iff.1 hclosed
  rw [State.doorbell, if_neg hst, if_neg (fun hne => hne hgen), if_pos hguard]

/-- What a fitting doorbell does rests on its count alone. -/
theorem State.doorbell_of_fits {s : State} {n r word : Nat} (h : s.doorbellFits n r word) :
    s.doorbell n r word =
      if (bits word 15 0 + 65536 - ((s.slice n).ring r).head) % 65536 > ((s.slice n).ring r).size then
        (s.modSlice n (fun x => x.modRing r (fun g => { g with fault := true, held := [], failed := none }))).hifErr
          R.HIF_ERR_STS_RING_FAULT n r
      else if bits word 15 0 = ((s.slice n).ring r).tail then s
      else s.modSlice n (fun x => x.modRing r (fun g => { g with
        tail := bits word 15 0, belled := true
        bells := (if g.belled then g.bells.dropLast else g.bells) ++ [bits word 15 0] })) := by
  obtain ⟨hst, hgen, hen, hfault, hop⟩ := h
  have hguard : ¬(!((s.slice n).ring r).en || ((s.slice n).ring r).fault ||
      ((s.slice n).st == .resetting && (s.slice n).op.isSome)) = true := by
    simpa [hen, hfault] using hop
  rw [State.doorbell, if_neg hst, if_neg (fun hne => hne hgen), if_neg hguard]

/-- Settles O7: a write at a ring doorbell reaches its ring, whose answer is decided in the order of R44. -/
theorem doorbells : Obligations.Doorbells := by
  unfold Obligations.Doorbells
  refine ⟨fun s n r word hn hr hdrop hgen hst hen hfault hop hsize hnew => ?accepted,
    fun s n r word hn hr hdrop => ⟨fun hst => ?disabled, fun hst hgen => ?stale, fun hst hgen hclosed => ?closed,
      fun hst hgen hen hfault hop hsize => ?overrun, fun hst hgen hen hfault hop hsize hsame => ?present,
      fun o width ho hshape => ?misshaped⟩⟩
  case accepted =>
    have hbell := State.doorbell_of_fits (s := s) (r := r) ⟨hst, hgen, hen, hfault, hop⟩
    rw [if_neg (Nat.not_lt.2 hsize), if_neg hnew] at hbell
    exact congrArg ok ((State.bar2Write_ring word hn hr hdrop).trans hbell)
  case disabled => exact congrArg ok ((State.bar2Write_ring word hn hr hdrop).trans (State.doorbell_of_disabled r word hst))
  case stale => exact congrArg ok ((State.bar2Write_ring word hn hr hdrop).trans (State.doorbell_of_stale r hst hgen))
  case closed =>
    have hbell := State.doorbell_of_closed hst hgen (State.not_ringOpen_iff.2 hclosed)
    exact congrArg ok ((State.bar2Write_ring word hn hr hdrop).trans hbell)
  case overrun =>
    have hbell := State.doorbell_of_fits (s := s) (r := r) ⟨hst, hgen, hen, hfault, hop⟩
    rw [if_pos hsize] at hbell
    exact congrArg ok ((State.bar2Write_ring word hn hr hdrop).trans hbell)
  case present =>
    have hbell := State.doorbell_of_fits (s := s) (r := r) ⟨hst, hgen, hen, hfault, hop⟩
    rw [if_neg (Nat.not_lt.2 hsize), if_pos hsame] at hbell
    exact congrArg ok ((State.bar2Write_ring word hn hr hdrop).trans hbell)
  case misshaped => exact congrArg ok (State.bar2Write_misshaped word hn ho hdrop hshape)

/-! ## Descriptor fetches and input reads (R36, R37, R54, R401) -/

theorem State.fetchDone_of_running {s : State} {n r k : Nat} (data : Bytes) (ha : ((s.slice n).ring r).awaits k = true)
    (hd : s.dmaOn (s.slice n).port = true) :
    s.fetchDone n r k data = s.modSlice n (fun x => x.modRing r (fun g => { g with held := g.held.ins k (fitTo 128 data) })) :=
  if_pos ⟨hd, ha⟩

theorem State.fetchDone_of_stopped {s : State} {n : Nat} (r k : Nat) (data : Bytes)
    (hd : s.dmaOn (s.slice n).port = false) : s.fetchDone n r k data = s :=
  if_neg (fun h => Bool.false_ne_true (hd.symm.trans h.1))

theorem State.fetchDone_of_unawaited {s : State} {n r k : Nat} (data : Bytes)
    (ha : ((s.slice n).ring r).awaits k = false) : s.fetchDone n r k data = s :=
  if_neg (fun h => Bool.false_ne_true (ha.symm.trans h.2))

theorem State.fetchFail_of_unawaited {s : State} {n r k : Nat} (ha : ((s.slice n).ring r).awaits k = false) :
    s.fetchFail n r k = s := if_neg (Bool.eq_false_iff.1 ha)

/-- Settles O8: a fetch is kept where the ring awaits the descriptor and the home port's DMA runs. -/
theorem descriptorFetch : Obligations.DescriptorFetch := by
  unfold Obligations.DescriptorFetch
  refine fun s n r k data => ⟨fun ha => ⟨fun hd => ?_, fun hd => ?_, ?_⟩, fun ha => ⟨?_, ?_⟩⟩
  · exact congrArg ok (State.fetchDone_of_running data ha hd)
  · exact congrArg ok (State.fetchDone_of_stopped r k data hd)
  · exact congrArg ok (if_pos ha)
  · exact congrArg ok (State.fetchDone_of_unawaited data ha)
  · exact congrArg ok (State.fetchFail_of_unawaited ha)

theorem State.dmaDone_of_entry {s : State} {c : Cmd} (target : Nat) (data : Bytes) (hc : s.cmd? c.id = some c) :
    s.dmaDone c.id target data =
      if s.dmaOn (s.slice c.slice).port ∧ c.want.contains target then
        s.putCmd { c with
          want := c.want.filter (· != target)
          inputs := c.inputs.ins target (fitTo (if target < 4 then Desc.bufLen c.desc target else data.length) data) }
      else s := by
  rw [State.dmaDone, hc]
  rfl

theorem State.dmaFail_of_entry {s : State} {c : Cmd} (target : Nat) (hc : s.cmd? c.id = some c) :
    s.dmaFail c.id target =
      if c.want.contains target then
        s.putCmd { c with want := c.want.filter (· != target), failed := c.failed ++ [target] }
      else s := by
  rw [State.dmaFail, hc]

/-- Settles O9: a read counts where the command waits for its target. -/
theorem inputReads : Obligations.InputReads := by
  unfold Obligations.InputReads
  refine fun s c target data hc => ⟨fun hw => ⟨fun hd => ?filled, fun hd => ?stopped, ?failed⟩, fun hw => ?discarded⟩
  case filled =>
    have h := State.dmaDone_of_entry target data hc
    rw [if_pos ⟨hd, List.contains_iff_mem.2 hw⟩] at h
    exact congrArg ok h
  case stopped =>
    have h := State.dmaDone_of_entry target data hc
    rw [if_neg (by simp [hd])] at h
    exact congrArg ok h
  case failed =>
    have h := State.dmaFail_of_entry target hc
    rw [if_pos (List.contains_iff_mem.2 hw)] at h
    exact congrArg ok h
  case discarded =>
    have hno : ¬c.want.contains target = true := fun h => hw (List.contains_iff_mem.1 h)
    have hdone := State.dmaDone_of_entry target data hc
    have hfail := State.dmaFail_of_entry target hc
    rw [if_neg (fun h => hno h.2)] at hdone
    rw [if_neg hno] at hfail
    exact ⟨congrArg ok hdone, congrArg ok hfail⟩

/-! ## Slice operations (R58, R59, R221) -/

/-- One more administrative draw asked for (R221, R227). -/
theorem State.setWaiting_snoc (s : State) (l : List (Nat × AdminOp)) (e : Nat × AdminOp) :
    s.setWaiting (l ++ [e]) =
      ({ s with rng := { s.rng with waiting := l ++ [e] } }).set R.RNG_POOL_STS_WAITING 0 (l.length + 1) := by
  rw [State.setWaiting, List.length_append]
  rfl

/-- RESET and DISABLE: the slice is RESETTING at once, and its new ephemeral key is asked for. -/
theorem State.beginOp_void (s : State) (n : Nat) {op : SliceOp} (h : op = .reset ∨ op = .disable) :
    s.beginOp n op =
      ({ s.modSlice n (fun x => { x with op := some op, st := .resetting }) with
        rng := { s.rng with waiting := s.rng.waiting ++ [(32, AdminOp.ephemeral n)] } }).set R.RNG_POOL_STS_WAITING 0
          (s.rng.waiting.length + 1) := by
  simp only [State.beginOp, if_pos h]
  exact State.setWaiting_snoc _ _ _

/-- QUIESCE and RESUME wait for the boundary. -/
theorem State.beginOp_kept (s : State) (n : Nat) {op : SliceOp} (h : ¬(op = .reset ∨ op = .disable)) :
    s.beginOp n op = s.modSlice n (fun x => { x with op := some op }) := by
  simp only [State.beginOp, if_neg h]

theorem State.sliceCmd_accepted {s : State} {n : Nat} (op : SliceOp) (hidle : s.on R.HIF_SLICE_CMD_STS_BUSY = false)
    (hb : s.sliceBusy n = false) (hstaged : s.hif.staged.any (fun e => e.1 == n) = false) (hst : (s.slice n).st ≠ .disabled) :
    s.sliceCmd n op = (s.set R.HIF_SLICE_CMD_STS_ERR 0 0).beginOp n op := by
  simp only [State.sliceCmd, hidle, hb, hstaged, hst, State.sliceErr, Bool.false_eq_true, if_false, or_self]

theorem State.sliceCmd_of_busy {s : State} {n : Nat} (op : SliceOp) (hidle : s.on R.HIF_SLICE_CMD_STS_BUSY = false)
    (hb : s.sliceBusy n = true) : s.sliceCmd n op = s.set R.HIF_SLICE_CMD_STS_ERR 0 4 := by
  simp only [State.sliceCmd, hidle, hb, State.sliceErr, Bool.false_eq_true, if_false, true_or, if_true]

theorem State.sliceCmd_of_disabled {s : State} {n : Nat} (op : SliceOp) (hidle : s.on R.HIF_SLICE_CMD_STS_BUSY = false)
    (hb : s.sliceBusy n = false) (hstaged : s.hif.staged.any (fun e => e.1 == n) = false)
    (hst : (s.slice n).st = .disabled) : s.sliceCmd n op = s.set R.HIF_SLICE_CMD_STS_ERR 0 5 := by
  simp only [State.sliceCmd, hidle, hb, hstaged, hst, State.sliceErr, Bool.false_eq_true, if_false, or_self, if_true]

/-- Each slice operation of the table is `sliceCmd`, where the block takes a write. -/
theorem exec_sliceOperation {s : State} {n : Nat} (hw : s.writable 0x010010 = true) {c : Instr}
    (hc : c ∈ [Instr.sliceReset n, .sliceQuiesce n, .sliceResume n, .sliceDisable n]) :
    ∃ op, exec c s = ok (s.sliceCmd n op) := by
  simp only [List.mem_cons, List.not_mem_nil, or_false] at hc
  rcases hc with rfl | rfl | rfl | rfl
  · exact ⟨.reset, congrArg ok (State.ifWritable_true hw _)⟩
  · exact ⟨.quiesce, congrArg ok (State.ifWritable_true hw _)⟩
  · exact ⟨.resume, congrArg ok (State.ifWritable_true hw _)⟩
  · exact ⟨.disable, congrArg ok (State.ifWritable_true hw _)⟩

/-- Settles O10: an accepted operation waits for its boundary; one in the way of another, or of a disabled slice, is rejected. -/
theorem sliceOperations : Obligations.SliceOperations := by
  unfold Obligations.SliceOperations
  refine ⟨fun s n hw hidle hb hstaged hst => ?accepted,
    fun s n hw hidle c hc => ⟨fun hb => ?busy, fun hb hstaged hst => ?disabled⟩⟩
  case accepted =>
    have htaken (op : SliceOp) : s.ifWritable 0x010010 (s.sliceCmd n op) = (s.set R.HIF_SLICE_CMD_STS_ERR 0 0).beginOp n op :=
      (State.ifWritable_true hw _).trans (State.sliceCmd_accepted op hidle hb hstaged hst)
    refine ⟨?_, ?_, ?_, ?_⟩
    · exact congrArg ok ((htaken .reset).trans (State.beginOp_void _ n (.inl rfl)))
    · exact congrArg ok ((htaken .disable).trans (State.beginOp_void _ n (.inr rfl)))
    · exact congrArg ok ((htaken .quiesce).trans (State.beginOp_kept _ n (by decide)))
    · exact congrArg ok ((htaken .resume).trans (State.beginOp_kept _ n (by decide)))
  case busy =>
    obtain ⟨op, hop⟩ := exec_sliceOperation hw hc
    exact hop.trans (congrArg ok (State.sliceCmd_of_busy op hidle hb))
  case disabled =>
    obtain ⟨op, hop⟩ := exec_sliceOperation hw hc
    exact hop.trans (congrArg ok (State.sliceCmd_of_disabled op hidle hb hstaged hst))

/-! ## LOAD, QUIESCED and the log acknowledgement (R41, R42, R59, R60, R64) -/

theorem State.sliceLoad_begins {s : State} {n : Nat} (hidle : s.on R.HIF_SLICE_CMD_STS_BUSY = false)
    (hcfg : s.on R.GLB_CFG_STS_BUSY = false) (hb : s.sliceBusy n = false) :
    s.sliceLoad n = { s.set R.HIF_SLICE_CMD_STS_BUSY 0 1 with hif := { s.hif with loading := some n } } := by
  simp only [State.sliceLoad, hidle, hcfg, hb, Bool.false_eq_true, if_false, State.set_hif]

/-- The state while a LOAD's block is judged: nothing is loading any more, and BUSY is clear. -/
def State.loadEnded (s : State) : State :=
  ({ s with hif := { s.hif with loading := none } }).set R.HIF_SLICE_CMD_STS_BUSY 0 0

/-- A block that meets R41 is staged. -/
theorem State.ctxRead_staged {s : State} {n : Nat} {b : Bytes} {c : SliceCtx} (hload : s.hif.loading = some n)
    (hparse : parseCtx b = some c) (hcfg : s.on R.GLB_CFG_STS_BUSY = false) (hd : s.dmaOn s.adminPort = true)
    (hb : s.sliceBusy n = false) (hready : (s.slice n).st = .ready → sameForReady c (s.slice n).ctx = true) :
    s.ctxRead (some b) =
      ({ s.set R.HIF_SLICE_CMD_STS_BUSY 0 0 with
        hif := { s.hif with loading := none, staged := s.hif.staged.ins n c },
        glb := { s.glb with clean := false } }).set R.HIF_SLICE_CMD_STS_ERR 0 0 := by
  have hcfg' : ¬s.loadEnded.on R.GLB_CFG_STS_BUSY = true := by
    have h : s.loadEnded.get R.GLB_CFG_STS_BUSY = s.get R.GLB_CFG_STS_BUSY := State.get_set_other _ _ _ _ _ _ (by decide)
    rw [State.on, h]
    exact Bool.eq_false_iff.1 hcfg
  have hb' : ¬s.loadEnded.sliceBusy n = true := Bool.eq_false_iff.1 hb
  have hsame : ¬((s.loadEnded.slice n).st = .ready ∧ (!sameForReady c (s.loadEnded.slice n).ctx) = true) := by
    rintro ⟨hst, hdiff⟩
    have h : sameForReady c (s.loadEnded.slice n).ctx = true := hready hst
    simp [h] at hdiff
  have hdma : ¬(!s.dmaOn s.adminPort) = true := by simp [hd]
  simp only [State.ctxRead, hload, if_neg hdma, hparse]
  exact (if_neg hcfg').trans ((if_neg hb').trans (if_neg hsame))

/-- Settles O11: LOAD, the block it read, the end of a quiesce and HIF_LOG_ACK. -/
theorem sliceUpkeep : Obligations.SliceUpkeep := by
  unfold Obligations.SliceUpkeep
  refine ⟨fun s n => ⟨fun hw hidle hcfg hb => ?_, fun b c hload hparse hcfg hd hb hready => ?_⟩,
    fun s n count => ⟨fun hst hnone => ?_, fun hw => ?_⟩⟩
  · exact congrArg ok ((State.ifWritable_true hw _).trans (State.sliceLoad_begins hidle hcfg hb))
  · exact congrArg ok (State.ctxRead_staged hload hparse hcfg hd hb hready)
  · exact congrArg ok (if_pos ⟨hst, hnone⟩)
  · exact congrArg ok (State.ifWritable_true hw _)

/-! ## The enables of interrupts (R55) -/

theorem mem_irqTable_of_irqOf {off sts vec : Nat} {en : Field} (h : irqOf off = some (en, sts, vec)) :
    (off, en, sts, vec) ∈ irqTable := by
  obtain ⟨⟨o, x⟩, hfind, hx⟩ := Option.map_eq_some_iff.1 h
  have ho : o = off := by simpa using List.find?_some hfind
  subst ho hx
  exact List.mem_of_find?_eq_some hfind

/-- The IRQ_EN registers lie in the map, and none is a register that is taken on other terms. -/
theorem irqTable_plain : ∀ e ∈ irqTable, (regAt e.1).isSome = true ∧ e.1 ≠ 0x000030 ∧ e.1 ≠ 0x0A0008 ∧ e.1 ≠ 0x0C0008 ∧
    e.1 ≠ 0x080008 := by decide

theorem State.specialWrite_irqEn (s : State) (src : Src) (word : Nat) {e : Nat × Field × Nat × Nat} (he : e ∈ irqTable) :
    s.specialWrite src e.1 word = some (s.writeIrqEn e.2.1 e.2.2.1 e.2.2.2 (word % 2 ^ 32)) := by
  simp only [irqTable, List.mem_cons, List.not_mem_nil, or_false] at he
  rcases he with rfl | rfl | rfl | rfl | rfl | rfl | rfl | rfl | rfl | rfl | rfl | rfl | rfl <;> rfl

/-- A write of an IRQ_EN register that the block and the guard take. -/
theorem State.regWrite_irqEn {s : State} {src : Src} {off sts vec : Nat} {en : Field} (word : Nat)
    (h : irqOf off = some (en, sts, vec)) (hw : s.writable off = true) (hown : guardOwned off = true → src = .corePriv) :
    s.regWrite src off word = s.writeIrqEn en sts vec (word % 2 ^ 32) := by
  have hmem := mem_irqTable_of_irqOf h
  obtain ⟨hreg, hrst, hlc, hevt, hdatum⟩ := irqTable_plain _ hmem
  have hspecial : s.specialWrite src off word = some (s.writeIrqEn en sts vec (word % 2 ^ 32)) :=
    s.specialWrite_irqEn src word hmem
  have htaken : s.writeReg src off word = s.writeIrqEn en sts vec (word % 2 ^ 32) := by
    rw [State.writeReg, if_neg (fun ⟨hg, hno, _⟩ => hno (hown hg)), hspecial]
  simp [State.regWrite, Option.isNone_eq_false_iff.2 hreg, State.gated_of_writable hw, hrst, hlc, hevt, hdatum,
    State.ifWritable_true hw, htaken]

/-- Settles O19: both rows that write an IRQ_EN register set the enables, and raise the vector for a pending event. -/
theorem interruptEnableWrite : Obligations.InterruptEnableWrite := by
  unfold Obligations.InterruptEnableWrite
  intro s src off word sts vec en hirq hw hown t
  have hplain : exec (.registerWrite src off word) s = ok (s.writeIrqEn en sts vec (word % 2 ^ 32)) :=
    congrArg ok (State.regWrite_irqEn word hirq hw hown)
  have hrow : exec (.irqEnWrite src off word) s = ok (s.writeIrqEn en sts vec (word % 2 ^ 32)) :=
    (congrArg ok (if_pos (by rw [hirq]; rfl))).trans hplain
  refine ⟨fun hnone => ?_, fun hsome => ?_⟩
  · have h : s.writeIrqEn en sts vec (word % 2 ^ 32) = t := if_pos hnone
    rw [hplain, hrow, h]
    exact ⟨rfl, rfl⟩
  · have h : s.writeIrqEn en sts vec (word % 2 ^ 32) = t.raise vec := if_neg hsome
    rw [hplain, hrow, h]
    exact ⟨rfl, rfl⟩

/-! ## Ports: link, DMA and credit (R36 to R38, R53) -/

/-- A write leaves every one-bit field with another key alone. -/
theorem State.on_set_other (s : State) (f g : Field) (i j v : Nat) (h : f.key i ≠ g.key j) :
    (s.set f i v).on g j = s.on g j := by
  rw [State.on, State.get_set_other _ _ _ _ _ _ h, State.on]

theorem State.linkUp_set_other (s : State) (f : Field) (i v q : Nat) (hA : f.key i ≠ R.HIF_PORT_STS_LINK_A.key 0)
    (hB : f.key i ≠ R.HIF_PORT_STS_LINK_B.key 0) : (s.set f i v).linkUp q = s.linkUp q := by
  rw [State.linkUp, State.on_set_other _ _ _ _ _ _ hA, State.on_set_other _ _ _ _ _ _ hB, State.linkUp]

theorem State.drainPort_of_credit {s : State} {p : Nat} (h : s.credit p = true) :
    s.drainPort p =
      { s with hif := { s.hif with
        sent := s.hif.sent ++ s.hif.txq.filter (fun (w : Post) => w.port == p)
        txq := s.hif.txq.filter (fun (w : Post) => w.port != p) } } := if_pos h

theorem State.drainPort_of_no_credit {s : State} {p : Nat} (h : s.credit p = false) : s.drainPort p = s :=
  if_neg (Bool.eq_false_iff.1 h)

theorem State.credit_of_not_dmaOn {s : State} {p : Nat} (h : s.dmaOn p = false) : s.credit p = false := by
  rw [State.credit, h, Bool.and_false]

/-- The host has given credit to a port. -/
def Hif.credited (h : Hif) (port : Nat) : Bool := if port = 0 then h.creditA else h.creditB

theorem State.credit_of_credited {s : State} {p : Nat} (hc : s.hif.credited p = true) (hd : s.dmaOn p = true) :
    s.credit p = true := by
  rw [State.credit, hd, Bool.and_true]
  exact hc

/-! ## Credit stalls (R53) -/

/-- The credit account of a port that has been without credit for 64 frames. -/
def Hif.dry (h : Hif) (port : Nat) : Hif :=
  if port = 0 then { h with creditA := false, dryA := max 64 h.dryA, lostA := true }
  else { h with creditB := false, dryB := max 64 h.dryB, lostB := true }

/-- The credit account of a port whose credit has returned. -/
def Hif.refilled (h : Hif) (port : Nat) : Hif :=
  if port = 0 then { h with creditA := true, dryA := 0, lostA := false }
  else { h with creditB := true, dryB := 0, lostB := false }

theorem Hif.refilled_credited (h : Hif) (port : Nat) : (h.refilled port).credited port = true := by
  by_cases hp : port = 0 <;> simp [Hif.refilled, Hif.credited, hp]

theorem Hif.refilled_sent (h : Hif) (port : Nat) : (h.refilled port).sent = h.sent := by
  unfold Hif.refilled; split <;> rfl

theorem Hif.refilled_txq (h : Hif) (port : Nat) : (h.refilled port).txq = h.txq := by
  unfold Hif.refilled; split <;> rfl

theorem Hif.refilled_d3 (h : Hif) (port : Nat) : (h.refilled port).d3 = h.d3 := by
  unfold Hif.refilled; split <;> rfl

theorem stallField_key_ne_link (port : Nat) : (stallField port).key 0 ≠ R.HIF_PORT_STS_LINK_A.key 0 ∧
    (stallField port).key 0 ≠ R.HIF_PORT_STS_LINK_B.key 0 := by
  unfold stallField; split <;> decide

theorem State.portStall_first {s : State} {p : Nat} (h : s.on (stallField p) = false) :
    s.portStall p =
      ((({ s with hif := s.hif.dry p } : State).set (stallField p) 0 1).hifErr
        (if p = 0 then R.HIF_ERR_STS_STALL_A else R.HIF_ERR_STS_STALL_B) 0 0).record 0x0202 2 devScope p :=
  if_neg (Bool.eq_false_iff.1 h)

theorem State.portStall_again {s : State} {p : Nat} (h : s.on (stallField p) = true) :
    s.portStall p = { s with hif := s.hif.dry p } := if_pos h

theorem State.portStallEnd_eq (s : State) (p : Nat) :
    s.portStallEnd p = ({ s.set (stallField p) 0 0 with hif := s.hif.refilled p } : State).drainPort p := rfl

/-- The end of a stall changes neither the link nor the power state of a port. -/
theorem State.dmaOn_refilled (s : State) (p q : Nat) :
    ({ s.set (stallField p) 0 0 with hif := s.hif.refilled p } : State).dmaOn q = s.dmaOn q := by
  obtain ⟨hA, hB⟩ := stallField_key_ne_link p
  have hlink : ({ s.set (stallField p) 0 0 with hif := s.hif.refilled p } : State).linkUp q = s.linkUp q :=
    s.linkUp_set_other _ _ _ q hA hB
  simp only [State.dmaOn, hlink, Hif.refilled_d3]

theorem State.portStallEnd_of_running {s : State} {p : Nat} (hd : s.dmaOn p = true) :
    s.portStallEnd p =
      { s.set (stallField p) 0 0 with
        hif := { s.hif.refilled p with
          sent := s.hif.sent ++ s.hif.txq.filter (fun (w : Post) => w.port == p)
          txq := s.hif.txq.filter (fun (w : Post) => w.port != p) } } := by
  have hcredit := State.credit_of_credited (s.hif.refilled_credited p) ((s.dmaOn_refilled p p).trans hd)
  rw [State.portStallEnd_eq, State.drainPort_of_credit hcredit]
  simp only [Hif.refilled_sent, Hif.refilled_txq]

theorem State.portStallEnd_of_stopped {s : State} {p : Nat} (hd : s.dmaOn p = false) :
    s.portStallEnd p = { s.set (stallField p) 0 0 with hif := s.hif.refilled p } := by
  rw [State.portStallEnd_eq]
  exact State.drainPort_of_no_credit (State.credit_of_not_dmaOn ((s.dmaOn_refilled p p).trans hd))

/-! ## Power states (R36) -/

/-- A function in D3hot stops the DMA of its port. -/
theorem State.dmaOn_of_d3 {s : State} {p fn : Nat} (hfn : fn < 2) (h : Tab.get false s.hif.d3 (p * 2 + fn) = true) :
    s.dmaOn p = false := by
  obtain rfl | rfl : fn = 0 ∨ fn = 1 := by omega
  · rw [Nat.add_zero] at h
    simp [State.dmaOn, h]
  · simp [State.dmaOn, h]

/-- With its link up and both functions in D0, the DMA of a port runs. -/
theorem State.dmaOn_of_d0 {s : State} {p fn : Nat} (hfn : fn < 2) (hl : s.linkUp p = true)
    (h : Tab.get false s.hif.d3 (p * 2 + fn) = false) (h' : Tab.get false s.hif.d3 (p * 2 + (1 - fn)) = false) :
    s.dmaOn p = true := by
  obtain rfl | rfl : fn = 0 ∨ fn = 1 := by omega
  · rw [Nat.add_zero] at h
    simpa [State.dmaOn, h, hl] using h'
  · rw [Nat.sub_self, Nat.add_zero] at h'
    simpa [State.dmaOn, h', hl] using h

/-- A function in the given power state, before what waits leaves. -/
def State.inPower (s : State) (p fn : Nat) (d3 : Bool) : State :=
  { s with hif := { s.hif with d3 := Tab.put false s.hif.d3 (p * 2 + fn) d3 } }

theorem State.powerState_eq (s : State) (p : Nat) {fn : Nat} (hfn : fn < 2) (d3 : Bool) :
    s.powerState p fn d3 = (s.inPower p fn d3).drainPort p := by
  rw [State.powerState, Nat.mod_eq_of_lt hfn, State.inPower]

theorem State.inPower_self (s : State) (p fn : Nat) (d3 : Bool) :
    Tab.get false (s.inPower p fn d3).hif.d3 (p * 2 + fn) = d3 := Tab.get_put_self ..

theorem State.inPower_sibling (s : State) (p : Nat) {fn : Nat} (hfn : fn < 2) (d3 : Bool) :
    Tab.get false (s.inPower p fn d3).hif.d3 (p * 2 + (1 - fn)) = Tab.get false s.hif.d3 (p * 2 + (1 - fn)) :=
  Tab.get_put_other _ _ _ (by omega)

theorem State.powerState_d3 (s : State) (p : Nat) {fn : Nat} (hfn : fn < 2) :
    s.powerState p fn true = s.inPower p fn true := by
  rw [State.powerState_eq s p hfn]
  exact State.drainPort_of_no_credit (State.credit_of_not_dmaOn (State.dmaOn_of_d3 hfn (s.inPower_self p fn true)))

theorem State.powerState_d0 {s : State} {p fn : Nat} (hfn : fn < 2) (hc : s.hif.credited p = true) (hl : s.linkUp p = true)
    (hother : Tab.get false s.hif.d3 (p * 2 + (1 - fn)) = false) :
    s.powerState p fn false =
      { s with hif := { s.hif with
        d3 := Tab.put false s.hif.d3 (p * 2 + fn) false
        sent := s.hif.sent ++ s.hif.txq.filter (fun (w : Post) => w.port == p)
        txq := s.hif.txq.filter (fun (w : Post) => w.port != p) } } := by
  have hl' : (s.inPower p fn false).linkUp p = true := hl
  have hd := State.dmaOn_of_d0 hfn hl' (s.inPower_self p fn false) ((s.inPower_sibling p hfn false).trans hother)
  have hc' : (s.inPower p fn false).hif.credited p = true := hc
  rw [State.powerState_eq s p hfn, State.drainPort_of_credit (State.credit_of_credited hc' hd)]
  rfl

/-! ## MSI-X vectors (R39, R55) -/

/-- A vector unmasked, with no message pending any more. -/
def State.vectorOpen (s : State) (k : Nat) : State :=
  { s with hif := { s.hif with unmasked := Tab.put false s.hif.unmasked k true, pba := Tab.put false s.hif.pba k false } }

theorem State.unmask_of_idle {s : State} {fn vec : Nat} (h : Tab.get false s.hif.pba (fn * 1024 + vec) = false) :
    s.unmask fn vec = s.vectorOpen (fn * 1024 + vec) := if_neg (Bool.eq_false_iff.1 h)

/-- The message of a vector, with the address and data of its entry (R55). -/
def State.msixPost (s : State) (fn vec port : Nat) : Post :=
  { port := port, kind := .msix, slice := if fn = 1 then vec else 0, gen := 0, cmd := fn * 1024 + vec,
    addr := s.msixEntry fn vec 1 * 2 ^ 32 + s.msixEntry fn vec 0 / 4 * 4, data := toLE 4 (s.msixEntry fn vec 2) }

theorem State.msix_of_unmasked {s : State} {fn vec : Nat} (port : Nat)
    (h : Tab.get false s.hif.unmasked (fn * 1024 + vec) = true) : s.msix fn vec port = s.post (s.msixPost fn vec port) :=
  if_pos h

theorem State.unmask_of_pending {s : State} {fn vec : Nat} (h : Tab.get false s.hif.pba (fn * 1024 + vec) = true) :
    s.unmask fn vec =
      (s.vectorOpen (fn * 1024 + vec)).post (s.msixPost fn vec (if fn = 1 then (s.slice vec).port else s.adminPort)) := by
  have hopen : Tab.get false (s.vectorOpen (fn * 1024 + vec)).hif.unmasked (fn * 1024 + vec) = true :=
    Tab.get_put_self false s.hif.unmasked _ true
  exact (if_pos h).trans (State.msix_of_unmasked _ hopen)

/-- A dword of a table entry other than its mask. -/
theorem State.msixWrite_dword (s : State) {fn vec i : Nat} (v : Nat) (hvec : vec < pcieVectors fn) (hi : i < 3) :
    s.msixWrite fn (4 * vec + i) v =
      { s with hif := { s.hif with msixTab := Tab.put 0 s.hif.msixTab (4 * (fn * 1024 + vec) + i) (v % 2 ^ 32) } } := by
  have hq : (4 * vec + i) / 4 = vec := by omega
  have hr : (4 * vec + i) % 4 = i := by omega
  have hmask : ¬i = 3 := by omega
  simp only [State.msixWrite, hq, hr, if_pos hvec, if_neg hmask]

/-- Settles O12: stalls of a port's credit, the power states of its functions, and the MSI-X tables. -/
theorem postedWrites : Obligations.PostedWrites := by
  unfold Obligations.PostedWrites
  refine ⟨fun s portB => ⟨fun hoff => ?stalls, fun hon => ?stalled, fun hd => ?drains, fun hd => ?waits⟩,
    fun s => ⟨fun portB fn hfn => ?d3hot, fun portB fn hfn hc hl hother => ?d0,
      fun fn vec table hfn hvec => ⟨fun hp => ?idle, fun hp => ?pending⟩, fun fn vec i v hvec hi => ?dword⟩⟩
  case stalls => exact congrArg ok (State.portStall_first hoff)
  case stalled => exact congrArg ok (State.portStall_again hon)
  case drains => exact congrArg ok (State.portStallEnd_of_running hd)
  case waits => exact congrArg ok (State.portStallEnd_of_stopped hd)
  case d3hot => exact congrArg ok (s.powerState_d3 _ hfn)
  case d0 => exact congrArg ok (State.powerState_d0 hfn hc hl hother)
  case idle => exact congrArg ok (State.unmask_of_idle hp)
  case pending => exact congrArg ok (State.unmask_of_pending hp)
  case dword =>
    rw [s.msixWrite_dword v hvec hi]
    refine ⟨Tab.get_put_self .., rfl, rfl, fun vec' j hvec' hlt hj hne => Tab.get_put_other _ _ _ ?_⟩
    omega

/-! ## Host links and function level resets (R37 to R39, R369) -/

theorem State.hostLink_of_reset {s : State} {p : Nat} (width rate : Nat) (flit : Bool) (h : s.portInReset p = true) :
    s.hostLink p width rate flit = s := if_pos h

theorem State.hostLink_of_trained {s : State} {p : Nat} (width rate : Nat) (flit : Bool) (h : s.portInReset p = false) :
    s.hostLink p width rate flit =
      (if p = 0 then
        (((s.set R.HIF_PORT_STS_LINK_A 0 1).set R.HIF_PORT_STS_WIDTH_A 0 width).set R.HIF_PORT_STS_RATE_A 0 rate).put1
          R.HIF_PORT_STS_FLIT_A flit
      else
        (((s.set R.HIF_PORT_STS_LINK_B 0 1).set R.HIF_PORT_STS_WIDTH_B 0 width).set R.HIF_PORT_STS_RATE_B 0 rate).put1
          R.HIF_PORT_STS_FLIT_B flit).drainPort p := if_neg (Bool.eq_false_iff.1 h)

theorem State.askReset_of_none {s : State} (h : s.glb.rst = none) (warm : Bool) (cause : Nat) (drain : Bool) :
    s.askReset warm cause drain = { s with glb := { s.glb with rst := some ⟨warm, cause, drain⟩ } } := by
  rw [State.askReset, h]

/-- RATE of a port. -/
def rateField (port : Nat) : Field := if port = 0 then R.HIF_PORT_STS_RATE_A else R.HIF_PORT_STS_RATE_B

/-- The registers show a port's link as lost. -/
def State.linkDown (s : State) (port : Nat) : State := (s.set (linkField port) 0 0).set (rateField port) 0 0

/-- A lost link leaves every field alone that is neither LINK nor RATE of its port. -/
theorem State.linkDown_get (s : State) {port : Nat} {f : Field} (hl : (linkField port).key 0 ≠ f.key 0)
    (hr : (rateField port).key 0 ≠ f.key 0) : (s.linkDown port).get f = s.get f := by
  rw [State.linkDown, State.get_set_other _ _ _ _ _ _ hr, State.get_set_other _ _ _ _ _ _ hl]

theorem State.linkDown_mode (s : State) (port : Nat) :
    (s.linkDown port).get R.HIF_PORT_CTL_MODE = s.get R.HIF_PORT_CTL_MODE := by
  apply State.linkDown_get
  · unfold linkField; split <;> decide
  · unfold rateField; split <;> decide

theorem State.linkDown_portInReset (s : State) (port q : Nat) : (s.linkDown port).portInReset q = s.portInReset q := by
  simp only [State.portInReset, State.linkDown_mode]

/-- The link of the other port stands. -/
theorem State.linkDown_linkUp_other (s : State) (portB : Bool) :
    (s.linkDown (portOf portB)).linkUp (1 - portOf portB) = s.linkUp (1 - portOf portB) := by
  cases portB
  · exact congrArg (· != 0) (s.linkDown_get (port := 0) (f := R.HIF_PORT_STS_LINK_B) (by decide) (by decide))
  · exact congrArg (· != 0) (s.linkDown_get (port := 1) (f := R.HIF_PORT_STS_LINK_A) (by decide) (by decide))

/-- In joined mode with the other port up, the slices of the lost port move. -/
theorem State.linkLoss_of_joined {s : State} {portB : Bool} (cause : Nat) (hm : s.get R.HIF_PORT_CTL_MODE = 2)
    (hup : s.linkUp (1 - portOf portB) = true) :
    s.linkLoss (portOf portB) cause =
      { s.linkDown (portOf portB) with hif := { s.hif with moving := some (portOf portB) } } := by
  have hm' := (s.linkDown_mode (portOf portB)).trans hm
  exact (if_pos hm').trans (if_pos ((s.linkDown_linkUp_other portB).trans hup))

/-- A port in use that is the only one left asks for a warm reset. -/
theorem State.linkLoss_of_alone {s : State} {portB : Bool} (cause : Nat) (hrst : s.glb.rst = none)
    (h : (s.get R.HIF_PORT_CTL_MODE = 2 ∧ s.linkUp (1 - portOf portB) = false) ∨
      (s.get R.HIF_PORT_CTL_MODE ≠ 2 ∧ s.portInReset (portOf portB) = false)) :
    s.linkLoss (portOf portB) cause =
      { s.linkDown (portOf portB) with glb := { s.glb with rst := some ⟨true, cause, false⟩ } } := by
  have hask : (s.linkDown (portOf portB)).askReset true cause false =
      { s.linkDown (portOf portB) with glb := { s.glb with rst := some ⟨true, cause, false⟩ } } :=
    State.askReset_of_none (s := s.linkDown (portOf portB)) hrst true cause false
  rw [← s.linkDown_mode (portOf portB)] at h
  rcases h with ⟨hm, hup⟩ | ⟨hm, hres⟩
  · have hno : ¬(s.linkDown (portOf portB)).linkUp (1 - portOf portB) = true := by
      rw [s.linkDown_linkUp_other portB, hup]; decide
    exact ((if_pos hm).trans (if_neg hno)).trans hask
  · have hno : ¬(s.linkDown (portOf portB)).portInReset (portOf portB) = true := by
      rw [s.linkDown_portInReset, hres]; decide
    exact ((if_neg hm).trans (if_neg hno)).trans hask

theorem State.linkLoss_of_reset {s : State} {portB : Bool} (cause : Nat) (hm : s.get R.HIF_PORT_CTL_MODE ≠ 2)
    (hres : s.portInReset (portOf portB) = true) : s.linkLoss (portOf portB) cause = s.linkDown (portOf portB) := by
  have hm' : (s.linkDown (portOf portB)).get R.HIF_PORT_CTL_MODE ≠ 2 := by rwa [State.linkDown_mode]
  exact (if_neg hm').trans (if_pos ((s.linkDown_portInReset (portOf portB) (portOf portB)).trans hres))

/-- A Function Level Reset of function 1 voids the generations of the slices of its port, in ascending order. -/
theorem State.flr_of_slices (s : State) (p : Nat) :
    s.flr p 1 =
      s.sliceNos.foldl (fun t n =>
        if (t.slice n).port = p ∧
            ((t.slice n).st = .ready ∨ (t.slice n).st = .quiescing ∨ (t.slice n).st = .quiesced) then
          ({ t.modSlice n (fun x => { x with op := some .reset, st := .resetting }) with
            rng := { t.rng with waiting := t.rng.waiting ++ [(32, AdminOp.ephemeral n)] } }).set R.RNG_POOL_STS_WAITING 0
              (t.rng.waiting.length + 1)
        else t) s := by
  have hvoid (t : State) (n : Nat) := t.beginOp_void n (op := .reset) (.inl rfl)
  simp only [State.flr, Nat.one_ne_zero, if_false, hvoid]

/-- Settles O13: training and loss of a host link, and the resets of its functions. -/
theorem hostLinks : Obligations.HostLinks := by
  unfold Obligations.HostLinks
  refine ⟨fun s width rate flit => ⟨fun h => ?_, fun h => ?_, fun portB h => ?_⟩,
    fun s portB hrst => ⟨fun hm hup => ?_, fun hm hup => ?_, fun hm hres => ?_, fun hm hres => ?_⟩,
    fun s portB => ⟨fun hrst => ?_, ?_⟩⟩
  · exact congrArg ok (State.hostLink_of_trained width rate flit h)
  · exact congrArg ok (State.hostLink_of_trained width rate flit h)
  · exact congrArg ok (State.hostLink_of_reset width rate flit h)
  · exact congrArg ok (State.linkLoss_of_joined _ hm hup)
  · exact congrArg ok (State.linkLoss_of_alone _ hrst (.inl ⟨hm, hup⟩))
  · exact congrArg ok (State.linkLoss_of_alone _ hrst (.inr ⟨hm, hres⟩))
  · exact congrArg ok (State.linkLoss_of_reset _ hm hres)
  · exact congrArg ok (State.askReset_of_none hrst true 9 false)
  · exact congrArg ok (s.flr_of_slices (portOf portB))

/-! ## What a reset that loses the volatile state leaves (R270, R373) -/

/-- What the registers do not decide is kept while the waiting records of the home slices are shown. -/
theorem State.showHomePends_keeps {α : Type} (p : State → α) (hp : ∀ (t : State) (n : Nat), p (t.showPend n) = p t)
    (l : List Nat) (s : State) : p (l.foldl (fun v n => if v.isHome n then v.showPend n else v) s) = p s := by
  refine List.foldlRecOn l _ (motive := fun t => p t = p s) rfl (fun t ht n _ => ?_)
  split
  · exact (hp t n).trans ht
  · exact ht

theorem State.volatileReset_trv (s : State) (warm : Bool) (cause : Nat) :
    (s.volatileReset warm cause).trv = { nextId := s.trv.nextId } :=
  State.showHomePends_keeps State.trv (fun _ _ => rfl) _ _

theorem State.volatileReset_sessions (s : State) (warm : Bool) (cause : Nat) :
    (s.volatileReset warm cause).sessions = [] :=
  State.showHomePends_keeps State.sessions (fun _ _ => rfl) _ _

theorem State.volatileReset_frameNo (s : State) (cause : Nat) : (s.volatileReset false cause).frameNo = 0 :=
  State.showHomePends_keeps State.frameNo (fun _ _ => rfl) _ _

theorem State.volatileReset_powered (s : State) (warm : Bool) (cause : Nat) :
    (s.volatileReset warm cause).glb.powered = s.glb.powered :=
  State.showHomePends_keeps (fun t => t.glb.powered) (fun _ _ => rfl) _ _

theorem State.volatileReset_pwrFail (s : State) (warm : Bool) (cause : Nat) :
    (s.volatileReset warm cause).glb.pwrFail = s.glb.pwrFail :=
  State.showHomePends_keeps (fun t => t.glb.pwrFail) (fun _ _ => rfl) _ _

theorem State.volatileReset_datum (s : State) (warm : Bool) (cause : Nat) :
    (s.volatileReset warm cause).ks.datum = s.ks.datum :=
  State.showHomePends_keeps (fun t => t.ks.datum) (fun _ _ => rfl) _ _

theorem State.volatileReset_otp (s : State) (warm : Bool) (cause : Nat) : (s.volatileReset warm cause).otp = s.otp :=
  State.showHomePends_keeps State.otp (fun _ _ => rfl) _ _

theorem State.volatileReset_copies (s : State) (warm : Bool) (cause : Nat) :
    (s.volatileReset warm cause).lc.copies = s.lc.copies :=
  (State.showHomePends_keeps (fun t => t.lc.copies) (fun _ _ => rfl) _ _).trans (by cases warm <;> rfl)

theorem State.volatileReset_flash (s : State) (warm : Bool) (cause : Nat) :
    (s.volatileReset warm cause).upd.flash = s.upd.flash :=
  State.showHomePends_keeps (fun t => t.upd.flash) (fun _ _ => rfl) _ _

theorem State.volatileReset_audit (s : State) (warm : Bool) (cause : Nat) :
    (s.volatileReset warm cause).fb.audit = s.fb.audit :=
  State.showHomePends_keeps (fun t => t.fb.audit) (fun _ _ => rfl) _ _

theorem State.volatileReset_cause (s : State) (warm : Bool) (cause : Nat) :
    (s.volatileReset warm cause).get R.GLB_RST_STS_CAUSE = cause % 2 ^ R.GLB_RST_STS_CAUSE.width := by
  simp only [State.volatileReset, State.setWaiting]
  rw [State.get_set_other _ _ _ _ _ _ (by decide)]
  exact State.get_set_self _ _ _ _ (by decide)

/-! ## The power-good point and the loss of main power (R270, R367, R369) -/

/-- A device without main power takes no event of its power or of PERST. -/
theorem State.power_events_of_unpowered {s : State} (h : s.glb.powered = false) :
    s.mainPowerLoss = s ∧ s.pwrFall = s ∧ s.pwrRise = s ∧ ∀ p level, s.perst p level = s := by
  refine ⟨?_, ?_, ?_, fun p level => ?_⟩
  · simp [State.mainPowerLoss, h]
  · simp [State.pwrFall, h]
  · simp [State.pwrRise, h]
  · simp [State.perst, h]

theorem State.powerUp_of_powered {s : State} (boot : BootEnv) (h : s.glb.powered = true) : s.powerUp boot = s := if_pos h

/-- The power-good point: stage 0 and cause 1, frame 0, and nothing in flight. -/
structure State.StartsUp (s : State) (boot : BootEnv) (t : State) : Prop where
  powered : t.glb.powered = true
  pwrFail : t.glb.pwrFail = false
  boot : t.glb.boot = boot
  frameNo : t.frameNo = 0
  stage : t.get R.GLB_STS_STAGE = 0
  cause : t.get R.GLB_RST_STS_CAUSE = 1
  trv : t.trv = { nextId := s.trv.nextId }
  sessions : t.sessions = []
  datum : t.ks.datum = s.ks.datum
  otp : t.otp = s.otp
  copies : t.lc.copies = s.lc.copies

/-- Main power has come. -/
def State.withPower (s : State) : State := { s with glb := { s.glb with powered := true, pwrFail := false } }

/-- The device with main power, after the reset of the power-good point. -/
def State.powerOn (s : State) (boot : BootEnv) : State :=
  let u := (s.withPower.volatileReset false 1).goStage 0
  { u with glb := { u.glb with boot := boot } }

/-- The pins as the power-good point finds them. -/
def State.pinsShown (s : State) : State :=
  ((((s.set R.MGT_PIN_STS_PWR_FAIL_N 0 1).put1 R.MGT_PIN_STS_ZEROIZE_N (!s.tmp.zeroLow)).put1 R.MGT_PIN_STS_ALERT_N
    s.dose.alertHigh).set R.MGT_PIN_STS_PERST_A_N 0 1).set R.MGT_PIN_STS_PERST_B_N 0 1

/-- The keys of the register fields of the pins. -/
def pinKeys : List Nat :=
  [R.MGT_PIN_STS_PWR_FAIL_N.key 0, R.MGT_PIN_STS_ZEROIZE_N.key 0, R.MGT_PIN_STS_ALERT_N.key 0,
   R.MGT_PIN_STS_PERST_A_N.key 0, R.MGT_PIN_STS_PERST_B_N.key 0]

theorem State.pinsShown_rest (s : State) : s.pinsShown = { s with regs := s.pinsShown.regs } := rfl

theorem State.get_pinsShown (s : State) {f : Field} (h : f.key 0 ∉ pinKeys) : s.pinsShown.get f = s.get f := by
  simp only [pinKeys, List.mem_cons, List.not_mem_nil, or_false, not_or] at h
  obtain ⟨h1, h2, h3, h4, h5⟩ := h
  rw [State.pinsShown, State.get_set_other _ _ _ _ _ _ (Ne.symm h5), State.get_set_other _ _ _ _ _ _ (Ne.symm h4),
    State.put1_eq, State.get_set_other _ _ _ _ _ _ (Ne.symm h3), State.put1_eq, State.get_set_other _ _ _ _ _ _ (Ne.symm h2),
    State.get_set_other _ _ _ _ _ _ (Ne.symm h1)]

theorem State.powerUp_eq {s : State} (boot : BootEnv) (h : s.glb.powered = false) :
    s.powerUp boot = (s.powerOn boot).pinsShown := if_neg (by rw [h]; decide)

theorem State.powerOn_stage (s : State) (boot : BootEnv) : (s.powerOn boot).get R.GLB_STS_STAGE = 0 :=
  State.get_set_self (s.withPower.volatileReset false 1) R.GLB_STS_STAGE 0 0 (by decide)

theorem State.powerOn_cause (s : State) (boot : BootEnv) : (s.powerOn boot).get R.GLB_RST_STS_CAUSE = 1 :=
  (State.get_set_other (s.withPower.volatileReset false 1) R.GLB_STS_STAGE R.GLB_RST_STS_CAUSE 0 0 0 (by decide)).trans
    (s.withPower.volatileReset_cause false 1)

/-- What the power-good point leaves stands when the outputs follow. -/
theorem State.StartsUp.wires {s t : State} {boot : BootEnv} (h : s.StartsUp boot t) : s.StartsUp boot t.wires where
  powered := by rw [State.wires_glb]; exact h.powered
  pwrFail := by rw [State.wires_glb]; exact h.pwrFail
  boot := by rw [State.wires_glb]; exact h.boot
  frameNo := by rw [State.wires_frameNo]; exact h.frameNo
  stage := (t.get_wires _ _ (by decide)).trans h.stage
  cause := (t.get_wires _ _ (by decide)).trans h.cause
  trv := by rw [State.wires_trv]; exact h.trv
  sessions := by rw [State.wires_sessions]; exact h.sessions
  datum := by rw [State.wires_ks]; exact h.datum
  otp := by rw [State.wires_otp]; exact h.otp
  copies := by rw [State.wires_lc]; exact h.copies

theorem State.powerUp_startsUp {s : State} (boot : BootEnv) (h : s.glb.powered = false) : s.StartsUp boot (s.powerUp boot) := by
  rw [State.powerUp_eq boot h]
  constructor
  case stage => exact (State.get_pinsShown _ (by decide)).trans (s.powerOn_stage boot)
  case cause => exact (State.get_pinsShown _ (by decide)).trans (s.powerOn_cause boot)
  all_goals rw [State.pinsShown_rest]
  case boot => rfl
  case powered => exact s.withPower.volatileReset_powered false 1
  case pwrFail => exact s.withPower.volatileReset_pwrFail false 1
  case frameNo => exact s.withPower.volatileReset_frameNo 1
  case trv => exact s.withPower.volatileReset_trv false 1
  case sessions => exact s.withPower.volatileReset_sessions false 1
  case datum => exact s.withPower.volatileReset_datum false 1
  case otp => exact s.withPower.volatileReset_otp false 1
  case copies => exact s.withPower.volatileReset_copies false 1

/-- Main power falls away: the volatile state is lost, the battery domain, OTP, MRAM and flash stay. -/
structure State.FallsAway (s t : State) : Prop where
  powered : t.glb.powered = false
  trv : t.trv = { nextId := s.trv.nextId }
  sessions : t.sessions = []
  pending : t.fb.pending = []
  buffer : t.fb.buffer = []
  audit : t.fb.audit = s.fb.audit
  datum : t.ks.datum = s.ks.datum
  otp : t.otp = s.otp
  flash : t.upd.flash = s.upd.flash
  uvArmed : t.tmp.uvArmed = false

/-- What the loss of main power leaves stands when the outputs follow. -/
theorem State.FallsAway.wires {s t : State} (h : s.FallsAway t) : s.FallsAway t.wires where
  powered := by rw [State.wires_glb]; exact h.powered
  trv := by rw [State.wires_trv]; exact h.trv
  sessions := by rw [State.wires_sessions]; exact h.sessions
  pending := by rw [State.wires_fb]; exact h.pending
  buffer := by rw [State.wires_fb]; exact h.buffer
  audit := by rw [State.wires_fb]; exact h.audit
  datum := by rw [State.wires_ks]; exact h.datum
  otp := by rw [State.wires_otp]; exact h.otp
  flash := by rw [State.wires_upd]; exact h.flash
  uvArmed := by rw [State.wires_tmp]; exact h.uvArmed

theorem State.mainPowerLoss_fallsAway {s : State} (h : s.glb.powered = true) : s.FallsAway s.mainPowerLoss := by
  rw [State.mainPowerLoss, if_neg (by rw [h]; decide)]
  exact {
    powered := rfl
    trv := State.volatileReset_trv ..
    sessions := State.volatileReset_sessions ..
    pending := rfl
    buffer := rfl
    audit := State.volatileReset_audit ..
    datum := State.volatileReset_datum ..
    otp := State.volatileReset_otp ..
    flash := State.volatileReset_flash ..
    uvArmed := rfl }

/-! ## PWR_FAIL_N (R203, R268, R307, R391) -/

theorem State.pwrFall_of_rails {s : State} (hp : s.glb.powered = true) (hf : s.glb.pwrFail = false) :
    s.pwrFall =
      ((({ s with glb := { s.glb with pwrFail := true }, tmp := { s.tmp with uvArmed := false } } : State).set
        R.MGT_PIN_STS_PWR_FAIL_N 0 0).flush 1).nodesWritten :=
  if_neg (by simp [hp, hf])

theorem State.pwrFall_of_failing {s : State} (hf : s.glb.pwrFail = true) : s.pwrFall = s := if_pos (Or.inr hf)

theorem State.pwrRise_of_rails {s : State} (hf : s.glb.pwrFail = false) : s.pwrRise = s := if_neg (by simp [hf])

theorem State.pwrRise_of_failing {s : State} (hp : s.glb.powered = true) (hf : s.glb.pwrFail = true)
    (hrst : s.glb.rst = none) :
    s.pwrRise =
      { s.set R.MGT_PIN_STS_PWR_FAIL_N 0 1 with glb := { s.glb with pwrFail := false, rst := some ⟨false, 6, false⟩ } } :=
  (if_pos ⟨hp, hf⟩).trans
    (State.askReset_of_none (s := ({ s with glb := { s.glb with pwrFail := false } } : State).set R.MGT_PIN_STS_PWR_FAIL_N 0 1)
      hrst false 6 false)

/-! ## PERST (R38, R372) -/

/-- The pin of a port's PERST. -/
def perstField (port : Nat) : Field := if port = 0 then R.MGT_PIN_STS_PERST_A_N else R.MGT_PIN_STS_PERST_B_N

/-- The pin of the other port's PERST. -/
def otherPerstField (port : Nat) : Field := if port = 0 then R.MGT_PIN_STS_PERST_B_N else R.MGT_PIN_STS_PERST_A_N

theorem State.perst_rises {s : State} (p : Nat) (hp : s.glb.powered = true) : s.perst p true = s.set (perstField p) 0 1 := by
  simp only [State.perst, hp, Bool.not_true, Bool.and_false, Bool.false_eq_true, if_false]
  rfl

/-- PERST of a port is low: its link is shown as lost. -/
def State.perstLow (s : State) (port : Nat) : State := (s.set (perstField port) 0 0).linkDown port

theorem perstField_key_ne_mode (port : Nat) : (perstField port).key 0 ≠ R.HIF_PORT_CTL_MODE.key 0 := by
  unfold perstField; split <;> decide

theorem State.perstLow_mode (s : State) (port : Nat) :
    (s.perstLow port).get R.HIF_PORT_CTL_MODE = s.get R.HIF_PORT_CTL_MODE :=
  (State.linkDown_mode _ port).trans (State.get_set_other _ _ _ _ _ _ (perstField_key_ne_mode port))

theorem State.perstLow_other (s : State) (port : Nat) :
    (s.perstLow port).on (otherPerstField port) = s.on (otherPerstField port) := by
  have h : (linkField port).key 0 ≠ (otherPerstField port).key 0 ∧ (rateField port).key 0 ≠ (otherPerstField port).key 0 ∧
      (perstField port).key 0 ≠ (otherPerstField port).key 0 := by
    by_cases hp : port = 0 <;> simp only [linkField, rateField, perstField, otherPerstField, hp, if_true, if_false] <;> decide
  obtain ⟨hl, hr, hpin⟩ := h
  rw [State.on, State.perstLow, State.linkDown_get _ hl hr, State.get_set_other _ _ _ _ _ _ hpin, State.on]

/-- PERST of a port in use falls: link loss in joined mode while the other port's pin is high, else a warm reset. -/
theorem State.perst_falls {s : State} {p : Nat} (hp : s.glb.powered = true) (hpin : s.on (perstField p) = true)
    (hres : s.portInReset p = false) :
    s.perst p false =
      if s.get R.HIF_PORT_CTL_MODE = 2 ∧ s.on (otherPerstField p) = true then (s.perstLow p).linkLoss p 8
      else (s.perstLow p).askReset true 8 false := by
  have hres' : (s.set (perstField p) 0 0).portInReset p = false := by
    rw [← hres]
    simp only [State.portInReset, State.get_set_other _ _ _ _ _ _ (perstField_key_ne_mode p)]
  have hpow : ¬(!s.glb.powered) = true := by rw [hp]; decide
  have hin : ¬((!(s.on (perstField p) && !false)) = true ∨ (s.set (perstField p) 0 0).portInReset p = true) := by
    rw [hpin, hres']; decide
  rw [← s.perstLow_mode p, ← s.perstLow_other p]
  exact (if_neg hpow).trans (if_neg hin)

/-! ## SERVICE_READY (R371) -/

theorem State.serviceReady_of_ready {s : State} (hr : s.readyNow = true) (hs : s.on R.GLB_STS_SERVICE_READY = false) :
    s.serviceReady = (((s.set R.TRV_STS_READY 0 1).set R.GLB_STS_SERVICE_READY 0 1).brownHold).bootRecord :=
  if_pos (by rw [hr, hs]; rfl)

/-- The last condition of R371 is missing, or SERVICE_READY is shown already. -/
theorem State.not_readyNow_or_shown {s : State} (h : s.readyNow = false ∨ s.on R.GLB_STS_SERVICE_READY = true) :
    (s.readyNow && !s.on R.GLB_STS_SERVICE_READY) = false := by
  rcases h with h | h <;> simp [h]

/-! ## Power, PERST and SERVICE_READY -/

/-- Settles O54: the power-good point, PWR_FAIL_N, the loss of main power, PERST, and SERVICE_READY. -/
theorem powerAndService : Obligations.PowerAndService := by
  unfold Obligations.PowerAndService
  refine fun s boot portB => ⟨fun hoff => ?off, fun hon => ⟨?up, ?loss, fun hf => ?falls, fun hf => ?rises, ?perstHigh,
    fun hpin hres hrst => ?perstLow⟩, fun hr hs => ?ready, fun hno => ?notReady⟩
  case off =>
    obtain ⟨hloss, hfall, hrise, hperst⟩ := State.power_events_of_unpowered hoff
    have h := (State.powerUp_startsUp boot hoff).wires
    exact ⟨⟨_, rfl, h.powered, h.pwrFail, h.frameNo, h.boot, h.stage, h.cause, h.trv, h.sessions, h.datum, h.otp, h.copies⟩,
      congrArg ok hloss, congrArg ok hfall, congrArg ok hrise, fun level => congrArg ok (hperst _ level)⟩
  case up => exact congrArg ok (State.powerUp_of_powered boot hon)
  case loss =>
    have h := (State.mainPowerLoss_fallsAway hon).wires
    exact ⟨_, rfl, h.powered, h.trv, h.sessions, h.pending, h.buffer, h.audit, h.datum, h.otp, h.flash, h.uvArmed⟩
  case falls => exact ⟨congrArg ok (State.pwrFall_of_rails hon hf), congrArg ok (State.pwrRise_of_rails hf)⟩
  case rises =>
    refine ⟨congrArg ok (State.pwrFall_of_failing hf),
      fun hrst => ⟨_, congrArg ok (State.pwrRise_of_failing hon hf hrst), ?_, ?_, ?_, ?_, ?_⟩⟩
    · rw [State.wires_glb]
    · rw [State.wires_glb]
    · rw [State.get_wires _ _ _ (by decide)]
      exact State.get_set_self s R.MGT_PIN_STS_PWR_FAIL_N 0 1 (by decide)
    · rw [State.wires_trv, State.set_trv]
    · rw [State.wires_ks, State.set_ks]
  case perstHigh => exact congrArg ok (State.perst_rises _ hon)
  case perstLow =>
    have h := State.perst_falls hon hpin hres
    refine ⟨fun hm hother => ?_, fun halone => ?_⟩
    · rw [if_pos ⟨hm, hother⟩] at h
      exact congrArg ok h
    · rw [if_neg (fun ⟨hm, hother⟩ => halone.elim (fun h => h hm) (fun h => Bool.false_ne_true (h.symm.trans hother)))] at h
      exact congrArg ok (h.trans (State.askReset_of_none (s := s.perstLow (portOf portB)) hrst true 8 false))
  case ready =>
    have hdue : (s.readyNow && !s.on R.GLB_STS_SERVICE_READY) = true := by rw [hr, hs]; rfl
    exact ⟨State.serviceReady_of_ready hr hs, congrArg (fun due => ok (s.mark .serviceReady due)) hdue⟩
  case notReady =>
    have hdue := State.not_readyNow_or_shown hno
    refine ⟨if_neg (Bool.eq_false_iff.1 hdue), ?_⟩
    exact congrArg (fun due => ok (s.mark .serviceReady due)) hdue

end Sys2Proof.Machine

namespace Sys2Proof.Machine

/-! ## Held work (R73, R78, R80) -/

/-- What a verdict of checks 1 to 9 makes of a released command: NOT_ADMITTED leaves it in place 64 times (R78). -/
def State.takeVerdict (s : State) (r : Cmd) : Verdict → State
  | .refuse code aux => s.refuseCmd r code aux
  | .wait aux => if 64 ≤ r.tries then s.refuseCmd r ccNotAdmitted aux else s.putCmd { r with tries := r.tries + 1 }
  | .accept cost k => s.admitCmd r cost k

/-- While an update or a fatal event holds admission, a released command stays as it is (R78). -/
theorem State.reprice_of_admission_held {s : State} {id : Nat} {r : Cmd} (hr : s.cmd? id = some r)
    (h : s.on R.TRV_STS_UPDATE = true ∨ s.on R.TRV_STS_FATAL = true) : s.reprice id = s := by
  simp only [State.reprice, hr]
  exact if_pos (Or.inr h)

/-- Event 4 acts on the verdict of a released command that has no continuation entry to miss (R57, R78). -/
theorem State.reprice_of_released {s : State} {id : Nat} {r : Cmd} (hr : s.cmd? id = some r) (hst : r.st = .released)
    (hu : s.on R.TRV_STS_UPDATE = false) (hf : s.on R.TRV_STS_FATAL = false)
    (hcont : (Desc.continue_ r.desc && !s.contOk r.slice r.desc) = false) :
    s.reprice id = s.takeVerdict r (s.decide_ r.slice r.desc true) := by
  have hopen : ¬(r.st ≠ .released ∨ s.on R.TRV_STS_UPDATE = true ∨ s.on R.TRV_STS_FATAL = true) := by simp [hst, hu, hf]
  simp only [State.reprice, hr, if_neg hopen, hcont, Bool.false_eq_true, if_false]
  cases s.decide_ r.slice r.desc true with
  | refuse code aux => rfl
  | wait aux => simp only [State.takeVerdict, ge_iff_le, Nat.reduceLeDiff]
  | accept cost k => rfl

/-- HELD_RELEASE releases for the next boundary what is ready for it, and nothing else (R78). -/
theorem State.releaseOne_of_held {s : State} {id : Nat} {c : Cmd} (hc : s.cmd? id = some c) (hst : c.st = .held) :
    s.releaseOne id =
      if c.dep = 0 ∧ c.release ≤ s.frameNo + 1 then s.putCmd { c with st := .released, release := s.frameNo + 1 } else s := by
  simp only [State.releaseOne, hc, hst, true_and]

/-- HOLD_EXPIRE refuses what has waited 4,096 frames for its predecessors, and nothing else (R80). -/
theorem State.expireOne_of_held {s : State} {id : Nat} {c : Cmd} (hc : s.cmd? id = some c) (hst : c.st = .held) :
    s.expireOne id =
      if c.dep ≠ 0 ∧ c.waitFrom + 4096 ≤ s.frameNo then
        (s.refuseCmd c ccNotAdmitted 0).trvErr R.TRV_ERR_STS_HOLD_EXPIRE
      else s := by
  simp only [State.expireOne, hc, hst, true_and]

/-- Settles O27: what event 4 decides of a released command, then HELD_RELEASE and HOLD_EXPIRE of a held one. -/
theorem heldWork : Obligations.HeldWork := by
  unfold Obligations.HeldWork
  refine ⟨fun s id r hr hst => ⟨State.reprice_of_admission_held hr, fun hu hf hcont => ?decided⟩, fun s id c hc hst => ?held⟩
  case decided =>
    have h := State.reprice_of_released hr hst hu hf (by rw [hcont, Bool.false_and])
    refine ⟨fun cost k hv => ?_, fun code aux hv => ?_, fun aux hv => ⟨fun hlt => ?_, fun hge => ?_⟩⟩ <;> rw [h, hv]
    · rfl
    · rfl
    · exact if_neg (Nat.not_le.2 hlt)
    · exact if_pos hge
  case held =>
    have hrel := State.releaseOne_of_held hc hst
    have hexp := State.expireOne_of_held hc hst
    refine ⟨fun hd hle => ?_, fun hno => ?_, fun hd hle => ?_, fun hno => ?_⟩
    · exact congrArg ok (hrel.trans (if_pos ⟨hd, hle⟩))
    · exact congrArg ok (hrel.trans (if_neg (by omega)))
    · exact congrArg ok (hexp.trans (if_pos ⟨hd, hle⟩))
    · exact congrArg ok (hexp.trans (if_neg (by omega)))

end Sys2Proof.Machine

namespace Sys2Proof.Machine

/-! ## The answer of a last step (R92, R106, R141) -/

/-- A row other than those of PK_KEYGEN stands in the list with CONTINUE and without it. -/
theorem mem_engineRows_of_tail {r : EngineRow} (h : r ∈ (engineRows false).tail) (b : Bool) : r ∈ engineRows b := by
  rw [engineRows_eq_cons]
  exact List.mem_cons_of_mem _ h

/-- The state and the entry hold what the work of a step made of the code, the output and the key store. -/
structure Answers (w : Cmd × State) (t : State) (y : Cmd) : Prop where
  code : y.code = w.1.code
  outs : y.outs = w.1.outs
  ks : t.ks = w.2.ks

theorem Leaves.mono {o : Host.Outcome State Fault Refusal} {id : Nat} {P Q : State → Cmd → Prop} (h : Leaves o id P)
    (hPQ : ∀ t y, P t y → Q t y) : Leaves o id Q := by
  obtain ⟨t, y, ho, hy, hp⟩ := h
  exact ⟨t, y, ho, hy, hPQ t y hp⟩

/-- A last step whose opcode drew nothing ahead answers what the opcode's work gives. -/
theorem State.lastStep_answers {s : State} {id : Nat} {c : Cmd} {r : EngineRow} (hr : r ∈ (engineRows false).tail)
    (hpre : r.spec.pre c = 0) (h : s.lastStep id r.op r.spec c) :
    Leaves (exec (r.cmd id false) s) id (Answers (r.spec.work s.energyDrawn c)) := by
  obtain ⟨hc, hdue, hruns, hsteady, hok, hlast, hcode⟩ := h
  have hid := State.cmd?_id hc
  subst hid
  have hexec := exec_of_due (mem_engineRows_of_tail hr _) hc hdue false
  rw [errOf_false, State.stepRun_of_steady hruns hsteady] at hexec
  obtain ⟨y, hy, ht⟩ := State.goodStep_runsTo (s := s.energyDrawn) (engineRows_keeps (mem_engineRows_of_tail hr false)) hc
    (s.runEnergy r.spec c)
  have hnow : s.energyDrawn.worksNow r.spec c := ⟨hcode, hok, by simp [OpSpec.worksIn, hlast]⟩
  have hdraw : s.energyDrawn.drawAhead (r.spec.pre c) c = (c, s.energyDrawn) := if_neg (fun hd => hd.2 hpre)
  have hwork : s.energyDrawn.workResult r.spec c = r.spec.work s.energyDrawn c := by rw [State.workResult, hdraw]
  obtain ⟨hcode', houts'⟩ := hy.worked hnow
  refine ⟨_, y, hexec, (ht.entry.rowEnd c).self, hwork ▸ hcode', hwork ▸ houts', ?_⟩
  rw [State.rowEnd_ks, ht.ks, State.afterWork_of_works hnow, hwork]

theorem State.lastStep_ok {s : State} {id op : Nat} {o : OpSpec} {c : Cmd} (h : s.lastStep id op o c) : c.code = ccOk := by
  obtain ⟨-, -, -, -, hok, -⟩ := h
  exact hok

/-- Output that fits its buffer is written, and the code stays (R92). -/
theorem Cmd.emit_of_fits {c : Cmd} {b off : Nat} {m : Bytes} (h : off + m.length ≤ Desc.bufLen c.desc b) :
    c.emit b off m = { c with outs := c.outs ++ [(b, off, m)] } :=
  if_neg (Nat.not_lt.2 h)

theorem Cmd.fail_of_ok {c : Cmd} (h : c.code = ccOk) (code : Nat) : c.fail code = { c with code := code, outs := [] } :=
  if_pos h

/-- The work of a comparison: a match changes nothing, and else the command fails. -/
def compared (same : Prop) [Decidable same] (s : State) (c : Cmd) : Cmd × State :=
  if same then (c, s) else (c.fail ccSigInvalid, s)

/-- A last step that compares answers OK, its output as it was, or SIG_INVALID. -/
theorem State.lastStep_compares {s : State} {id : Nat} {c : Cmd} {r : EngineRow} (hr : r ∈ (engineRows false).tail)
    (hpre : r.spec.pre c = 0) (same : Prop) [Decidable same] (hwork : r.spec.work s.energyDrawn c = compared same s.energyDrawn c)
    (h : s.lastStep id r.op r.spec c) :
    Leaves (exec (r.cmd id false) s) id (fun t y =>
      (same → y.code = ccOk) ∧ (¬same → y.code = ccSigInvalid) ∧ (same → y.outs = c.outs) ∧ t.ks = s.ks) := by
  have hok := State.lastStep_ok h
  refine (State.lastStep_answers hr hpre h).mono fun t y hy => ?_
  rw [hwork, compared] at hy
  by_cases hsame : same
  · rw [if_pos hsame] at hy
    exact ⟨fun _ => hy.code.trans hok, absurd hsame, fun _ => hy.outs, hy.ks⟩
  · rw [if_neg hsame, Cmd.fail_of_ok hok] at hy
    exact ⟨fun hs => absurd hs hsame, fun _ => hy.code, fun hs => absurd hs hsame, hy.ks⟩

/-- The work gives the output `m` in buffer 1, and leaves the keys. -/
def Emits (w : Cmd × State) (s : State) (c : Cmd) (m : Bytes) : Prop := Answers (c.emit 1 0 m, s) w.2 w.1

/-- A last step whose work is one output that fits answers OK and adds it. -/
theorem State.lastStep_writes {s : State} {id : Nat} {c : Cmd} {r : EngineRow} (hr : r ∈ (engineRows false).tail)
    (hpre : r.spec.pre c = 0) {m : Bytes} (hwork : Emits (r.spec.work s.energyDrawn c) s c m)
    (hfits : m.length ≤ Desc.bufLen c.desc 1) (h : s.lastStep id r.op r.spec c) :
    Leaves (exec (r.cmd id false) s) id (fun t y => y.code = ccOk ∧ y.outs = c.outs ++ [(1, 0, m)] ∧ t.ks = s.ks) := by
  have hok := State.lastStep_ok h
  refine (State.lastStep_answers hr hpre h).mono fun t y hy => ?_
  rw [Emits, Cmd.emit_of_fits (by rwa [Nat.zero_add])] at hwork
  exact ⟨hy.code.trans (hwork.code.trans hok), hy.outs.trans hwork.outs, hy.ks.trans hwork.ks⟩

theorem toLE_length (n v : Nat) : (toLE n v).length = n := by
  induction n generalizing v with
  | zero => rfl
  | succ n ih => exact congrArg Nat.succ (ih _)

/-- A CMAC under AES is one block. -/
theorem cmacOf_aes256_length (key msg : Bytes) : (cmacOf 0x12 key msg).length = 16 :=
  fitTo_length 16 _

/-! ## The revocation list (R199, R202) -/

theorem State.ksErrSet_ks (s : State) (f : Field) (slice leaf : Nat) : (s.ksErrSet f slice leaf).ks = s.ks := by
  unfold State.ksErrSet
  rw [State.event_ks]
  split <;> rfl

theorem State.ksFault_ks (s : State) (f : Field) (slice leaf : Nat) : (s.ksFault f slice leaf).ks = s.ks :=
  (State.LogStep.ofRecord ..).ks.trans (s.ksErrSet_ks f slice leaf)

/-- To learn a partner's handle takes a free value at most. -/
theorem State.partner_ks (s : State) (n : Nat) (k : KeyRec) : (s.partner n k).2.ks = s.ks := by
  unfold State.partner
  dsimp only
  repeat' split
  all_goals rfl

theorem State.fixNodes_revoked (s : State) (n : Nat) (moved : Bool) : (s.fixNodes n moved).ks.revoked = s.ks.revoked := by
  simp only [State.fixNodes]
  split
  · rfl
  · rw [State.ksFault_ks]; rfl

theorem State.readLeaf_revoked (s : State) (n : Nat) : (s.readLeaf n).2.ks.revoked = s.ks.revoked := by
  unfold State.readLeaf
  split
  · rfl
  · split
    · rw [State.fixNodes_revoked, State.ksFault_ks]
    · split
      · rw [State.fixNodes_revoked]
      · rw [State.fixNodes_revoked, State.ksFault_ks]

theorem State.needLeaf_revoked (s : State) (k : LeafKind) (owner : Nat) : (s.needLeaf k owner).2.ks.revoked = s.ks.revoked := by
  unfold State.needLeaf
  split
  · rfl
  · exact s.readLeaf_revoked _

theorem State.dropLeaf_revoked (s : State) (k : LeafKind) (owner : Nat) : (s.dropLeaf k owner).ks.revoked = s.ks.revoked := by
  simp only [State.dropLeaf]
  split <;> rfl

theorem State.dropKeyLeaves_revoked (s : State) (h : Nat) : (s.dropKeyLeaves h).ks.revoked = s.ks.revoked := by
  simp only [State.dropKeyLeaves, State.dropLeaf_revoked]

theorem State.abandon_revoked (s : State) (w : Window) (gone : Bool) : (s.abandon w gone).ks.revoked = s.ks.revoked := by
  simp only [State.abandon]
  split
  · rfl
  · split
    · rw [(State.LogStep.ofRecord ..).ks]
    · rfl

theorem State.abandonKey_revoked (s : State) (h : Nat) (gone : Bool) : (s.abandonKey h gone).ks.revoked = s.ks.revoked :=
  List.foldlRecOn (motive := fun (t : State) => t.ks.revoked = s.ks.revoked) _ _ rfl
    (fun t ht w _ => (t.abandon_revoked w gone).trans ht)

/-- The windows and the leaves of the keys of a list go. -/
def State.dropKeys (s : State) (hs : List Nat) : State :=
  hs.foldl (fun t h => (t.abandonKey h true).dropKeyLeaves h) s

theorem State.dropKeys_revoked (s : State) (hs : List Nat) : (s.dropKeys hs).ks.revoked = s.ks.revoked :=
  List.foldlRecOn (motive := fun (t : State) => t.ks.revoked = s.ks.revoked) _ _ rfl
    (fun t ht h _ => by rw [State.dropKeyLeaves_revoked, State.abandonKey_revoked, ht])

/-- The handles that the invalidation of a key puts on the list: its own and its partner's (R199). -/
def State.revokes (s : State) (n : Nat) (k : KeyRec) : List Nat := k.handle :: (s.partner n k).1.toList

/-- The domain's epoch read, once the partner's handle is known. -/
def State.epochRead (s : State) (n : Nat) (k : KeyRec) : Bool × State := (s.partner n k).2.needLeaf .epoch n

theorem State.epochRead_revoked (s : State) (n : Nat) (k : KeyRec) : (s.epochRead n k).2.ks.revoked = s.ks.revoked :=
  (State.needLeaf_revoked ..).trans (congrArg Ks.revoked (s.partner_ks n k))

/-- The work of KEY_INVALIDATE on a persistent key whose epoch can be read and for which the list has room. -/
theorem workKeyInvalidate_of_persistent {s : State} {c : Cmd} {k : KeyRec} (hk : c.key0 = some k) (hpers : hEphem k.handle = false)
    (hread : (s.epochRead c.slice k).1 = true)
    (hroom : s.ks.revoked.length + (s.revokes c.slice k).length ≤ 16384) :
    (workKeyInvalidate s c).1 = c ∧ (workKeyInvalidate s c).2.ks.revoked =
      s.ks.revoked ++ (s.revokes c.slice k).map (fun h => (h, (s.epochRead c.slice k).2.epochOf c.slice)) := by
  rw [← s.epochRead_revoked c.slice k] at hroom ⊢
  have hfull := Nat.not_lt.2 hroom
  unfold State.epochRead State.revokes at *
  simp only [workKeyInvalidate, hk, hpers, hread, Bool.not_true, Bool.false_eq_true, if_false, Bool.not_false, true_and,
    gt_iff_lt, if_neg hfull]
  exact State.dropKeys_revoked _ _

/-- The last step of KEY_INVALIDATE on such a key answers OK, its output as it was. -/
theorem State.lastStep_revokes {s : State} {id : Nat} {c : Cmd} {k : KeyRec} (hk : c.key0 = some k) (hpers : hEphem k.handle = false)
    (hread : (s.energyDrawn.epochRead c.slice k).1 = true)
    (hroom : s.ks.revoked.length + (s.energyDrawn.revokes c.slice k).length ≤ 16384)
    (h : s.lastStep id 0x0403 opKeyInvalidate c) :
    Leaves (exec (.keyInvalidate id false) s) id (fun t y => y.code = ccOk ∧ y.outs = c.outs ∧ t.ks.revoked =
      s.ks.revoked ++ (s.energyDrawn.revokes c.slice k).map (fun h => (h, (s.energyDrawn.epochRead c.slice k).2.epochOf c.slice))) := by
  obtain ⟨hcmd, hlist⟩ := workKeyInvalidate_of_persistent (s := s.energyDrawn) hk hpers hread hroom
  refine (State.lastStep_answers (r := ⟨.keyInvalidate, 0x0403, opKeyInvalidate⟩) (by simp [engineRows]) rfl h).mono
    fun t y hy => ⟨?_, ?_, ?_⟩
  · exact hy.code.trans ((congrArg Cmd.code hcmd).trans (State.lastStep_ok h))
  · exact hy.outs.trans (congrArg Cmd.outs hcmd)
  · exact (congrArg Ks.revoked hy.ks).trans hlist

/-! ## The answers of the last steps -/

/-- Settles O25: the MACs compared, the MACs, digest and seal written, and the revocation of a persistent key. -/
theorem engineAnswers : Obligations.EngineAnswers := by
  unfold Obligations.EngineAnswers
  intro s id c d answer writes
  refine ⟨fun h => ?macVerify, fun h => ?symMacVerify, fun h => ?hmacVerify, fun h hlen => ?macGenerate,
    fun h hlen => ?symMacGenerate, fun h hlen => ?hmacGenerate, fun h hlen => ?hash, fun h hlen => ?wagerSeal,
    fun k hk h hpers hread hroom => ?keyInvalidate⟩
  case macVerify =>
    exact State.lastStep_compares (r := ⟨.macVerify, 0x0131, opMacVerify⟩) (by simp [engineRows]) rfl _ rfl h
  case symMacVerify =>
    exact State.lastStep_compares (r := ⟨.symMacVerify, 0x0209, opSymMacVerify⟩) (by simp [engineRows]) rfl _ rfl h
  case hmacVerify =>
    exact State.lastStep_compares (r := ⟨.hmacVerify, 0x0289, opHmacVerify⟩) (by simp [engineRows]) rfl _ rfl h
  case macGenerate =>
    exact State.lastStep_writes (r := ⟨.macGenerate, 0x0130, opMacGenerate⟩) (by simp [engineRows]) rfl ⟨rfl, rfl, rfl⟩ hlen h
  case symMacGenerate =>
    exact State.lastStep_writes (r := ⟨.symMacGenerate, 0x0208, opSymMacGenerate⟩) (by simp [engineRows]) rfl
      ⟨rfl, rfl, rfl⟩ hlen h
  case hmacGenerate =>
    exact State.lastStep_writes (r := ⟨.hmacGenerate, 0x0288, opHmacGenerate⟩) (by simp [engineRows]) rfl ⟨rfl, rfl, rfl⟩ hlen h
  case hash =>
    have hdigest : (hashOf (d.pb 104) (digestLen (d.pb 104) (d.paramN 106 2)) (c.chunk 1)).length ≤ Desc.bufLen c.desc 1 :=
      Nat.le_trans (Nat.le_of_eq (fitTo_length _ _)) hlen
    exact State.lastStep_writes (r := ⟨.hashOne, 0x0280, opHash⟩) (by simp [engineRows]) rfl ⟨rfl, rfl, rfl⟩ hdigest h
  case wagerSeal =>
    have hseal : (cmacOf 0x12 c.mat0 (c.input 0 ++ (toLE 8 s.frameNo ++ toLE 8 c.use0)) ++
        (toLE 8 s.frameNo ++ toLE 8 c.use0)).length = 32 := by
      simp only [List.length_append, cmacOf_aes256_length, toLE_length]
    exact State.lastStep_writes (r := ⟨.wagerSeal, 0x0138, opWagerSeal⟩) (by simp [engineRows]) rfl ⟨rfl, rfl, rfl⟩
      (Nat.le_trans (Nat.le_of_eq hseal) hlen) h
  case keyInvalidate => exact State.lastStep_revokes hk hpers hread hroom h

end Sys2Proof.Machine

namespace Sys2Proof.Machine

/-! ## Registers whose write does more than set their fields (R11, R14) -/

/-- A register lies at the offset of each of its elements. -/
theorem regAt_isSome_of_mem {r : Reg} {i off : Nat} (hoff : off = r.off + r.stride * i) (hr : r ∈ regTabOf (off / 0x10000))
    (hs : 0 < r.stride) (hi : i < r.count) : (regAt off).isSome = true := by
  refine List.findSome?_isSome_iff.2 ⟨r, hr, ?_⟩
  subst hoff
  split
  next => rfl
  next =>
    rw [if_pos]
    · rfl
    · rw [Nat.add_sub_cancel_left, Nat.mul_mod_right, Nat.mul_div_cancel_left i hs]
      exact ⟨Nat.ne_of_gt hs, Nat.le_add_right .., rfl, hi⟩

/-- A register lies at the offset, outside the blocks of the guards, and its write is taken on no terms but its block's (R238, R263,
R287, R374). -/
def ordinary (off : Nat) : Bool :=
  (regAt off).isSome && !guardOwned off && off != 0x000030 && off != 0x0A0008 && off != 0x080008 && off != 0x0C0008

/-- What a register's write does beyond its fields, where its block takes the write. -/
theorem State.regWrite_special {s t : State} {src : Src} {off word : Nat} (hoff : ordinary off = true) (hw : s.writable off = true)
    (hsp : s.specialWrite src off word = some t) : s.regWrite src off word = t := by
  simp only [ordinary, Bool.and_eq_true, Bool.not_eq_true', bne_iff_ne] at hoff
  obtain ⟨⟨⟨⟨⟨hreg, hown⟩, hrst⟩, hlc⟩, hdatum⟩, -⟩ := hoff
  have htaken : s.writeReg src off word = t := by simp [State.writeReg, hown, hsp]
  simp [State.regWrite, Option.isNone_eq_false_iff.2 hreg, State.gated_of_writable hw, hrst, hlc, State.halt_of_writable hw,
    hdatum, State.ifWritable_true hw, htaken]

/-- A write that does nothing where it is taken does nothing where it is not, but for a block without its clock. -/
theorem State.regWrite_without_effect {s : State} {src : Src} {off word : Nat} (hoff : ordinary off = true)
    (hg : s.gated off = false) (hsp : s.specialWrite src off word = some s) : s.regWrite src off word = s := by
  by_cases hw : s.writable off = true
  · exact State.regWrite_special hoff hw hsp
  · simp only [ordinary, Bool.and_eq_true, bne_iff_ne] at hoff
    obtain ⟨⟨⟨⟨-, hrst⟩, hlc⟩, hdatum⟩, hevt⟩ := hoff
    exact State.regWrite_of_not_writable src word hg (Bool.eq_false_iff.2 hw) hrst hdatum hlc hevt

/-- Tamp and the privileged cores are the sources that load and lock a store, and switch the clock muxes. -/
theorem mayLoad_iff (src : Src) : mayLoad src = true ↔ src = .corePriv ∨ src = .tamp := by
  simp [mayLoad]

/-! ## Stores (R90, R153) -/

theorem State.storeData_of_unlocked {s : State} {i : StoreId} {src : Src} (hsrc : src = .corePriv ∨ src = .tamp)
    (hl : s.on i.lock = false) (v : Nat) : s.storeData i src v = s.storeWord i v :=
  if_pos ⟨(mayLoad_iff src).2 hsrc, by rw [hl]; rfl⟩

theorem State.storeData_of_other {src : Src} (hcore : src ≠ .corePriv) (htamp : src ≠ .tamp) (s : State) (i : StoreId) (v : Nat) :
    s.storeData i src v = s :=
  if_neg fun ⟨h, _⟩ => ((mayLoad_iff src).1 h).elim hcore htamp

theorem State.storeLock_of_other {src : Src} (hcore : src ≠ .corePriv) (htamp : src ≠ .tamp) (s : State) (i : StoreId) :
    s.storeLock i src = s :=
  if_neg fun ⟨h, _⟩ => ((mayLoad_iff src).1 h).elim hcore htamp

theorem State.store_set (s : State) (f : Field) (k v : Nat) (i : StoreId) : (s.set f k v).store i = s.store i := by
  cases i <;> rfl

/-- The store shown as locked: its digest, and the version of its header. -/
def State.lockShown (s : State) (i : StoreId) : State :=
  let v := Config.storeVersion (s.store i).copyA
  (((s.set i.lock 0 1).setDigest i.digest (hashOf 0x03 48 ((s.store i).bytes i.words))).set i.major 0 (v / 65536 % 65536)).set
    i.minor 0 (v % 65536)

theorem State.storeLock_of_unlocked {s : State} {i : StoreId} {src : Src} (hsrc : src = .corePriv ∨ src = .tamp)
    (hl : s.on i.lock = false) : s.storeLock i src = s.lockShown i := by
  rw [State.storeLock, if_pos ⟨(mayLoad_iff src).2 hsrc, by rw [hl]; rfl⟩]
  simp only [State.store_set, State.lockShown]

/-- Where a store's words are written, and where it is locked. -/
def StoreId.dataAt : StoreId → Nat
  | .recipe => 0x030010 | .pkRoutine => 0x050010 | .luRoutine => 0x060010
def StoreId.ctlAt : StoreId → Nat
  | .recipe => 0x030000 | .pkRoutine => 0x050000 | .luRoutine => 0x060000

theorem StoreId.ordinary_dataAt (i : StoreId) : ordinary i.dataAt = true := by cases i <;> decide
theorem StoreId.ordinary_ctlAt (i : StoreId) : ordinary i.ctlAt = true := by cases i <;> decide

theorem State.specialWrite_data (s : State) (src : Src) (i : StoreId) (v : Nat) :
    s.specialWrite src i.dataAt v = some (s.storeData i src v) := by cases i <;> rfl

theorem State.specialWrite_lock (s : State) (src : Src) (i : StoreId) :
    s.specialWrite src i.ctlAt 1 = some (s.storeLock i src) := by cases i <;> rfl

/-- A store's data register lies in the block of its control register, behind one clock gate. -/
theorem State.gated_dataAt (s : State) (i : StoreId) : s.gated i.dataAt = s.gated i.ctlAt := by cases i <;> rfl

/-- The rows that load and lock a store. -/
def StoreId.dataRow (i : StoreId) (src : Src) (v : Nat) : Instr :=
  match i with
  | .recipe => .recipeDataWrite src v | .pkRoutine => .routineDataWrite false src v | .luRoutine => .routineDataWrite true src v
def StoreId.lockRow (i : StoreId) (src : Src) : Instr :=
  match i with
  | .recipe => .recipeLock src | .pkRoutine => .routineLock false src | .luRoutine => .routineLock true src

theorem exec_dataRow (i : StoreId) (src : Src) (v : Nat) (s : State) :
    exec (i.dataRow src v) s = ok (s.regWrite src i.dataAt v) := by cases i <;> rfl

theorem exec_lockRow (i : StoreId) (src : Src) (s : State) : exec (i.lockRow src) s = ok (s.regWrite src i.ctlAt 1) := by
  cases i <;> rfl

/-- Tamp's word goes to both copies while the store is not locked. -/
theorem exec_dataRow_of_loader {s : State} {i : StoreId} {src : Src} (hsrc : src = .corePriv ∨ src = .tamp)
    (hw : s.writable i.dataAt = true) (hl : s.on i.lock = false) (v : Nat) :
    exec (i.dataRow src v) s = .next (s.storeWord i v).wires := by
  rw [exec_dataRow, State.regWrite_special i.ordinary_dataAt hw (s.specialWrite_data src i v),
    State.storeData_of_unlocked hsrc hl]
  rfl

theorem exec_lockRow_of_loader {s : State} {i : StoreId} {src : Src} (hsrc : src = .corePriv ∨ src = .tamp)
    (hw : s.writable i.ctlAt = true) (hl : s.on i.lock = false) :
    exec (i.lockRow src) s = .next (s.lockShown i).wires := by
  rw [exec_lockRow, State.regWrite_special i.ordinary_ctlAt hw (s.specialWrite_lock src i),
    State.storeLock_of_unlocked hsrc hl]
  rfl

/-- No other source loads or locks a store. -/
theorem exec_storeRows_of_other {s : State} {i : StoreId} {src : Src} (hg : s.gated i.ctlAt = false) (hcore : src ≠ .corePriv)
    (htamp : src ≠ .tamp) (v : Nat) : exec (i.dataRow src v) s = .next s.wires ∧ exec (i.lockRow src) s = .next s.wires := by
  have hdata := (s.specialWrite_data src i v).trans (congrArg some (State.storeData_of_other hcore htamp s i v))
  have hlock := (s.specialWrite_lock src i).trans (congrArg some (State.storeLock_of_other hcore htamp s i))
  rw [exec_dataRow, exec_lockRow, State.regWrite_without_effect i.ordinary_dataAt ((s.gated_dataAt i).trans hg) hdata,
    State.regWrite_without_effect i.ordinary_ctlAt hg hlock]
  exact ⟨rfl, rfl⟩

/-- Settles O21: the words of each store, its lock, and the sources that do neither. -/
theorem storeLoading : Obligations.StoreLoading := by
  unfold Obligations.StoreLoading
  intro s src value lattice x put digest version locked
  refine ⟨fun hsrc hw hl => ?recipeWord, fun hsrc hw hl => ?pkWord, fun hsrc hw hl => ?luWord, fun hsrc hw hl => ?recipeLock,
    fun hsrc hw hl => ?routineLock, fun htu hpk hlu hcore htamp c hc => ?others⟩
  case recipeWord => exact exec_dataRow_of_loader (i := .recipe) hsrc hw hl value
  case pkWord => exact exec_dataRow_of_loader (i := .pkRoutine) hsrc hw hl value
  case luWord => exact exec_dataRow_of_loader (i := .luRoutine) hsrc hw hl value
  case recipeLock => exact exec_lockRow_of_loader (i := .recipe) hsrc hw hl
  case routineLock =>
    cases lattice
    · exact exec_lockRow_of_loader (i := .pkRoutine) hsrc hw hl
    · exact exec_lockRow_of_loader (i := .luRoutine) hsrc hw hl
  case others =>
    obtain ⟨hrecipe, hrecipeLock⟩ := exec_storeRows_of_other (i := .recipe) htu hcore htamp value
    obtain ⟨hpkData, hpkLock⟩ := exec_storeRows_of_other (i := .pkRoutine) hpk hcore htamp value
    obtain ⟨hluData, hluLock⟩ := exec_storeRows_of_other (i := .luRoutine) hlu hcore htamp value
    simp only [List.mem_cons, List.not_mem_nil, or_false] at hc
    rcases hc with rfl | rfl | rfl | rfl
    · exact hrecipe
    · exact hrecipeLock
    · cases lattice
      · exact hpkData
      · exact hluData
    · cases lattice
      · exact hpkLock
      · exact hluLock

/-! ## Writes that need a session, a mode or a core (R121, R226, R274, R334) -/

theorem ordinary_slicePolicy {n : Nat} (hn : n < 1024) : ordinary (0x031000 + 4 * n) = true := by
  have hblock : (0x031000 + 4 * n) / 0x10000 = 3 := by omega
  have harray : ∃ r ∈ regTabOf 3, r.off = 0x031000 ∧ r.stride = 4 ∧ r.count = 1024 := by decide
  obtain ⟨r, hr, hoff, hstride, hcount⟩ := harray
  have hreg : (regAt (0x031000 + 4 * n)).isSome = true :=
    regAt_isSome_of_mem (by rw [hoff, hstride]) (by rwa [hblock]) (by omega) (by omega)
  simp only [ordinary, guardOwned, hblock, hreg, Bool.and_eq_true, bne_iff_ne]
  refine ⟨⟨⟨⟨⟨trivial, by decide⟩, ?_⟩, ?_⟩, ?_⟩, ?_⟩ <;> omega

theorem State.specialWrite_slicePolicy (s : State) (src : Src) {n : Nat} (hn : n < 1024) (word : Nat) :
    s.specialWrite src (0x031000 + 4 * n) word = some (s.policyWrite n word) := by
  have hin : inRange (0x031000 + 4 * n) 0x031000 0x032000 = true := by
    simp only [inRange, decide_eq_true_eq]
    omega
  have hindex : (0x031000 + 4 * n - 0x031000) / 4 = n := by omega
  rw [State.specialWrite, if_neg (by omega), if_neg (by omega), if_neg (by omega), if_neg (by omega), if_neg (by omega),
    if_pos hin, hindex]

theorem exec_tuSlicePolicyWrite {s : State} {n : Nat} (hn : n < 1024) (hw : s.writable (0x031000 + 4 * n) = true) (src : Src)
    (word : Nat) : exec (.tuSlicePolicyWrite src n word) s = .next (s.policyWrite n word).wires := by
  have hrow : exec (.tuSlicePolicyWrite src n word) s = ok (s.regWrite src (0x031000 + 4 * n) word) := congrArg ok (if_pos hn)
  rw [hrow, State.regWrite_special (ordinary_slicePolicy hn) hw (s.specialWrite_slicePolicy src hn word)]
  rfl

theorem exec_tmpBatEvtWrite {s : State} (hw : s.writable 0x0C000C = true) (src : Src) (word : Nat) :
    exec (.tmpBatEvtWrite src word) s = .next (s.batEvtWrite word).wires :=
  congrArg ok (State.regWrite_special (by decide) hw rfl)

theorem exec_rawTap {s : State} (hw : s.writable 0x090040 = true) (src : Src) (v : Nat) :
    exec (.rawTap src v) s = .next (s.rawCtl v).wires :=
  congrArg ok (State.regWrite_special (by decide) hw rfl)

theorem exec_clkMuxWrite {s : State} (hw : s.writable 0x110010 = true) (src : Src) (v : Nat) :
    exec (.clkMuxWrite src v) s = .next (s.muxWrite src v).wires :=
  congrArg ok (State.regWrite_special (by decide) hw rfl)

theorem State.policyWrite_of_held {s : State} {n : Nat} (h : s.holds n roleSO = true) (word : Nat) :
    s.policyWrite n word = s.writeFields (some (s.session n).id) (0x031000 + 4 * n) word :=
  if_pos h

theorem State.policyWrite_of_not_held {s : State} {n : Nat} (h : s.holds n roleSO = false) (word : Nat) :
    s.policyWrite n word = s.record 0x0502 2 devScope (0x031000 + 4 * n) :=
  if_neg (by rw [h]; exact Bool.false_ne_true)

/-- TMP_BAT_EVT is one field, whose bits a written 1 clears (R274). -/
theorem State.batEvtWrite_of_covered {s : State} (h : s.get R.LC_STATE_CODE ≠ 3 ∨ s.holds devSession roleSO = true) (word : Nat) :
    s.batEvtWrite word = s.set R.TMP_BAT_EVT_EVT 0
      (s.get R.TMP_BAT_EVT_EVT ^^^ (s.get R.TMP_BAT_EVT_EVT &&& word % 2 ^ 32)) := by
  have hcovered : ¬(s.get R.LC_STATE_CODE = 3 ∧ (!s.holds devSession roleSO) = true) := fun ⟨hlc, hno⟩ =>
    h.elim (fun hne => hne hlc) (fun hso => by simp [hso] at hno)
  have hfields : s.writeFields none 0x0C000C word = s.set R.TMP_BAT_EVT_EVT 0
      (s.get R.TMP_BAT_EVT_EVT ^^^ (s.get R.TMP_BAT_EVT_EVT &&& word / 2 ^ 0 % 2 ^ 32)) := rfl
  rw [State.batEvtWrite, if_neg hcovered, hfields, Nat.pow_zero, Nat.div_one]

theorem State.batEvtWrite_of_uncovered {s : State} (hlc : s.get R.LC_STATE_CODE = 3) (h : s.holds devSession roleSO = false)
    (word : Nat) : s.batEvtWrite word = s.record 0x0502 2 devScope 0x0C000C :=
  if_pos ⟨hlc, by rw [h]; rfl⟩

/-- The cells in use other than `c`. -/
def State.othersInUse (s : State) (c : Nat) : Nat := ((List.range 8).filter (fun i => i != c && s.rng.cell i == .inUse)).length

/-- The fields of RNG_RAW_CTL with EN as written. -/
def State.tapFields (s : State) (v : Nat) : State :=
  (((s.set R.RNG_RAW_CTL_EN 0 1).set R.RNG_RAW_CTL_CELL 0 (bits v 3 1)).set R.RNG_RAW_CTL_RESTART 0 (bits v 4 4)).set
    R.RNG_RAW_CTL_RESTART_LEN 0 (bits v 31 16)

theorem bits_bit_true {v i : Nat} (h : bit v i = true) : bits v i i = 1 := by
  rw [bit, Nat.testBit_eq_decide_div_mod_eq, decide_eq_true_eq] at h
  rw [bits, Nat.shiftRight_eq_div_pow, Nat.add_sub_cancel_left]
  exact h

/-- A write of RNG_RAW_CTL with EN for cell `c` is dropped: fewer than four other cells stay in use, the cell is not enabled, or in
SERVICE no session covers it (R226). -/
def State.tapRefused (s : State) (c : Nat) : Bool :=
  decide (s.othersInUse c < 4) || !bit (s.get R.RNG_CTL_CELL_EN) c || (s.get R.LC_STATE_CODE == 3 && !s.holds devSession roleSO)

theorem State.tapRefused_iff (s : State) (c : Nat) : s.tapRefused c = true ↔ s.othersInUse c < 4 ∨
    bit (s.get R.RNG_CTL_CELL_EN) c = false ∨ (s.get R.LC_STATE_CODE = 3 ∧ s.holds devSession roleSO = false) := by
  simp [State.tapRefused, or_assoc]

theorem State.tapRefused_of_allowed {s : State} {c : Nat} (hfree : 4 ≤ s.othersInUse c)
    (hcell : bit (s.get R.RNG_CTL_CELL_EN) c = true) (hcov : s.get R.LC_STATE_CODE ≠ 3 ∨ s.holds devSession roleSO = true) :
    s.tapRefused c = false := by
  rw [← Bool.not_eq_true, State.tapRefused_iff]
  rintro (hfew | hoff | ⟨hlc, hno⟩)
  · omega
  · simp [hcell] at hoff
  · exact hcov.elim (fun hne => hne hlc) (fun hso => by simp [hso] at hno)

/-- A write of RNG_RAW_CTL with EN: dropped, or its fields taken and the tap asked for unless the cell is tapped already. -/
theorem State.rawCtl_of_en {s : State} {v : Nat} (h : bit v 0 = true) :
    s.rawCtl v =
      if s.tapRefused (bits v 3 1) then s.rngEventRecord
      else if s.rng.tap = some (bits v 3 1) then
        { s.tapFields v with rng := { s.rng with
          tapReq := none
          tapFrom := if bit v 4 && !s.on R.RNG_RAW_CTL_RESTART then s.rng.tapBits else s.rng.tapFrom } }
      else { s.tapFields v with rng := { s.rng with tapReq := some (bits v 3 1) } } := by
  simp only [State.rawCtl, if_pos h, bits_bit_true h]
  rfl

theorem State.rawCtl_of_refused {s : State} {v : Nat} (h : bit v 0 = true)
    (hno : s.othersInUse (bits v 3 1) < 4 ∨ bit (s.get R.RNG_CTL_CELL_EN) (bits v 3 1) = false ∨
      (s.get R.LC_STATE_CODE = 3 ∧ s.holds devSession roleSO = false)) : s.rawCtl v = s.rngEventRecord := by
  rw [State.rawCtl_of_en h, if_pos ((s.tapRefused_iff _).2 hno)]

/-- A tap of another cell is asked for. -/
theorem State.rawCtl_of_untapped {s : State} {v : Nat} (h : bit v 0 = true) (hok : s.tapRefused (bits v 3 1) = false)
    (htap : s.rng.tap ≠ some (bits v 3 1)) :
    s.rawCtl v = { s.tapFields v with rng := { s.rng with tapReq := some (bits v 3 1) } } := by
  rw [State.rawCtl_of_en h, hok, if_neg Bool.false_ne_true, if_neg htap]

/-- The cell that is tapped stays tapped. -/
theorem State.rawCtl_of_tapped {s : State} {v : Nat} (h : bit v 0 = true) (hok : s.tapRefused (bits v 3 1) = false)
    (htap : s.rng.tap = some (bits v 3 1)) :
    (s.rawCtl v).rng.tapReq = none ∧ (s.rawCtl v).rng.tap = s.rng.tap ∧ (s.rawCtl v).rng.tapLeft = s.rng.tapLeft ∧
      (s.rawCtl v).regs = (s.tapFields v).regs := by
  rw [State.rawCtl_of_en h, hok, if_neg Bool.false_ne_true, if_pos htap]
  exact ⟨rfl, rfl, rfl, rfl⟩

theorem State.tapFields_restart (s : State) (v : Nat) : (s.tapFields v).get R.RNG_RAW_CTL_RESTART = bits v 4 4 := by
  rw [State.tapFields, State.get_set_other _ _ _ _ _ _ (by decide), State.get_set_self _ _ _ _ (by decide)]
  exact Nat.mod_mod _ 2

theorem State.muxWrite_of_loader {s : State} {src : Src} (hsrc : src = .corePriv ∨ src = .tamp)
    (hready : s.on R.GLB_STS_SERVICE_READY = false) (v : Nat) :
    s.muxWrite src v =
      (((s.set R.CLK_MUX_CORE 0 (bits v 0 0)).set R.CLK_MUX_SEQ 0 (bits v 1 1)).set R.CLK_MUX_DDR 0 (bits v 2 2)).set
        R.CLK_MUX_STS_BUSY 0 (s.get R.CLK_MUX_STS_BUSY ||| ((s.storedAt 0x110010 ^^^ v) % 8)) :=
  if_neg (by simp [(mayLoad_iff src).2 hsrc, hready])

theorem State.muxWrite_of_other {s : State} {src : Src}
    (h : (src ≠ .corePriv ∧ src ≠ .tamp) ∨ s.on R.GLB_STS_SERVICE_READY = true) (v : Nat) :
    s.muxWrite src v = (s.clkErr R.CLK_ERR_STS_MUX_DROP 0 0).clkRecord 7 := by
  refine if_pos (h.imp_left fun hsrc => ?_)
  rwa [Bool.not_eq_true', ← Bool.not_eq_true, mayLoad_iff, not_or]

/-- Settles O20: the slice policy, the battery's events, the raw-bit tap, and the clock muxes. -/
theorem guardedWrites : Obligations.GuardedWrites := by
  unfold Obligations.GuardedWrites
  refine ⟨fun s src n word hn => ⟨fun hw => ?policy, fun hw => ?battery⟩, fun s src v => ?_⟩
  case policy =>
    rw [exec_tuSlicePolicyWrite hn hw]
    exact ⟨fun h => by rw [State.policyWrite_of_held h], fun h => by rw [State.policyWrite_of_not_held h]⟩
  case battery =>
    rw [exec_tmpBatEvtWrite hw]
    exact ⟨fun h => by rw [State.batEvtWrite_of_covered h], fun hlc h => by rw [State.batEvtWrite_of_uncovered hlc h]⟩
  intro c free
  refine ⟨fun hw hen hfree hcell hcov => ?tap, fun hw hen hno => ?tapRefused, fun hw hsrc hready => ?mux, fun hw hno => ?muxDropped⟩
  case tap =>
    have hok := State.tapRefused_of_allowed hfree hcell hcov
    rw [exec_rawTap hw]
    refine ⟨fun htap => by rw [State.rawCtl_of_untapped hen hok htap]; rfl, fun htap => ⟨_, rfl, ?_⟩⟩
    obtain ⟨hreq, hsame, hleft, hregs⟩ := State.rawCtl_of_tapped hen hok htap
    rw [State.wires_rng, State.get_wires _ _ _ (by decide), State.get_of_regs hregs]
    exact ⟨hreq, hsame, hleft, s.tapFields_restart v⟩
  case tapRefused => rw [exec_rawTap hw, State.rawCtl_of_refused hen hno]
  case mux => rw [exec_clkMuxWrite hw, State.muxWrite_of_loader hsrc hready]
  case muxDropped => rw [exec_clkMuxWrite hw, State.muxWrite_of_other hno]

end Sys2Proof.Machine

namespace Sys2Proof.Machine

/-! ## Datum and the identity keys (R182, R183, R214, R221, R263) -/

/-- An accepted command that asks for a draw: the draw waits behind the others, and their number is shown (R221). -/
theorem State.ksAccept_askDraw (s : State) (n : Nat) (op : AdminOp) :
    s.ksAccept.askDraw n op = ({ (s.set R.KS_CMD_STS_BUSY 0 1).set R.KS_CMD_STS_ERR 0 0 with
      rng := { s.rng with waiting := s.rng.waiting ++ [(n, op)] } }).set R.RNG_POOL_STS_WAITING 0
        (s.rng.waiting.length + 1) := by
  have hlen : (s.rng.waiting ++ [(n, op)]).length = s.rng.waiting.length + 1 := List.length_append
  rw [← hlen]
  rfl

/-- While the clamp is set a write of KS_DATUM_CMD is dropped and recorded (R263). -/
theorem State.datumWrite_of_clamp {s : State} (hclamp : s.on R.TMP_STS_CLAMP = true) (hstage : 2 ≤ s.stage)
    (hend : s.stage ≠ 0xB) (op : Nat) : s.datumWrite op = s.writeDropped 0x080008 :=
  if_pos ⟨hclamp, hstage, hend⟩

theorem State.datumWrite_generate {s : State} (hw : s.writable 0x080008 = true) (hclamp : s.on R.TMP_STS_CLAMP = false) :
    s.datumWrite 1 = s.datumGenerate := by
  have hopen : ¬(s.on R.TMP_STS_CLAMP = true ∧ 2 ≤ s.stage ∧ s.stage ≠ 0xB) := fun h => by simp [hclamp] at h
  rw [State.datumWrite, if_neg hopen, State.ifWritable_true hw, if_pos rfl]

/-- What GENERATE of Datum answers a Security Officer of the device rests on the lifecycle state, then on the generator. -/
theorem State.datumGenerate_of_officer {s : State} (hidle : s.on R.KS_CMD_STS_BUSY = false)
    (hso : s.holds devSession roleSO = true) :
    s.datumGenerate = if s.get R.LC_STATE_CODE ≠ 3 then s.ksReply 8
      else if s.rngState ≠ rngService then s.ksFreeReject else s.ksAccept.askDraw 32 .datum := by
  rw [State.datumGenerate, if_neg (by simp [hidle]), if_neg (by simp [hso])]

/-- What GENERATE of the identity keys answers a Security Officer of the device rests on the lifecycle state. -/
theorem State.idGenerate_of_officer {s : State} (hidle : s.on R.KS_CMD_STS_BUSY = false)
    (hso : s.holds devSession roleSO = true) :
    s.idGenerate = if s.get R.LC_STATE_CODE ≠ 2 then s.ksReply 8 else s.ksAccept.askDraw 80 .identity := by
  rw [State.idGenerate, if_neg (by simp [hidle]), if_neg (by simp [hso])]

theorem exec_datumGenerate {s : State} (hw : s.writable 0x080008 = true) (hclamp : s.on R.TMP_STS_CLAMP = false) :
    exec .datumGenerate s = .next s.datumGenerate.wires :=
  congrArg ok (State.datumWrite_generate hw hclamp)

theorem exec_idGenerate {s : State} (hw : s.writable 0x080014 = true) : exec .idGenerate s = .next s.idGenerate.wires :=
  congrArg ok (State.ifWritable_true hw _)

/-! ## The key store's upkeep (R169, R185, R200, R211) -/

/-- An index whose entries have left the KRC becomes free; its record stays while a descendant is there. -/
theorem State.freeIndex_of_gone {s : State} {n i : Nat} {e : Dying}
    (he : (s.domain n).dying.find? (fun y => y.index == i && !y.freed) = some e)
    (hgone : s.ks.krc.any (s.dyingEntry n e) = false) :
    s.freeIndex n i = s.modDomain n (fun x => { x with
      dying := if s.ks.krc.any (s.bumpedEntry n) then x.dying.map (fun y => if y = e then { y with freed := true } else y)
        else x.dying.filter (fun y => y != e)
      freed := x.freed ++ ((List.range e.slots).map (· + i)).filter (fun j =>
        decide (j < 0x800000) && decide (Tab.get 0 x.gens j < 0xFFFF) && !x.freed.contains j) }) := by
  simp only [State.freeIndex, he, hgone, Bool.false_eq_true, if_false]

theorem State.freeIndex_of_entry {s : State} {n i : Nat} {e : Dying}
    (he : (s.domain n).dying.find? (fun y => y.index == i && !y.freed) = some e)
    (hentry : s.ks.krc.any (s.dyingEntry n e) = true) : s.freeIndex n i = s := by
  simp only [State.freeIndex, he, hentry, if_true]

/-- A continuation entry of frame `f` is freed once 65,536 frames have passed. -/
theorem State.contExpire_of_entry {s : State} {n i seq typ f : Nat}
    (he : (s.slice n).cont.find? (fun e => e.1 == i) = some (i, seq, typ, f)) :
    s.contExpire n i = if f + 65536 ≤ s.frameNo then s.modSlice n (fun x => { x with cont := x.cont.del i }) else s := by
  simp only [State.contExpire, he]

/-- The accumulators' timeout (R211) as the model tests it. -/
theorem State.accumDue_iff (s : State) (n : Nat) :
    s.ks.accums.any (fun a => a.slice == n && decide (a.frame + 256 ≤ s.frameNo)) = true ↔
      ∃ a ∈ s.ks.accums, a.slice = n ∧ a.frame + 256 ≤ s.frameNo := by
  simp only [List.any_eq_true, Bool.and_eq_true, beq_iff_eq, decide_eq_true_eq]

theorem State.componentExpire_of_due {s : State} {n : Nat}
    (hdue : ∃ a ∈ s.ks.accums, a.slice = n ∧ a.frame + 256 ≤ s.frameNo) : s.componentExpire n = s.dropAccum n :=
  if_pos ((s.accumDue_iff n).2 hdue)

theorem State.componentExpire_of_early {s : State} {n : Nat}
    (hearly : ∀ a ∈ s.ks.accums, a.slice = n → s.frameNo < a.frame + 256) : s.componentExpire n = s := by
  refine if_neg fun h => ?_
  obtain ⟨a, ha, hslice, hdue⟩ := (s.accumDue_iff n).1 h
  exact absurd hdue (Nat.not_le.2 (hearly a ha hslice))

/-- Settles O29: Datum, the identity keys and their read, then the upkeep of indices, nodes, continuations and accumulators. -/
theorem keyStoreCommands : Obligations.KeyStoreCommands := by
  unfold Obligations.KeyStoreCommands
  refine ⟨fun s => ⟨fun hw hclamp hidle hso => ?datum, fun hclamp hstage hend _ => ?clamp,
      fun hw hidle hso => ?identity, fun hw => ?read⟩,
    fun s n i => ⟨fun e he hgone => ?gone, fun e he hentry => ?entry, ?nodes, fun seq typ f he => ?continuation,
      fun hdue => ?due, fun hearly => ?early⟩⟩
  case datum =>
    rw [exec_datumGenerate hw hclamp, State.datumGenerate_of_officer hidle hso]
    refine ⟨fun hlc hrng => ?_, fun hlc => ?_⟩
    · rw [if_neg (not_not_intro hlc), if_neg (not_not_intro hrng), State.ksAccept_askDraw]
    · rw [if_pos hlc, State.ksReply]
  case clamp => exact congrArg ok (State.datumWrite_of_clamp hclamp hstage hend 1)
  case identity =>
    rw [exec_idGenerate hw, State.idGenerate_of_officer hidle hso]
    refine ⟨fun hlc => ?_, fun hlc => ?_⟩
    · rw [if_neg (not_not_intro hlc), State.ksAccept_askDraw]
    · rw [if_pos hlc, State.ksReply]
  case read => exact congrArg ok (State.ifWritable_true hw _)
  case gone => exact congrArg ok (State.freeIndex_of_gone he hgone)
  case entry => exact congrArg ok (State.freeIndex_of_entry he hentry)
  case nodes => rfl
  case continuation =>
    have hrow := congrArg ok (State.contExpire_of_entry he)
    exact ⟨fun hdue => hrow.trans (congrArg ok (if_pos hdue)),
      fun hearly => hrow.trans (congrArg ok (if_neg (Nat.not_le.2 hearly)))⟩
  case due => exact congrArg ok (State.componentExpire_of_due hdue)
  case early => exact congrArg ok (State.componentExpire_of_early hearly)

end Sys2Proof.Machine

namespace Sys2Proof.Machine

/-! ## KS_DOMAIN_CMD (R184, R214) -/

/-- The commands of KS_DOMAIN_CMD for slice `n`, each with its OP. -/
def domainInstrs (n : Nat) : List (Instr × Nat) :=
  [(.domainCreate n, 1), (.domainAdvance n, 2), (.raiseFloor n, 3), (.domainRekey n, 4), (.domainDestroy n, 5)]

theorem domainInstrs_op {n : Nat} {r : Instr × Nat} (hr : r ∈ domainInstrs n) : 1 ≤ r.2 ∧ r.2 ≤ 5 := by
  simp only [domainInstrs, List.mem_cons, List.not_mem_nil, or_false] at hr
  rcases hr with rfl | rfl | rfl | rfl | rfl <;> omega

/-- A write of KS_DOMAIN_CMD that the block takes runs the command of its OP. -/
theorem exec_domainInstr {s : State} {n : Nat} (hw : s.writable 0x08000C = true) {r : Instr × Nat} (hr : r ∈ domainInstrs n) :
    exec r.1 s = .next (s.domainCmd r.2 n).wires := by
  simp only [domainInstrs, List.mem_cons, List.not_mem_nil, or_false] at hr
  rcases hr with rfl | rfl | rfl | rfl | rfl
  all_goals exact congrArg ok (State.ifWritable_true hw _)

theorem State.domainCmd_of_busy {s : State} {n : Nat} (hhome : s.notHome n = false) (hbusy : s.on R.KS_CMD_STS_BUSY = true)
    (op : Nat) : s.domainCmd op n = s := by
  simp only [State.domainCmd, hhome, hbusy, if_true, Bool.false_eq_true, if_false]

/-- Without a Security Officer's session of the slice a command with a known OP is rejected and recorded. -/
theorem State.domainCmd_of_other {s : State} {n op : Nat} (hhome : s.notHome n = false) (hidle : s.on R.KS_CMD_STS_BUSY = false)
    (hop : 1 ≤ op ∧ op ≤ 5) (hso : s.holds n roleSO = false) :
    s.domainCmd op n = (s.ksReply 2).writeDropped 0x08000C := by
  have hknown : ¬(op = 0 ∨ 5 < op) := by omega
  simp only [State.domainCmd, hhome, hidle, hso, hknown, Bool.false_eq_true, if_false, Bool.not_false, if_true]

/-! What each OP answers a Security Officer of the slice at its home member, BUSY clear: the lowest code that applies. -/

section
variable {s : State} {n : Nat} (hhome : s.notHome n = false) (hidle : s.on R.KS_CMD_STS_BUSY = false)
  (hso : s.holds n roleSO = true)
include hhome hidle hso

theorem State.domainCreate_of_officer :
    s.domainCmd 1 n = if (s.domain n).present then s.ksReply 3 else if s.on R.KS_STS_DATUM = false then s.ksReply 6
      else if s.ks.ctRo then s.ksReply 7 else if 31744 < s.ks.leaves.length + 1 + 2 then s.ksFreeReject
      else s.ksAccept.askDraw 32 (.domainCreate n) := by
  simp [State.domainCmd, hhome, hidle, hso]

theorem State.domainAdvance_of_officer :
    s.domainCmd 2 n = if s.epochOf n - (s.domain n).floor = 3 then s.ksReply 4 else if s.epochOf n = 2 ^ 48 - 1 then s.ksReply 5
      else if (s.domain n).present = false ∨ s.on R.KS_STS_DATUM = false then s.ksReply 6
      else if s.ks.ctRo then s.ksReply 7 else { s.ksAccept with ks := { s.ks with cmd := some (2, n) } } := by
  simp [State.domainCmd, hhome, hidle, hso]
  rfl

theorem State.raiseFloor_of_officer :
    s.domainCmd 3 n = if (s.domain n).present = true ∧ (s.domain n).floor = s.epochOf n then s.ksReply 4
      else if (s.domain n).present = false ∨ s.on R.KS_STS_DATUM = false then s.ksReply 6
      else if s.ks.ctRo then s.ksReply 7 else { s.ksAccept with ks := { s.ks with cmd := some (3, n) } } := by
  simp [State.domainCmd, hhome, hidle, hso]
  rfl

theorem State.domainRekey_of_officer :
    s.domainCmd 4 n = if (s.domain n).present = false ∨ s.on R.KS_STS_DATUM = false then s.ksReply 6
      else if s.ks.ctRo then s.ksReply 7 else s.ksAccept.askDraw 32 (.domainRekey n) := by
  simp [State.domainCmd, hhome, hidle, hso]

theorem State.domainDestroy_of_officer :
    s.domainCmd 5 n = if (s.domain n).present = false ∨ s.on R.KS_STS_DATUM = false then s.ksReply 6
      else if s.ks.ctRo then s.ksReply 7 else s.ksAccept.askDraw 32 (.domainDestroy n) := by
  simp [State.domainCmd, hhome, hidle, hso]
end

/-- Settles O28: BUSY drops a command, no session of the slice rejects it, and for an officer of the slice each OP answers the lowest
code that applies, or waits. -/
theorem domainCommands : Obligations.DomainCommands := by
  unfold Obligations.DomainCommands
  intro s n hw hhome
  have hrow := fun (r : Instr × Nat) (hr : r ∈ domainInstrs n) => exec_domainInstr hw hr
  refine ⟨fun hbusy r hr => ?busy, fun hidle hso => ?officer, fun hidle hso r hr => ?other⟩
  case busy => rw [hrow r hr, State.domainCmd_of_busy hhome hbusy]
  case other => rw [hrow r hr, State.domainCmd_of_other hhome hidle (domainInstrs_op hr) hso]; rfl
  case officer =>
    have hcreate := hrow (.domainCreate n, 1) (by simp [domainInstrs])
    have hadvance := hrow (.domainAdvance n, 2) (by simp [domainInstrs])
    have hraise := hrow (.raiseFloor n, 3) (by simp [domainInstrs])
    have hrekey := hrow (.domainRekey n, 4) (by simp [domainInstrs])
    have hdestroy := hrow (.domainDestroy n, 5) (by simp [domainInstrs])
    rw [State.domainCreate_of_officer hhome hidle hso] at hcreate
    rw [State.domainAdvance_of_officer hhome hidle hso] at hadvance
    rw [State.raiseFloor_of_officer hhome hidle hso] at hraise
    rw [State.domainRekey_of_officer hhome hidle hso] at hrekey
    rw [State.domainDestroy_of_officer hhome hidle hso] at hdestroy
    have hready : (s.domain n).present = true → s.on R.KS_STS_DATUM = true →
        ¬((s.domain n).present = false ∨ s.on R.KS_STS_DATUM = false) := fun hp hd => by simp [hp, hd]
    refine ⟨fun hdatum hro => ⟨fun habs hroom => ?create,
        fun hpres => ⟨?rekey, ?destroy, fun hspan hlast => ?advance, fun hfloor => ?raise⟩⟩,
      fun hpres => ⟨?taken, fun hspan => ?span, fun hfloor => ?floor, fun hlast hspan => ?last, fun hdatum hro => ?ro⟩,
      fun habs => ⟨?rekeyAbsent, ?destroyAbsent⟩⟩
    case create =>
      have hleaves : ¬31744 < s.ks.leaves.length + 1 + 2 := by omega
      simpa [habs, hdatum, hro, hleaves, State.ksAccept_askDraw] using hcreate
    case rekey => simpa [hpres, hdatum, hro, State.ksAccept_askDraw] using hrekey
    case destroy => simpa [hpres, hdatum, hro, State.ksAccept_askDraw] using hdestroy
    case advance =>
      rwa [if_neg hspan, if_neg hlast, if_neg (hready hpres hdatum), if_neg (Bool.eq_false_iff.1 hro)] at hadvance
    case raise =>
      rwa [if_neg (not_and_of_not_right _ hfloor), if_neg (hready hpres hdatum), if_neg (Bool.eq_false_iff.1 hro)] at hraise
    case taken => rwa [if_pos hpres] at hcreate
    case span => rwa [if_pos hspan] at hadvance
    case floor => rwa [if_pos ⟨hpres, hfloor⟩] at hraise
    case last => rwa [if_neg hspan, if_pos hlast] at hadvance
    case ro => rwa [if_neg (hready hpres hdatum), if_pos hro] at hrekey
    case rekeyAbsent => rwa [if_pos (Or.inl habs)] at hrekey
    case destroyAbsent => rwa [if_pos (Or.inl habs)] at hdestroy

end Sys2Proof.Machine

namespace Sys2Proof.Machine

/-! ## What writing records to their areas leaves alone (R304, R305, R308) -/

/-- The state of the log that a record written to its area does not touch, and the slices of the host interface. -/
structure LogState where
  seq : Nat
  frozenAt : Option Nat
  exporting : Bool
  exNow : Nat
  pending : List FbRec
  slices : Tab Slice

def State.logState (s : State) : LogState where
  seq := s.fb.seq
  frozenAt := s.fb.frozenAt
  exporting := s.fb.exporting
  exNow := s.fb.exNow
  pending := s.fb.pending
  slices := s.hif.slices

/-- From `s` to `t` records reach their areas: SEQ, the freeze, the EXPORT and the pending buffer stay, and of the registers
FB_ERR_STS.DROP alone may change. -/
structure State.WriteStep (s t : State) : Prop where
  log : t.logState = s.logState
  get : ∀ (f : Field) (i : Nat), R.FB_ERR_STS_DROP.key 0 ≠ f.key i → t.get f i = s.get f i

theorem State.WriteStep.refl (s : State) : s.WriteStep s := ⟨rfl, fun _ _ _ => rfl⟩

theorem State.WriteStep.trans {s t u : State} (h : s.WriteStep t) (g : t.WriteStep u) : s.WriteStep u :=
  ⟨g.log.trans h.log, fun f i hf => (g.get f i hf).trans (h.get f i hf)⟩

theorem State.WriteStep.ofFb (s : State) (b : Fb) (h : ({ s with fb := b } : State).logState = s.logState) :
    s.WriteStep { s with fb := b } := ⟨h, fun _ _ _ => rfl⟩

theorem State.logState_post (s : State) (p : Post) : (s.post p).logState = s.logState := by
  unfold State.post; split <;> rfl

theorem State.logState_raise (s : State) (vec : Nat) : (s.raise vec).logState = s.logState := by
  unfold State.raise State.msix; split
  · exact s.logState_post _
  · rfl

theorem State.logState_event (s : State) (f en : Field) (vec mask : Nat) : (s.event f en vec mask).logState = s.logState := by
  simp only [State.event]; split
  · rfl
  · exact State.logState_raise _ vec

theorem State.WriteStep.ofDrop (s : State) (r : FbRec) : s.WriteStep (s.fbDrop r) :=
  ⟨State.logState_event .., fun _ _ hf => State.get_event_other _ _ _ _ _ _ _ hf⟩

/-- The counts of a flush are no state of the log. -/
theorem State.WriteStep.ofFlushCount (s : State) (n : Nat) :
    s.WriteStep (if s.fb.flushing then { s with fb := { s.fb with flushWritten := n } } else s) := by
  split
  · exact .ofFb s _ rfl
  · exact .refl s

theorem State.WriteStep.ofWrite (s : State) (r : FbRec) : s.WriteStep (s.fbWrite r) := by
  have hcount := State.WriteStep.ofFlushCount s (s.fb.flushWritten + 1)
  unfold State.fbWrite
  generalize (if s.fb.flushing then { s with fb := { s.fb with flushWritten := s.fb.flushWritten + 1 } } else s) = u at hcount
  have hdrop := hcount.trans ((State.WriteStep.ofFlushCount u (u.fb.flushWritten - 1)).trans (.ofDrop _ r))
  have hfb : ∀ b : Fb, ({ u with fb := b } : State).logState = u.logState → s.WriteStep { u with fb := b } :=
    fun b hb => hcount.trans (.ofFb u b hb)
  dsimp only
  split
  · exact hdrop
  · split
    · split
      · exact hfb _ rfl
      · split
        · exact hfb _ rfl
        · exact hdrop
    · split
      · exact hfb _ rfl
      · split
        · exact hfb _ rfl
        · split
          · exact hfb _ rfl
          · exact hdrop

theorem State.WriteStep.ofWriteAll (s : State) (rs : List FbRec) : s.WriteStep (s.fbWriteAll rs) :=
  List.foldlRecOn rs _ (motive := s.WriteStep) (.refl s) (fun t ht r _ => ht.trans (.ofWrite t r))

theorem State.WriteStep.ofWriteBuffer (s : State) : s.WriteStep s.fbWriteBuffer :=
  (State.WriteStep.ofFb s { s.fb with buffer := [] } rfl).trans (.ofWriteAll _ _)

theorem State.WriteStep.ofBuffer (s : State) (r : FbRec) : s.WriteStep (s.fbBuffer r) := by
  have hput := State.WriteStep.ofFb s { s.fb with buffer := s.fb.buffer ++ [r] } rfl
  unfold State.fbBuffer
  generalize (if r.diag then 320 else 64) = size
  generalize ({ s with fb := { s.fb with buffer := s.fb.buffer ++ [r] } } : State) = u at hput
  dsimp only
  split
  · exact .ofDrop s r
  · split
    · exact hput.trans (.ofWriteBuffer u)
    · exact hput

theorem State.WriteStep.ofStoreDiag (s : State) (r : FbRec) : s.WriteStep (s.fbStoreDiag r) := by
  unfold State.fbStoreDiag
  split
  · exact .ofDrop s r
  · split
    · exact .ofWrite s r
    · split
      · exact .ofBuffer s r
      · exact .ofWrite s r

/-- An event record that takes a slot of the frame. -/
theorem State.WriteStep.ofEventSlot (s : State) (r : FbRec) :
    s.WriteStep (({ s with fb := { s.fb with eventSlots := s.fb.eventSlots + 1 } } : State).fbWrite r) :=
  (State.WriteStep.ofFb s { s.fb with eventSlots := s.fb.eventSlots + 1 } rfl).trans (.ofWrite _ r)

/-- While the pending buffer has room, an audit record breaks no freeze: SEQ and the triggers stay as they were. -/
theorem State.fbStore_of_room {s : State} (hroom : s.fb.pending.length < 64) (cmd : Bool) (r : FbRec) :
    (s.fbStore cmd r).fb.seq = s.fb.seq ∧
      ∀ (f : Field) (i : Nat), R.FB_ERR_STS_DROP.key 0 ≠ f.key i → (s.fbStore cmd r).get f i = s.get f i := by
  have hwrite : ∀ t, s.WriteStep t → t.fb.seq = s.fb.seq ∧
      ∀ (f : Field) (i : Nat), R.FB_ERR_STS_DROP.key 0 ≠ f.key i → t.get f i = s.get f i :=
    fun t ht => ⟨congrArg LogState.seq ht.log, ht.get⟩
  simp only [State.fbStore, hroom, if_true]
  split
  · exact hwrite _ (.ofDrop s r)
  · split
    · exact hwrite _ (.ofWrite s r)
    · split
      · exact ⟨rfl, fun _ _ _ => rfl⟩
      · split
        · exact hwrite _ (.ofBuffer s r)
        · split
          · exact hwrite _ (.ofWrite s r)
          · split
            · exact hwrite _ (.ofEventSlot s r)
            · exact ⟨rfl, fun _ _ _ => rfl⟩

/-! ## An EXPORT that is over stays over while records are stored (R311, R312) -/

/-- No EXPORT runs: FB_STS.EXPORT is clear and EXPORT_DONE stands. -/
structure State.ExportOver (s : State) : Prop where
  exporting : s.fb.exporting = false
  shown : s.get R.FB_STS_EXPORT = 0
  exNow : s.fb.exNow = 0
  done : s.get R.FB_ERR_STS_EXPORT_DONE = 1

/-- From `s` to `t` records are stored: the slices stay, and an EXPORT that is over stays over. -/
structure State.StoreStep (s t : State) : Prop where
  slices : t.hif.slices = s.hif.slices
  ended : s.ExportOver → t.ExportOver

theorem State.StoreStep.refl (s : State) : s.StoreStep s := ⟨rfl, id⟩

theorem State.StoreStep.trans {s t u : State} (h : s.StoreStep t) (g : t.StoreStep u) : s.StoreStep u :=
  ⟨g.slices.trans h.slices, fun hs => g.ended (h.ended hs)⟩

theorem State.StoreStep.ofFold {α : Type} (f : State → α → State) (h : ∀ (t : State) (x : α), t.StoreStep (f t x)) (l : List α)
    (s : State) : s.StoreStep (l.foldl f s) :=
  List.foldlRecOn l f (motive := s.StoreStep) (.refl s) (fun t ht x _ => ht.trans (h t x))

theorem State.WriteStep.store {s t : State} (h : s.WriteStep t) : s.StoreStep t :=
  ⟨congrArg LogState.slices h.log, fun hs => {
    exporting := (congrArg LogState.exporting h.log).trans hs.exporting
    shown := (h.get _ _ (by decide)).trans hs.shown
    exNow := (congrArg LogState.exNow h.log).trans hs.exNow
    done := (h.get _ _ (by decide)).trans hs.done }⟩

theorem State.StoreStep.ofSet (s : State) (f : Field) (i v : Nat) (hf : f.key i ≠ R.FB_STS_EXPORT.key 0)
    (hd : f.key i ≠ R.FB_ERR_STS_EXPORT_DONE.key 0) : s.StoreStep (s.set f i v) :=
  ⟨rfl, fun hs => ⟨hs.exporting, (State.get_set_other _ _ _ _ _ _ hf).trans hs.shown, hs.exNow,
    (State.get_set_other _ _ _ _ _ _ hd).trans hs.done⟩⟩

theorem State.StoreStep.ofEvent (s : State) (f en : Field) (vec mask : Nat) (hf : f.key 0 ≠ R.FB_STS_EXPORT.key 0)
    (hd : f.key 0 ≠ R.FB_ERR_STS_EXPORT_DONE.key 0) : s.StoreStep (s.event f en vec mask) :=
  ⟨congrArg LogState.slices (s.logState_event f en vec mask), fun hs => {
    exporting := (congrArg LogState.exporting (s.logState_event f en vec mask)).trans hs.exporting
    shown := (State.get_event_other _ _ _ _ _ _ _ hf).trans hs.shown
    exNow := (congrArg LogState.exNow (s.logState_event f en vec mask)).trans hs.exNow
    done := (State.get_event_other _ _ _ _ _ _ _ hd).trans hs.done }⟩

theorem State.StoreStep.ofPost (s : State) (p : Post) : s.StoreStep (s.post p) :=
  ⟨congrArg LogState.slices (s.logState_post p), fun hs => {
    exporting := (congrArg LogState.exporting (s.logState_post p)).trans hs.exporting
    shown := (s.get_post p _ _).trans hs.shown
    exNow := (congrArg LogState.exNow (s.logState_post p)).trans hs.exNow
    done := (s.get_post p _ _).trans hs.done }⟩

theorem State.StoreStep.ofMake (s : State) (diag fatal : Bool) (code sev scope p0 p1 p2 p3 set : Nat) (vals : List Nat) :
    s.StoreStep (s.fbMake diag fatal code sev scope p0 p1 p2 p3 set vals).2 :=
  ⟨rfl, fun hs => ⟨hs.exporting, hs.shown, hs.exNow, hs.done⟩⟩

theorem State.StoreStep.ofUnfreeze (s : State) : s.StoreStep s.unfreeze := by
  have hfb : s.StoreStep { s with fb := { s.fb with frozenAt := none, keep := false, endFreeze := false, clearOk := false } } :=
    ⟨rfl, fun hs => ⟨hs.exporting, hs.shown, hs.exNow, hs.done⟩⟩
  exact (hfb.trans (.ofSet _ _ _ _ (by decide) (by decide))).trans (.ofSet _ _ _ _ (by decide) (by decide))

theorem State.StoreStep.ofWritePending (s : State) : s.StoreStep s.fbWritePending := by
  have hfb : s.StoreStep { s with fb := { s.fb with pending := [] } } :=
    ⟨rfl, fun hs => ⟨hs.exporting, hs.shown, hs.exNow, hs.done⟩⟩
  exact hfb.trans (State.WriteStep.ofWriteAll _ _).store

theorem State.exportStop_slices (s : State) : s.exportStop.hif.slices = s.hif.slices :=
  congrArg LogState.slices (State.logState_event _ _ _ _ _)

theorem State.StoreStep.ofDiagnose (s : State) (fatal : Bool) (r : FbRec) : s.StoreStep (s.diagnose fatal r) :=
  .ofFold _ (fun t k => (State.StoreStep.ofMake t true fatal r.code r.sev r.scope r.p0 r.p1 r.p2 r.p3 (t.get R.FB_DIAG_TRIG_SET k)
    (t.selected (t.get R.FB_DIAG_TRIG_SET k))).trans (State.WriteStep.ofStoreDiag _ _).store) _ _

/-- What a break does first: an EXPORT under way stops, with its EXPORT record made and written out. -/
def State.breakExport (s : State) : List FbRec × State :=
  if s.fb.exporting then
    let e := (s.exportRecord true false).1
    let t := (s.exportRecord true false).2
    ([e], (t.postAdmin (t.fb.exAddr + t.fb.exCount * (if t.fb.exDiag then 320 else 64)) e.bytes).exportStop)
  else ([], s)

/-- What a break writes before its own record: the pending buffer, the new record, the EXPORT record. -/
def State.breakWritten (s : State) (r : FbRec) : State :=
  ((s.breakExport.2.unfreeze.fbWritePending).fbWrite r).fbWriteAll s.breakExport.1

/-- The FREEZE_BROKEN record, and the state with it made. -/
def State.breakRecord (s : State) (r : FbRec) : FbRec × State :=
  (s.breakWritten r).fbMake false false 0x0003 2 1024 (s.fb.frozenAt.getD 0) s.fb.pending.length 0 0 0 []

theorem State.fbBreak_eq (s : State) (r : FbRec) :
    s.fbBreak r = (s.breakExport.1 ++ [(s.breakRecord r).1]).foldl (fun t x => t.diagnose false x)
      (((s.breakRecord r).2.fbWrite (s.breakRecord r).1).fbErr R.FB_ERR_STS_FREEZE_BROKEN) := rfl

/-- An EXPORT under way is stopped by a break, one that is over stays over. -/
theorem State.StoreStep.ofBreakExport (s : State) : s.StoreStep s.breakExport.2 := by
  unfold State.breakExport
  split
  · next hrun =>
    exact ⟨(State.exportStop_slices _).trans (State.StoreStep.ofPost _ _).slices, fun hs => by simp [hs.exporting] at hrun⟩
  · exact .refl s

theorem State.StoreStep.ofBreak (s : State) (r : FbRec) : s.StoreStep (s.fbBreak r) := by
  have hwritten : s.StoreStep (s.breakWritten r) := (((State.StoreStep.ofBreakExport s).trans (.ofUnfreeze _)).trans
    (.ofWritePending _)).trans ((State.WriteStep.ofWrite _ r).trans (.ofWriteAll _ _)).store
  rw [State.fbBreak_eq]
  exact (((hwritten.trans (.ofMake _ _ _ _ _ _ _ _ _ _ _ _)).trans (State.WriteStep.ofWrite _ _).store).trans
    (.ofEvent _ _ _ _ _ (by decide) (by decide))).trans (.ofFold _ (fun t x => .ofDiagnose t false x) _ _)

theorem State.StoreStep.ofStore (s : State) (cmd : Bool) (r : FbRec) : s.StoreStep (s.fbStore cmd r) := by
  have hwait : s.StoreStep { s with fb := { s.fb with pending := s.fb.pending ++ [r] } } :=
    ⟨rfl, fun hs => ⟨hs.exporting, hs.shown, hs.exNow, hs.done⟩⟩
  unfold State.fbStore
  split
  · exact (State.WriteStep.ofDrop s r).store
  · split
    · exact (State.WriteStep.ofWrite s r).store
    · split
      · split
        · exact hwait
        · exact .ofBreak s r
      · split
        · exact (State.WriteStep.ofBuffer s r).store
        · split
          · exact (State.WriteStep.ofWrite s r).store
          · split
            · exact (State.WriteStep.ofEventSlot s r).store
            · split
              · exact hwait
              · exact (State.WriteStep.ofDrop s r).store

theorem State.StoreStep.ofRecord (s : State) (code sev scope p0 p1 p2 p3 : Nat) :
    s.StoreStep (s.record code sev scope p0 p1 p2 p3) := by
  have hmake := State.StoreStep.ofMake s false false code sev scope p0 p1 p2 p3 0 []
  exact (hmake.trans (.ofStore _ false (s.fbMake false false code sev scope p0 p1 p2 p3 0 []).1)).trans (.ofDiagnose _ false _)

/-! ## The end of an EXPORT (R311) -/

theorem State.exportStop_logState (s : State) : s.exportStop.logState = { s.logState with exporting := false, exNow := 0 } :=
  State.logState_event _ _ _ _ _

theorem State.exportStop_get (s : State) (f : Field) (i : Nat) (hf : R.FB_STS_EXPORT.key 0 ≠ f.key i)
    (hd : R.FB_ERR_STS_EXPORT_DONE.key 0 ≠ f.key i) : s.exportStop.get f i = s.get f i :=
  (State.get_event_other _ _ _ _ _ _ _ hd).trans (State.get_set_other _ _ _ _ _ _ hf)

theorem State.exportStop_over (s : State) : s.exportStop.ExportOver where
  exporting := congrArg LogState.exporting s.exportStop_logState
  shown := (State.get_event_other _ _ _ _ _ _ _ (by decide)).trans (State.get_set_self _ _ _ _ (by decide))
  exNow := congrArg LogState.exNow s.exportStop_logState
  done := by
    rw [State.exportStop, State.fbErr, State.get_event_self _ _ _ _ _ (by decide)]
    exact Nat.mod_two_eq_one_iff_testBit_zero.2 (by simp)

/-- The record of an EXPORT that ends, and the state with it made. -/
def State.lastRecord (s : State) (broken : Bool) : FbRec × State := s.exportRecord broken (decide (s.fb.exLeft = 0))

/-- The state in which the record of an EXPORT that ends is stored: the record is written out, and the EXPORT stopped. -/
def State.exportClosed (s : State) (broken : Bool) : State :=
  let t := (s.lastRecord broken).2
  let u := (t.postAdmin (t.fb.exAddr + t.fb.exCount * t.fb.exSize) (s.lastRecord broken).1.bytes).exportStop
  let oldest := u.fb.audit.foldl (fun m x => min m x.seq) u.fb.seq
  { u with fb := { u.fb with
    endFreeze := !u.fb.keep
    clearOk := u.fb.keep && !u.fb.exDiag && u.fb.exScope == devSession && decide (u.fb.exFrom ≤ oldest) && !broken &&
      !decide (s.fb.exLeft = 0) } }

theorem State.exportFinish_eq (s : State) (broken : Bool) :
    s.exportFinish broken =
      ((s.exportClosed broken).fbStore false (s.lastRecord broken).1).diagnose false (s.lastRecord broken).1 := rfl

theorem State.exportClosed_over (s : State) (broken : Bool) : (s.exportClosed broken).ExportOver := by
  obtain ⟨hexp, hshown, hnow, hdone⟩ := State.exportStop_over ((s.lastRecord broken).2.postAdmin
    ((s.lastRecord broken).2.fb.exAddr + (s.lastRecord broken).2.fb.exCount * (s.lastRecord broken).2.fb.exSize)
    (s.lastRecord broken).1.bytes)
  exact ⟨hexp, hshown, hnow, hdone⟩

theorem State.exportClosed_logState (s : State) (broken : Bool) :
    (s.exportClosed broken).logState = { s.logState with seq := s.fb.seq + 1, exporting := false, exNow := 0 } := by
  refine (State.exportStop_logState _).trans ?_
  rw [State.postAdmin, State.logState_post]
  rfl

theorem State.exportClosed_get (s : State) (broken : Bool) (f : Field) (i : Nat) (hf : R.FB_STS_EXPORT.key 0 ≠ f.key i)
    (hd : R.FB_ERR_STS_EXPORT_DONE.key 0 ≠ f.key i) : (s.exportClosed broken).get f i = s.get f i :=
  (State.exportStop_get _ f i hf hd).trans (State.get_post _ _ f i)

/-- The registers of the triggers stand behind the Fieldbook's others. -/
theorem diagTrig_key_ne {f : Field} (hf : f.key 0 < R.FB_DIAG_TRIG_EN.off * 64) (k : Nat) :
    f.key 0 ≠ R.FB_DIAG_TRIG_EN.key k ∧ f.key 0 ≠ R.FB_DIAG_TRIG_CODE.key k := by
  simp only [Field.key, R.FB_DIAG_TRIG_EN, R.FB_DIAG_TRIG_CODE] at *
  omega

/-- States whose registers differ before the triggers alone have the same triggers. -/
theorem State.triggers_of_get {s t : State} (hen : ∀ k, t.get R.FB_DIAG_TRIG_EN k = s.get R.FB_DIAG_TRIG_EN k)
    (hcode : ∀ k, t.get R.FB_DIAG_TRIG_CODE k = s.get R.FB_DIAG_TRIG_CODE k) (code : Nat) :
    t.triggers code = s.triggers code := by
  simp only [State.triggers, State.on, hen, hcode]

theorem State.diagnose_of_none {s : State} {r : FbRec} (h : s.triggers r.code = []) (fatal : Bool) : s.diagnose fatal r = s := by
  rw [State.diagnose, h]; rfl

theorem State.exportFinish_over (s : State) (broken : Bool) : (s.exportFinish broken).ExportOver := by
  rw [State.exportFinish_eq]
  exact ((State.StoreStep.ofStore _ false _).trans (.ofDiagnose _ false _)).ended (s.exportClosed_over broken)

/-- With room in the pending buffer and no trigger for it, the EXPORT record is the only one made. -/
theorem State.exportFinish_seq {s : State} (broken : Bool) (hroom : s.fb.pending.length < 64) (htrig : s.triggers 0x0002 = []) :
    (s.exportFinish broken).fb.seq = s.fb.seq + 1 := by
  have hpend : (s.exportClosed broken).fb.pending.length < 64 :=
    Nat.lt_of_le_of_lt (Nat.le_of_eq (congrArg (fun l : LogState => l.pending.length) (s.exportClosed_logState broken))) hroom
  obtain ⟨hseq, hget⟩ := State.fbStore_of_room hpend false (s.lastRecord broken).1
  have hquiet : ((s.exportClosed broken).fbStore false (s.lastRecord broken).1).triggers 0x0002 = [] := by
    rw [← htrig]
    have hexport := diagTrig_key_ne (f := R.FB_STS_EXPORT) (by decide)
    have hdone := diagTrig_key_ne (f := R.FB_ERR_STS_EXPORT_DONE) (by decide)
    have hdrop := diagTrig_key_ne (f := R.FB_ERR_STS_DROP) (by decide)
    exact State.triggers_of_get
      (fun k => (hget _ k (hdrop k).1).trans (s.exportClosed_get broken _ k (hexport k).1 (hdone k).1))
      (fun k => (hget _ k (hdrop k).2).trans (s.exportClosed_get broken _ k (hexport k).2 (hdone k).2)) 0x0002
  rw [State.exportFinish_eq, State.diagnose_of_none hquiet, hseq]
  exact congrArg LogState.seq (s.exportClosed_logState broken)

theorem State.ExportOver.wires {s : State} (h : s.ExportOver) : s.wires.ExportOver where
  exporting := by rw [State.wires_fb]; exact h.exporting
  shown := (s.get_wires _ _ (by decide)).trans h.shown
  exNow := by rw [State.wires_fb]; exact h.exNow
  done := (s.get_wires _ _ (by decide)).trans h.done

/-! ## The end of a freeze (R305, R312) -/

theorem State.unfreeze_frozen (s : State) : s.unfreeze.get R.FB_STS_FROZEN = 0 :=
  (State.get_set_other _ _ _ _ _ _ (by decide)).trans (State.get_set_self _ _ _ _ (by decide))

/-- The records that waited are written: the pending buffer is empty, and the rest of the log's state as before. -/
theorem State.WriteStep.ofAfterFreeze (s : State) :
    ({ s with fb := { s.fb with pending := [] } } : State).WriteStep s.fbAfterFreeze := by
  have hpend : ({ s with fb := { s.fb with pending := [] } } : State).WriteStep s.fbWritePending := .ofWriteAll _ _
  unfold State.fbAfterFreeze
  dsimp only
  split
  · exact hpend.trans ((State.WriteStep.ofFb s.fbWritePending
      { s.fbWritePending.fb with buffer := s.fbWritePending.fb.buffer.filter (fun r => !r.diag) } rfl).trans (.ofWriteAll _ _))
  · split
    · exact hpend.trans (.ofWriteBuffer _)
    · exact hpend

/-- A freeze ends that no EXPORT uses. -/
theorem State.thaw_of_still {s : State} (hfrozen : s.fb.frozenAt.isSome = true) (hexp : s.fb.exporting = false) :
    s.thaw = s.unfreeze.fbAfterFreeze := by
  have hafter : s.unfreeze.fbAfterFreeze.fb.exporting = false :=
    (congrArg LogState.exporting (State.WriteStep.ofAfterFreeze s.unfreeze).log).trans hexp
  have hsome : ¬s.fb.frozenAt.isNone = true := by
    rw [Option.isNone_iff_eq_none]; rintro h; simp [h] at hfrozen
  rw [State.thaw, if_neg hsome]
  exact if_neg (by rw [hafter]; decide)

theorem State.freezeTimeout_of_frozen {s : State} {f : Nat} (h : s.fb.frozenAt = some f) :
    s.freezeTimeout = if f + 4096 ≤ s.frameNo then s.thaw else s := by
  simp only [State.freezeTimeout, h]

theorem State.freezeTimeout_of_none {s : State} (h : s.fb.frozenAt = none) : s.freezeTimeout = s := by
  simp only [State.freezeTimeout, h]

/-- What the end of a freeze leaves: no freeze, FB_STS.FROZEN clear, no record that waits. -/
theorem State.unfreeze_fbAfterFreeze (s : State) :
    s.unfreeze.fbAfterFreeze.fb.frozenAt = none ∧ s.unfreeze.fbAfterFreeze.get R.FB_STS_FROZEN = 0 ∧
      s.unfreeze.fbAfterFreeze.fb.pending = [] := by
  have h := State.WriteStep.ofAfterFreeze s.unfreeze
  exact ⟨congrArg LogState.frozenAt h.log, (h.get _ _ (by decide)).trans s.unfreeze_frozen, congrArg LogState.pending h.log⟩

/-- Settles O44: the end of an EXPORT and of a freeze, the diagnostic buffer, the refusals, and stores that turn read-only. -/
theorem fieldbookEvents : Obligations.FieldbookEvents := by
  unfold Obligations.FieldbookEvents
  refine fun s store => ⟨fun hexp hcredit hlast hrate => ?ends, fun hno => ?goesOn, fun hexp => ?fails, fun hexp => ?noExport,
    fun f hf => ⟨fun hdue hexp => ?thaws, fun hearly => ?frozen⟩, fun hnone => ⟨?noFreeze, fun hfull => ?writesOut⟩,
    fun hno => ?stays, fun hframe hcount => ?counted, fun hno => ?notCounted, rfl, rfl, fun hstore => ?store⟩
  case ends =>
    have hend : s.exportEnd = s.exportFinish false := if_pos ⟨hexp, hcredit, hlast, hrate⟩
    have hover := (s.exportFinish_over false).wires
    refine ⟨_, congrArg ok hend, hover.exporting, ?_, hover.exNow, fun hroom htrig => ?_, hover.done⟩
    · rw [State.on, hover.shown]; rfl
    · rw [State.wires_fb]
      exact State.exportFinish_seq false hroom (List.eq_nil_of_length_eq_zero htrig)
  case goesOn =>
    have hno' : ¬(s.fb.exporting = true ∧ s.credit s.adminPort = true ∧ (s.fb.exLeft = 0 ∨ s.fb.toExport = []) ∧
        s.fb.exNow < s.fb.exRate) := by
      rintro ⟨h1, h2, h3, h4⟩
      rcases hno with h | h | ⟨h, h'⟩ | h
      · simp [h] at h1
      · simp [h] at h2
      · exact h3.elim h h'
      · omega
    exact congrArg ok (if_neg hno')
  case fails => exact congrArg ok (if_pos hexp)
  case noExport => exact congrArg ok (if_neg (by rw [hexp]; decide))
  case thaws =>
    have hthaw : s.freezeTimeout = s.unfreeze.fbAfterFreeze := by
      rw [State.freezeTimeout_of_frozen hf, if_pos hdue, State.thaw_of_still (by rw [hf]; rfl) hexp]
    obtain ⟨hfrozen, hshown, hpend⟩ := s.unfreeze_fbAfterFreeze
    refine ⟨congrArg ok hthaw, _, congrArg ok hthaw, ?_, ?_, ?_⟩
    · rw [State.wires_fb, hfrozen]
    · rw [State.on, State.get_wires _ _ _ (by decide), hshown]; rfl
    · rw [State.wires_fb, hpend]
  case frozen => exact congrArg ok ((State.freezeTimeout_of_frozen hf).trans (if_neg (Nat.not_le.2 hearly)))
  case noFreeze => exact congrArg ok (State.freezeTimeout_of_none hnone)
  case writesOut => exact congrArg ok (if_pos (by simp [hfull, hnone]))
  case stays =>
    refine congrArg ok (if_neg ?_)
    rcases hno with h | h
    · simp [Nat.not_lt.2 h]
    · obtain ⟨f, hf⟩ := Option.isSome_iff_exists.1 h
      simp [hf]
  case counted => exact congrArg ok (if_pos ⟨hframe, hcount⟩)
  case notCounted => exact congrArg ok (if_neg (fun ⟨h1, h2⟩ => hno.elim (fun h => h h1) h2))
  case store =>
    have hro : s.storeReadOnly store = s.record 0x0805 3 1024 store := by
      rw [State.storeReadOnly, if_neg (by omega), if_neg (by omega)]
      rfl
    exact congrArg ok hro

end Sys2Proof.Machine

namespace Sys2Proof.Machine

/-! ## Sparse tables read after a cut (R373) -/

/-- Of a table cut by its keys, the keys kept read as before and the others as unlisted. -/
theorem Tab.get_filter_key {α : Type} (d : α) (p : Nat → Bool) (t : Tab α) (k : Nat) :
    Tab.get d (t.filter (fun e => p e.1)) k = if p k then Tab.get d t k else d := by
  induction t with
  | nil => simp [Tab.get]
  | cons e t ih =>
    obtain ⟨j, v⟩ := e
    by_cases hj : j = k
    · subst hj; cases hp : p j <;> simp [hp, Tab.get, ih]
    · cases hp : p j <;> simp [hp, Tab.get, hj, ih]

/-- What holds of the default and of every listed value holds of what any key reads as. -/
theorem Tab.get_of_forall {α : Type} {P : α → Prop} {d : α} {t : Tab α} (hd : P d) (ht : ∀ e ∈ t, P e.2) (k : Nat) :
    P (Tab.get d t k) := by
  induction t with
  | nil => exact hd
  | cons e t ih =>
    obtain ⟨j, v⟩ := e
    rw [Tab.get]
    split
    · exact ht _ List.mem_cons_self
    · exact ih (fun e he => ht e (List.mem_cons_of_mem _ he))

/-! ## What ends in order before a reset changes (R205, R244, R313) -/

/-- The state without what ends in order at a reset: registers, staged writes, host interface, Fieldbook, sessions, and of the key store
all but Datum. -/
def State.durable (s : State) : State :=
  { s with free := 0, regs := [], shadows := [], cover := [], hif := {}, fb := {}, sessions := [], ks := { datum := s.ks.datum } }

/-- From `s` to `t` something ends in order. -/
structure State.EndStep (s t : State) : Prop where
  durable : t.durable = s.durable
  lifecycle : t.get R.LC_STATE_CODE = s.get R.LC_STATE_CODE

theorem State.EndStep.refl (s : State) : s.EndStep s := ⟨rfl, rfl⟩

theorem State.EndStep.trans {s t u : State} (h : s.EndStep t) (g : t.EndStep u) : s.EndStep u :=
  ⟨g.durable.trans h.durable, g.lifecycle.trans h.lifecycle⟩

theorem State.EndStep.ofFold {α : Type} (f : State → α → State) (h : ∀ (t : State) (x : α), t.EndStep (f t x)) (l : List α)
    (s : State) : s.EndStep (l.foldl f s) :=
  List.foldlRecOn l f (motive := s.EndStep) (.refl s) (fun t ht x _ => ht.trans (h t x))

theorem State.EndStep.glb {s t : State} (h : s.EndStep t) : t.glb = s.glb :=
  show t.durable.glb = s.durable.glb by rw [h.durable]

theorem State.EndStep.frameNo {s t : State} (h : s.EndStep t) : t.frameNo = s.frameNo :=
  show t.durable.frameNo = s.durable.frameNo by rw [h.durable]

theorem State.LogStep.ends {s t : State} (h : s.LogStep t) : s.EndStep t :=
  ⟨(congrArg State.durable h.rest).trans rfl, h.get _ _ (by decide)⟩

theorem State.EndStep.ofSet (s : State) (f : Field) (i v : Nat) (hf : f.key i ≠ R.LC_STATE_CODE.key 0) : s.EndStep (s.set f i v) :=
  ⟨rfl, State.get_set_other _ _ _ _ _ _ hf⟩

theorem State.EndStep.ofEvent (s : State) (f en : Field) (vec mask : Nat) (hf : f.key 0 ≠ R.LC_STATE_CODE.key 0) :
    s.EndStep (s.event f en vec mask) := by
  simp only [State.event]
  have hset := State.EndStep.ofSet s f 0 (s.get f ||| mask) hf
  split
  · exact hset
  · exact hset.trans (State.LogStep.ofMsix ..).ends

theorem State.EndStep.ofDiscard (s : State) (scope id : Nat) : s.EndStep (s.discardCovered scope id) := by
  have hcut : ∀ shadows cover, s.EndStep { s with shadows := shadows, cover := cover } := fun _ _ => ⟨rfl, rfl⟩
  unfold State.discardCovered
  dsimp only
  split
  · exact .refl s
  · exact ((hcut _ _).trans (.ofSet _ R.GLB_CFG_STS_STALE 0 1 (by decide))).trans (State.LogStep.ofRecord ..).ends

theorem State.EndStep.ofSession (s : State) (scope : Nat) : s.EndStep (s.endSession scope) := by
  have hcut : ∀ sessions accums, s.EndStep { s with sessions := sessions, ks := { s.ks with accums := accums } } :=
    fun _ _ => ⟨rfl, rfl⟩
  unfold State.endSession
  dsimp only
  split
  · exact .refl s
  · exact (((hcut _ _).trans (.ofEvent _ R.LC_EVT_STS_SESSION R.LC_IRQ_EN_EN 4 1 (by decide))).trans
      (State.LogStep.ofRecord ..).ends).trans (.ofDiscard _ _ _)

theorem State.EndStep.ofAbandon (s : State) (w : Window) (gone : Bool) : s.EndStep (s.abandon w gone) := by
  have hcut : ∀ windows, s.EndStep { s with ks := { s.ks with windows := windows } } := fun _ => ⟨rfl, rfl⟩
  unfold State.abandon
  split
  · exact .refl s
  · dsimp only
    split
    · exact (hcut _).trans (State.LogStep.ofRecord ..).ends
    · exact hcut _

/-- Sessions, counter windows and a freeze end. -/
theorem State.EndStep.ofResetEnds (s : State) : s.EndStep s.resetEnds := by
  have hsessions : s.EndStep (s.endSessions (fun _ => true)) := .ofFold _ (fun t n => .ofSession t n) _ _
  have hwindows := hsessions.trans (.ofFold (fun t w => t.abandon w true) (fun t w => .ofAbandon t w true)
    (s.endSessions (fun _ => true)).ks.windows _)
  unfold State.resetEnds
  dsimp only
  generalize (s.endSessions (fun _ => true)).ks.windows.foldl (fun t w => t.abandon w true) (s.endSessions (fun _ => true)) = u at hwindows
  have hexport : s.EndStep (if u.fb.exporting then u.exportStop else u) := by
    split
    · exact hwindows.trans (State.LogStep.ofExportStop u).ends
    · exact hwindows
  exact hexport.trans ((State.LogStep.ofUnfreeze _).trans (.ofWritePending _)).ends

/-! ## What a reset leaves, outside the registers (R199, R373) -/

/-- What a reset leaves of the state of `s`, outside the registers. -/
structure State.LeftByReset (s t : State) : Prop where
  trv : t.trv = { nextId := s.trv.nextId }
  shadows : t.shadows = []
  cover : t.cover = []
  sessions : t.sessions = []
  rst : t.glb.rst = none
  disabled : ∀ n, t.enabled n = false
  krc : t.ks.krc = []
  windows : t.ks.windows = []
  accums : t.ks.accums = []
  tuStore : t.tuStore = {}
  pkStore : t.pkStore = {}
  luStore : t.luStore = {}
  datum : t.ks.datum = s.ks.datum
  flash : t.upd.flash = s.upd.flash
  journal : t.upd.journal = s.upd.journal
  otp : t.otp = s.otp
  copies : t.lc.copies = s.lc.copies
  lines : t.fab.lines = s.fab.lines
  pending : t.pending = s.pending
  ram : t.fab.ram = s.fab.ram.filter (fun c => decide (0x05800000 ≤ c.1))

/-- The state without what start-up still changes before a reset is over: the registers, the free numbers, the Fieldbook, the queues of
the host interface, the random numbers, the Net, the tamper latch and the key domains. -/
def State.lasting (s : State) : State :=
  { s with free := 0, regs := [], hif := { slices := s.hif.slices }, fb := {}, rng := {}, net := {}, tmp := {},
           ks := { s.ks with domains := [] } }

theorem State.wires_lasting (s : State) : s.wires.lasting = s.lasting := by
  simp only [State.lasting, State.wires_pending, State.wires_frameNo, State.wires_shadows, State.wires_cover, State.wires_glb,
    State.wires_hif, State.wires_trv, State.wires_tuStore, State.wires_pkStore, State.wires_luStore, State.wires_tiles,
    State.wires_ks, State.wires_otp, State.wires_sessions, State.wires_lc, State.wires_fab, State.wires_upd, State.wires_dose,
    State.wires_clk]

theorem State.glb_of_lasting {t u : State} (e : u.lasting = t.lasting) : u.glb = t.glb :=
  show u.lasting.glb = t.lasting.glb by rw [e]

theorem State.frameNo_of_lasting {t u : State} (e : u.lasting = t.lasting) : u.frameNo = t.frameNo :=
  show u.lasting.frameNo = t.lasting.frameNo by rw [e]

theorem State.LeftByReset.of_lasting {s t u : State} (h : s.LeftByReset t) (e : u.lasting = t.lasting) : s.LeftByReset u := by
  have hl : s.LeftByReset t.lasting := { h with }
  rw [← e] at hl
  exact { hl with }

/-- What a reset leaves does not ask what ended in order before it. -/
theorem State.EndStep.leftByReset {s u t : State} (h : s.EndStep u) (g : u.LeftByReset t) : s.LeftByReset t := by
  have hd : u.durable.LeftByReset t := { g with }
  rw [h.durable] at hd
  exact { hd with }

/-- Every slice of the host interface is disabled by a reset. -/
theorem Hif.afterReset_disabled (h : Hif) (warm link : Bool) (n : Nat) :
    (Tab.get {} (h.afterReset warm link).slices n).st = .disabled := by
  refine Tab.get_of_forall (P := fun x : Slice => x.st = .disabled) rfl (fun e he => ?_) n
  cases warm
  · simp [Hif.afterReset] at he
  · have hkept : e ∈ Tab.mapv {} (fun x : Slice => { gen := x.gen }) h.slices := he
    obtain ⟨x, _, hx⟩ := List.mem_map.1 (List.mem_filter.1 hkept).1
    rw [← hx]

theorem State.volatileReset_frameNo_eq (s : State) (warm : Bool) (cause : Nat) :
    (s.volatileReset warm cause).frameNo = if warm then s.frameNo else 0 :=
  State.showHomePends_keeps State.frameNo (fun _ _ => rfl) _ _

theorem State.volatileReset_leftByReset (s : State) (warm : Bool) (cause : Nat) : s.LeftByReset (s.volatileReset warm cause) where
  trv := s.volatileReset_trv warm cause
  shadows := State.showHomePends_keeps State.shadows (fun _ _ => rfl) _ _
  cover := State.showHomePends_keeps State.cover (fun _ _ => rfl) _ _
  sessions := s.volatileReset_sessions warm cause
  rst := State.showHomePends_keeps (fun t => t.glb.rst) (fun _ _ => rfl) _ _
  disabled n := by
    have hslices : (s.volatileReset warm cause).hif = s.hif.afterReset warm (cause != 8) :=
      State.showHomePends_keeps State.hif (fun _ _ => rfl) _ _
    rw [State.enabled, State.slice, hslices, Hif.afterReset_disabled]
    rfl
  krc := State.showHomePends_keeps (fun t => t.ks.krc) (fun _ _ => rfl) _ _
  windows := State.showHomePends_keeps (fun t => t.ks.windows) (fun _ _ => rfl) _ _
  accums := State.showHomePends_keeps (fun t => t.ks.accums) (fun _ _ => rfl) _ _
  tuStore := State.showHomePends_keeps State.tuStore (fun _ _ => rfl) _ _
  pkStore := State.showHomePends_keeps State.pkStore (fun _ _ => rfl) _ _
  luStore := State.showHomePends_keeps State.luStore (fun _ _ => rfl) _ _
  datum := s.volatileReset_datum warm cause
  flash := s.volatileReset_flash warm cause
  journal := State.showHomePends_keeps (fun t => t.upd.journal) (fun _ _ => rfl) _ _
  otp := s.volatileReset_otp warm cause
  copies := s.volatileReset_copies warm cause
  lines := State.showHomePends_keeps (fun t => t.fab.lines) (fun _ _ => rfl) _ _
  pending := State.showHomePends_keeps State.pending (fun _ _ => rfl) _ _
  ram := State.showHomePends_keeps (fun t => t.fab.ram) (fun _ _ => rfl) _ _

/-! ## The registers a reset keeps (R373) -/

/-- A field whose key a reset keeps reads as before. -/
theorem State.resetRegs_get_kept (s : State) (f : Field) (cause : Nat)
    (hf : keptWarm (f.key 0 / 64) (f.key 0 % 64) = true) : (s.resetRegs true cause).get f = s.get f := by
  have hkept := Tab.get_filter_key (0 : BitVec 64)
    (fun k => keptWarm (k / 64) (k % 64) || (cause != 8 && s.linkUp 0 && keptLink (k / 64) (k % 64))) s.regs (f.key 0)
  rw [hf, Bool.true_or, if_pos rfl] at hkept
  exact congrArg (fun v => (v ^^^ BitVec.ofNat 64 f.reset).toNat) hkept

/-- A field whose key a cold reset does not keep reads as its reset value. -/
theorem State.resetRegs_get_cleared (s : State) (f : Field) (cause : Nat)
    (hf : keptCold (f.key 0 / 64) (f.key 0 % 64) = false) :
    (s.resetRegs false cause).get f = (0 ^^^ BitVec.ofNat 64 f.reset).toNat := by
  have hcut := Tab.get_filter_key (0 : BitVec 64) (fun k => keptCold (k / 64) (k % 64)) s.regs (f.key 0)
  rw [hf, if_neg Bool.false_ne_true] at hcut
  exact congrArg (fun v => (v ^^^ BitVec.ofNat 64 f.reset).toNat) hcut

theorem State.showPend_get (s : State) (n : Nat) {f : Field} (hf : f.key 0 < R.NET_SLICE_PEND.off * 64) :
    (s.showPend n).get f = s.get f := by
  refine State.get_set_other _ _ _ _ _ _ ?_
  simp only [Field.key, R.NET_SLICE_PEND] at *
  omega

/-- Of the fields before the Net's, a reset sets its cause and the number of waiting draws alone. -/
theorem State.volatileReset_get (s : State) (warm : Bool) (cause : Nat) {f : Field} (hf : f.key 0 < R.NET_SLICE_PEND.off * 64)
    (hcause : R.GLB_RST_STS_CAUSE.key 0 ≠ f.key 0) (hwait : R.RNG_POOL_STS_WAITING.key 0 ≠ f.key 0) :
    (s.volatileReset warm cause).get f = (s.resetRegs warm cause).get f := by
  simp only [State.volatileReset, State.setWaiting]
  rw [State.get_set_other _ _ _ _ _ _ hwait]
  refine (State.get_set_other _ _ _ _ _ _ hcause).trans ?_
  exact State.showHomePends_keeps (fun t => t.get f) (fun t n => t.showPend_get n hf) _ _

/-! ## The keys invalidated before a warm reset (R199, R200) -/

theorem State.bumpDomain_keeps (s : State) (n : Nat) : (s.bumpDomain n).lasting = s.lasting ∧ (s.bumpDomain n).regs = s.regs := by
  simp only [State.bumpDomain]
  split
  · exact ⟨rfl, rfl⟩
  · split <;> exact ⟨rfl, rfl⟩

theorem State.freeIndex_keeps (s : State) (n i : Nat) : (s.freeIndex n i).lasting = s.lasting ∧ (s.freeIndex n i).regs = s.regs := by
  simp only [State.freeIndex]
  split
  · exact ⟨rfl, rfl⟩
  · split <;> exact ⟨rfl, rfl⟩

/-- A fold of steps that keep both keeps both. -/
theorem State.foldl_lasting_regs {α : Type} {f : State → α → State} (h : ∀ t x, (f t x).lasting = t.lasting ∧ (f t x).regs = t.regs)
    (l : List α) (s : State) : (l.foldl f s).lasting = s.lasting ∧ (l.foldl f s).regs = s.regs :=
  List.foldlRecOn l f (motive := fun t => t.lasting = s.lasting ∧ t.regs = s.regs) ⟨rfl, rfl⟩
    (fun t ht x _ => ⟨(h t x).1.trans ht.1, (h t x).2.trans ht.2⟩)

theorem State.warmKeys_keeps (s : State) : s.warmKeys.lasting = s.lasting ∧ s.warmKeys.regs = s.regs := by
  obtain ⟨hl, hr⟩ := State.foldl_lasting_regs State.bumpDomain_keeps (s.ks.domains.map Prod.fst) s
  unfold State.warmKeys
  dsimp only
  generalize (s.ks.domains.map Prod.fst).foldl (fun u n => u.bumpDomain n) s = u at hl hr
  obtain ⟨hl', hr'⟩ := State.foldl_lasting_regs (fun (t : State) n => State.foldl_lasting_regs (fun v i => v.freeIndex_keeps n i)
    ((t.domain n).dying.map (·.index)) t) (u.ks.domains.map Prod.fst) u
  exact ⟨hl'.trans hl, hr'.trans hr⟩

/-! ## The resets performed (R373) -/

/-- Start-up after a reset: what it finds outside, and the stage that comes first. -/
def State.startsAt (s : State) (boot : BootEnv) (stage : Nat) : State :=
  ({ s with glb := { s.glb with boot := boot } } : State).set R.GLB_STS_STAGE 0 stage

/-- A reset from the safe-state wait is recorded. -/
def State.waitRecorded (s : State) (wait : Bool) : State := if wait then s.clkRecord 5 else s

theorem State.waitRecorded_lasting (s : State) (wait : Bool) : (s.waitRecorded wait).lasting = s.lasting := by
  unfold State.waitRecorded
  split
  · have hlog : s.LogStep (s.clkRecord 5) := .ofRecord ..
    have hslices : (s.clkRecord 5).hif.slices = s.hif.slices := (State.StoreStep.ofRecord ..).slices
    refine (congrArg State.lasting hlog.rest).trans ?_
    simp only [State.lasting, hslices]
  · rfl

theorem State.waitRecorded_get (s : State) (wait : Bool) {f : Field} (hf : f.key 0 / 64 / 0x10000 ≠ 0xF) :
    (s.waitRecorded wait).get f = s.get f := by
  unfold State.waitRecorded
  split
  · exact (State.LogStep.ofRecord ..).get f 0 hf
  · rfl

theorem State.bumpSat_lasting (s : State) (f : Field) (i : Nat) : (s.bumpSat f i).lasting = s.lasting := by
  unfold State.bumpSat; split <;> rfl

theorem State.bumpSat_get (s : State) (f g : Field) (h : f.key 0 ≠ g.key 0) : (s.bumpSat f).get g = s.get g := by
  unfold State.bumpSat
  split
  · exact State.get_set_other _ _ _ _ _ _ h
  · rfl

/-- The state a reset leaves before the stage that comes first: at a warm one the keys invalidated before it take effect, and it is
counted. -/
def State.resetDone (s : State) (warm : Bool) (cause : Nat) : State :=
  if warm then ((s.resetEnds.volatileReset true cause).warmKeys).bumpSat R.GLB_RST_STS_WARM_COUNT
  else s.resetEnds.volatileReset false cause

theorem State.resetDone_lasting (s : State) (warm : Bool) (cause : Nat) :
    (s.resetDone warm cause).lasting = (s.resetEnds.volatileReset warm cause).lasting := by
  cases warm
  · rfl
  · exact (State.bumpSat_lasting _ _ _).trans (State.warmKeys_keeps _).1

theorem State.resetDone_get (s : State) (warm : Bool) (cause : Nat) {f : Field}
    (hf : R.GLB_RST_STS_WARM_COUNT.key 0 ≠ f.key 0) :
    (s.resetDone warm cause).get f = (s.resetEnds.volatileReset warm cause).get f := by
  cases warm
  · rfl
  · exact (State.bumpSat_get _ _ _ hf).trans (State.get_of_regs (State.warmKeys_keeps _).2 f 0)

/-- A reset performed: start-up finds `boot` outside, and goes on from a stage. -/
def State.resetTo (s : State) (warm : Bool) (cause : Nat) (boot : BootEnv) (stage : Nat) : State :=
  ((s.resetDone warm cause).startsAt boot stage).waitRecorded s.clk.safe.isSome

theorem State.coldReset_eq (s : State) (cause : Nat) (boot : BootEnv) : s.coldReset cause boot = s.resetTo false cause boot 0 := rfl

theorem State.warmReset_eq (s : State) (cause : Nat) (boot : BootEnv) :
    s.warmReset cause boot = s.resetTo true cause boot (if s.stage == 0xB then 0xB else 2) := rfl

section
variable (s : State) (warm : Bool) (cause : Nat) (boot : BootEnv) (stage : Nat)

theorem State.resetTo_lasting :
    (s.resetTo warm cause boot stage).wires.lasting = ((s.resetDone warm cause).startsAt boot stage).lasting :=
  (State.wires_lasting _).trans (State.waitRecorded_lasting _ _)

theorem State.resetTo_leftByReset : s.LeftByReset (s.resetTo warm cause boot stage).wires := by
  have hreset := (State.EndStep.ofResetEnds s).leftByReset (s.resetEnds.volatileReset_leftByReset warm cause)
  have hdone := hreset.of_lasting (s.resetDone_lasting warm cause)
  have hstart : s.LeftByReset ((s.resetDone warm cause).startsAt boot stage) := { hdone with }
  exact hstart.of_lasting (s.resetTo_lasting warm cause boot stage)

theorem State.resetTo_boot : (s.resetTo warm cause boot stage).wires.glb.boot = boot := by
  rw [State.glb_of_lasting (s.resetTo_lasting warm cause boot stage)]
  rfl

theorem State.resetTo_badSeen : (s.resetTo warm cause boot stage).wires.glb.badSeen = (warm && s.glb.badSeen) := by
  rw [State.glb_of_lasting (s.resetTo_lasting warm cause boot stage), ← (State.EndStep.ofResetEnds s).glb,
    ← s.resetEnds.volatileReset_badSeen warm cause, ← State.glb_of_lasting (s.resetDone_lasting warm cause)]
  rfl

theorem State.resetTo_frameNo : (s.resetTo warm cause boot stage).wires.frameNo = if warm then s.frameNo else 0 := by
  rw [State.frameNo_of_lasting (s.resetTo_lasting warm cause boot stage), ← (State.EndStep.ofResetEnds s).frameNo,
    ← s.resetEnds.volatileReset_frameNo_eq warm cause, ← State.frameNo_of_lasting (s.resetDone_lasting warm cause)]
  rfl

/-- What follows the volatile reset writes STAGE, WARM_COUNT, the Fieldbook's registers and the outputs. -/
theorem State.resetTo_get {f : Field} (hwire : f.key 0 ∉ wiredKeys) (hlog : f.key 0 / 64 / 0x10000 ≠ 0xF)
    (hstage : R.GLB_STS_STAGE.key 0 ≠ f.key 0) (hcount : R.GLB_RST_STS_WARM_COUNT.key 0 ≠ f.key 0) :
    (s.resetTo warm cause boot stage).wires.get f = (s.resetEnds.volatileReset warm cause).get f :=
  calc (s.resetTo warm cause boot stage).wires.get f
    _ = ((s.resetDone warm cause).startsAt boot stage).get f :=
      (State.get_wires _ f 0 hwire).trans (State.waitRecorded_get _ _ hlog)
    _ = (s.resetDone warm cause).get f := State.get_set_other _ _ _ _ _ _ hstage
    _ = (s.resetEnds.volatileReset warm cause).get f := s.resetDone_get warm cause hcount

theorem State.resetTo_cause (hcause : cause < 16) : (s.resetTo warm cause boot stage).wires.get R.GLB_RST_STS_CAUSE = cause :=
  (s.resetTo_get warm cause boot stage (by decide) (by decide) (by decide) (by decide)).trans
    ((s.resetEnds.volatileReset_cause warm cause).trans (Nat.mod_eq_of_lt hcause))

theorem State.resetTo_stage (hstage : stage < 16) : (s.resetTo warm cause boot stage).wires.get R.GLB_STS_STAGE = stage :=
  calc (s.resetTo warm cause boot stage).wires.get R.GLB_STS_STAGE
    _ = ((s.resetDone warm cause).startsAt boot stage).get R.GLB_STS_STAGE :=
      (State.get_wires _ _ 0 (by decide)).trans (State.waitRecorded_get _ _ (by decide))
    _ = stage % 16 := State.get_set_self _ _ _ _ (by decide)
    _ = stage := Nat.mod_eq_of_lt hstage
end

theorem State.coldReset_serviceReady (s : State) (cause : Nat) (boot : BootEnv) :
    (s.resetTo false cause boot 0).wires.get R.GLB_STS_SERVICE_READY = 0 :=
  (s.resetTo_get false cause boot 0 (by decide) (by decide) (by decide) (by decide)).trans
    ((State.volatileReset_get _ false cause (by decide) (by decide) (by decide)).trans
      ((State.resetRegs_get_cleared _ _ cause (by decide)).trans rfl))

theorem State.warmReset_lifecycle (s : State) (cause : Nat) (boot : BootEnv) (stage : Nat) :
    (s.resetTo true cause boot stage).wires.get R.LC_STATE_CODE = s.get R.LC_STATE_CODE :=
  calc (s.resetTo true cause boot stage).wires.get R.LC_STATE_CODE
    _ = (s.resetEnds.volatileReset true cause).get R.LC_STATE_CODE :=
      s.resetTo_get true cause boot stage (by decide) (by decide) (by decide) (by decide)
    _ = (s.resetEnds.resetRegs true cause).get R.LC_STATE_CODE :=
      State.volatileReset_get _ true cause (by decide) (by decide) (by decide)
    _ = s.resetEnds.get R.LC_STATE_CODE := State.resetRegs_get_kept _ _ cause (by decide)
    _ = s.get R.LC_STATE_CODE := (State.EndStep.ofResetEnds s).lifecycle

/-- Settles O53: both resets leave the same outside the registers; a cold one starts at stage 0 of frame 0, a warm one goes on at stage 2
with the lifecycle and the frame number kept. -/
theorem resetsPerformed : Obligations.ResetsPerformed := by
  unfold Obligations.ResetsPerformed
  intro s cause boot hcause
  refine ⟨fun hon => ?cold, fun hon hwarm => ?warm, fun hoff => ?noPower, fun hno => ?notWarm⟩
  case cold =>
    have hrow : exec (.coldReset cause boot) s = .next (s.resetTo false cause boot 0).wires := congrArg ok (if_pos hon)
    have h := s.resetTo_leftByReset false cause boot 0
    exact ⟨_, hrow, ⟨h.trv, h.shadows, h.cover, h.sessions, h.rst, s.resetTo_boot .., s.resetTo_cause false cause boot 0 hcause,
      h.disabled, h.krc, h.windows, h.accums, h.tuStore, h.pkStore, h.luStore, h.datum, h.flash, h.journal, h.otp, h.copies,
      h.lines, h.pending, h.ram⟩, s.resetTo_frameNo .., s.resetTo_stage _ _ _ _ (by decide), s.coldReset_serviceReady cause boot,
      s.resetTo_badSeen ..⟩
  case warm =>
    have hrow : exec (.warmReset cause boot) s = .next (s.warmReset cause boot).wires := congrArg ok (if_pos ⟨hon, hwarm⟩)
    rw [State.warmReset_eq] at hrow
    have hstage : (s.resetTo true cause boot (if s.stage == 0xB then 0xB else 2)).wires.get R.GLB_STS_STAGE =
        (if s.stage = 0xB then 0xB else 2) := by
      rw [State.resetTo_stage _ _ _ _ _ (by split <;> decide)]
      simp only [beq_iff_eq]
    have h := s.resetTo_leftByReset true cause boot (if s.stage == 0xB then 0xB else 2)
    exact ⟨_, hrow, ⟨h.trv, h.shadows, h.cover, h.sessions, h.rst, s.resetTo_boot .., s.resetTo_cause true cause boot _ hcause,
      h.disabled, h.krc, h.windows, h.accums, h.tuStore, h.pkStore, h.luStore, h.datum, h.flash, h.journal, h.otp, h.copies,
      h.lines, h.pending, h.ram⟩, s.resetTo_frameNo .., hstage, s.warmReset_lifecycle cause boot _, s.resetTo_badSeen ..⟩
  case noPower => exact congrArg ok (if_neg (by rw [hoff]; decide))
  case notWarm =>
    have hno' : ¬(s.glb.powered = true ∧ s.warmAllowed = true) := by
      rintro ⟨hp, hw⟩
      rcases hno with h | h
      · simp [h] at hp
      · simp [h] at hw
    exact congrArg ok (if_neg hno')

end Sys2Proof.Machine

namespace Sys2Proof.Machine

/-! ## The stores of random bytes (R219, R220) -/

theorem segLen_eq_sum (l : List RndSeg) : segLen l = (l.map RndSeg.len).sum := by
  rw [segLen, ← List.foldl_map (f := RndSeg.len) (g := fun n k => n + k), ← List.sum_eq_foldl]

theorem segLen_nil : segLen [] = 0 := rfl

theorem segLen_cons (g : RndSeg) (gs : List RndSeg) : segLen (g :: gs) = g.len + segLen gs := by
  simp only [segLen_eq_sum, List.map_cons, List.sum_cons]

/-- The earliest bytes of a store and the rest make up its bytes. -/
theorem segLen_segTake (n : Nat) (l : List RndSeg) :
    segLen (segTake n l).1 = min n (segLen l) ∧ segLen (segTake n l).2 = segLen l - n := by
  induction l generalizing n with
  | nil => simp [segTake, segLen_nil]
  | cons g gs ih =>
    obtain ⟨htaken, hleft⟩ := ih (n - g.len)
    rw [segTake]
    split
    next h0 => simp [segLen_nil, h0]
    next =>
      split
      next hall => simp only [segLen_cons, htaken, hleft]; omega
      next => simp only [segLen_cons, segLen_nil]; omega

theorem RndSeg.bytes_length (g : RndSeg) : g.bytes.length = g.len := by
  simp only [RndSeg.bytes, cut, List.length_take, List.length_drop, List.length_flatMap, fitTo_length, List.map_const',
    List.sum_replicate_nat, List.length_range, ceilDiv]
  omega

theorem segBytes_length (l : List RndSeg) : (l.flatMap RndSeg.bytes).length = segLen l := by
  simp only [List.length_flatMap, RndSeg.bytes_length, segLen_eq_sum]

theorem freeBytes_length (n k : Nat) : (freeBytes n k).length = n := by
  induction n generalizing k with
  | zero => rfl
  | succ n ih => rw [freeBytes, List.length_cons, ih]

/-- A store answers as many bytes as it is asked for. -/
theorem State.storeBytes_length (s : State) (n : Nat) (l : List RndSeg) : (s.storeBytes n l).1.length = n := by
  have htaken := (segLen_segTake n l).1
  simp only [State.storeBytes, List.length_append, segBytes_length, freeBytes_length]
  omega

/-! ## Draws from the administrative pool (R220, R221) -/

theorem State.drawPool_length (s : State) (n : Nat) : (s.drawPool n).1.length = n := s.storeBytes_length n s.rng.admin

theorem State.drawPool_pool (s : State) (n : Nat) : (s.drawPool n).2.rng.pool = s.rng.pool - n :=
  (segLen_segTake n s.rng.admin).2

theorem State.drawPool_count (s : State) (n : Nat) :
    (s.drawPool n).2.get R.RNG_CNT_OUT_COUNT = (s.get R.RNG_CNT_OUT_COUNT + n) % 2 ^ 64 :=
  State.get_set_self _ _ _ _ (by decide)

theorem State.serveDraws_of_held {s : State} {n : Nat} (op : AdminOp) (rest : List (Nat × AdminOp)) (h : n ≤ s.rng.pool) :
    s.serveDraws ((n, op) :: rest) =
      ((op, (s.drawPool n).1) :: ((s.drawPool n).2.serveDraws rest).1, ((s.drawPool n).2.serveDraws rest).2) := by
  rw [State.serveDraws, if_pos h]

theorem State.serveDraws_of_short {s : State} {n : Nat} (op : AdminOp) (rest : List (Nat × AdminOp)) (h : s.rng.pool < n) :
    s.serveDraws ((n, op) :: rest) =
      ([], ({ s with rng := { s.rng with called := false } }).setWaiting ((n, op) :: rest)) := by
  rw [State.serveDraws, if_neg (Nat.not_le.2 h)]

/-- Settles O33: the call of the first waiting draw, and the draws that a boundary serves one after the other. -/
theorem adminDraws : Obligations.AdminDraws := by
  unfold Obligations.AdminDraws
  refine fun s => ⟨fun n op rest hw hs => ⟨fun hn => congrArg ok ?called, fun hn => congrArg ok ?short⟩,
    fun h => congrArg ok ?none, fun n op rest => ⟨fun hn => ?held, fun hn => ?waits⟩⟩
  case called => simp only [State.serveFirst, hw, hs, hn, true_and, if_true]
  case short => simp only [State.serveFirst, hw, Nat.not_le.2 hn, and_false, if_false]
  case none =>
    unfold State.serveFirst
    rcases h with h | h
    · rw [h]
    · split
      · rfl
      · rw [if_neg (by simp [h])]
  case held =>
    rw [State.serveDraws_of_held op rest hn]
    exact ⟨s.drawPool_length n, s.drawPool_pool n, s.drawPool_count n, rfl, rfl⟩
  case waits =>
    rw [State.serveDraws_of_short op rest hn]
    exact ⟨rfl, rfl, rfl⟩

/-! ## What leaves the generator as it is -/

/-- From `s` to `t` the generator's state and one register field stay. -/
structure State.RngStep (f : Field) (s t : State) : Prop where
  rng : t.rng = s.rng
  shown : t.get f = s.get f

section
variable {f : Field}

theorem State.RngStep.refl (s : State) : s.RngStep f s := ⟨rfl, rfl⟩

theorem State.RngStep.trans {s t u : State} (h : s.RngStep f t) (g : t.RngStep f u) : s.RngStep f u :=
  ⟨g.rng.trans h.rng, g.shown.trans h.shown⟩

theorem State.RngStep.ofRegs {s t : State} (hrng : t.rng = s.rng) (hregs : t.regs = s.regs) : s.RngStep f t :=
  ⟨hrng, State.get_of_regs hregs f 0⟩

theorem State.RngStep.ofSet (s : State) (g : Field) (i v : Nat) (h : g.key i ≠ f.key 0) : s.RngStep f (s.set g i v) :=
  ⟨rfl, State.get_set_other _ _ _ _ _ _ h⟩

theorem State.RngStep.ofEvent (s : State) (g en : Field) (vec mask : Nat) (h : g.key 0 ≠ f.key 0) :
    s.RngStep f (s.event g en vec mask) :=
  ⟨s.event_rng g en vec mask, State.get_event_other _ _ _ _ _ _ _ h⟩

theorem State.RngStep.ofFold {α : Type} (step : State → α → State) (l : List α) (s : State)
    (h : ∀ x ∈ l, ∀ t : State, t.RngStep f (step t x)) : s.RngStep f (l.foldl step s) :=
  List.foldlRecOn l step (motive := s.RngStep f) (.refl s) (fun t ht x hx => ht.trans (h x hx t))

theorem State.LogStep.rngStep {s t : State} (h : s.LogStep t) (hf : f.key 0 / 64 / 0x10000 ≠ 0xF) : s.RngStep f t :=
  ⟨h.rng, h.get f 0 hf⟩

theorem State.RngStep.ofWires (s : State) (hf : f.key 0 ∉ wiredKeys) : s.RngStep f s.wires :=
  ⟨s.wires_rng, State.get_wires s f 0 hf⟩
end

/-- The keys of the error registers of the generator. -/
def rngErrKeys : List Nat :=
  [R.RNG_ERR_STS_RCT, R.RNG_ERR_STS_APT, R.RNG_ERR_STS_LIVE, R.RNG_ERR_STS_LOCK, R.RNG_ERR_STS_REPEAT, R.RNG_ERR_STS_HOLD,
    R.RNG_ERR_STS_FATAL, R.RNG_ERR_STS_KAT, R.RNG_ERR_INFO_CAUSE, R.RNG_ERR_INFO_EXP, R.RNG_ERR_INFO_UNIT].map (fun f => f.key 0)

/-- The keys of the fields that show the state of cells and expanders. -/
def rngSyncKeys : List Nat :=
  (List.range 8).map (fun c => R.RNG_CELL_STS_CSTATE.key c) ++ (List.range 4).map (fun x => R.RNG_EXP_STS_RUN.key x) ++
    (List.range 4).map (fun x => R.RNG_EXP_STS_AGE.key x) ++
    [R.RNG_STS_IN_USE.key 0, R.RNG_STS_EXP_RUN.key 0, R.RNG_STS_FAIL_WIN.key 0]

theorem State.RngStep.ofErr {f : Field} (s : State) (bitNos : List Nat) (exp : Bool) (unit : Nat) (hf : f.key 0 ∉ rngErrKeys) :
    s.RngStep f (s.rngErr bitNos exp unit) := by
  have hne : ∀ g : Field, g.key 0 ∈ rngErrKeys → g.key 0 ≠ f.key 0 := fun g hg e => hf (e ▸ hg)
  have hinfo : ∀ low : Nat, s.RngStep f (if s.storedAt 0x090008 = 0 then
      ((s.set R.RNG_ERR_INFO_CAUSE 0 low).put1 R.RNG_ERR_INFO_EXP exp).set R.RNG_ERR_INFO_UNIT 0 unit else s) := by
    intro low
    split
    · exact ((State.RngStep.ofSet s _ 0 _ (hne _ (by decide))).trans (.ofSet _ _ 0 _ (hne _ (by decide)))).trans
        (.ofSet _ _ 0 _ (hne _ (by decide)))
    · exact .refl s
  refine (hinfo _).trans (.ofFold _ _ _ fun g hg t => ?_)
  have hkey : g.key 0 ∈ rngErrKeys := by
    rw [rngErrKeys]
    exact List.mem_map_of_mem (List.mem_append_left
      [R.RNG_ERR_INFO_CAUSE, R.RNG_ERR_INFO_EXP, R.RNG_ERR_INFO_UNIT] hg)
  split
  · exact .ofEvent _ _ _ _ _ (hne g hkey)
  · exact .refl t

theorem State.RngStep.ofSync {f : Field} (s : State) (hf : f.key 0 ∉ rngSyncKeys) : s.RngStep f s.rngSync := by
  simp only [rngSyncKeys, List.mem_append, List.mem_map, List.mem_range, not_or, List.mem_cons, List.not_mem_nil, or_false, not_exists,
    not_and] at hf
  obtain ⟨⟨⟨hcell, hrun⟩, hage⟩, huse, hexp, hwin⟩ := hf
  have hcells := State.RngStep.ofFold (f := f) (fun t c => t.set R.RNG_CELL_STS_CSTATE c (cellCode (t.rng.cell c)))
    (List.range 8) s (fun c hc t => .ofSet t _ c _ (hcell c (List.mem_range.1 hc)))
  have hexps := hcells.trans (.ofFold (fun t x => (t.put1 R.RNG_EXP_STS_RUN (t.rng.exp x).run x).set R.RNG_EXP_STS_AGE x (t.rng.exp x).age)
    (List.range 4) _ (fun x hx t => (State.RngStep.ofSet t _ x _ (hrun x (List.mem_range.1 hx))).trans
      (.ofSet _ _ x _ (hage x (List.mem_range.1 hx)))))
  exact ((hexps.trans (.ofSet _ _ 0 _ (Ne.symm huse))).trans (.ofSet _ _ 0 _ (Ne.symm hexp))).trans (.ofSet _ _ 0 _ (Ne.symm hwin))

/-! ## A fatal event leaves the generator as it is (R62) -/

theorem State.RngStep.ofPartEnergy {f : Field} (s : State) (c : Cmd) : s.RngStep f (s.partEnergy c).2 := by
  unfold State.partEnergy
  split
  · exact .refl s
  · split <;> exact .ofRegs rfl rfl

theorem State.RngStep.ofFatalWord {f : Field} (s : State) (c : Cmd) (hf : R.DOSE_CNT_ENERGY_COUNT.key 0 ≠ f.key 0) :
    s.RngStep f (s.fatalWord c).2 :=
  (State.RngStep.ofPartEnergy s c).trans ⟨rfl, State.get_set_other _ _ _ _ _ _ hf⟩

theorem State.RngStep.ofFatalWords {f : Field} (cs : List Cmd) (s : State) (hf : R.DOSE_CNT_ENERGY_COUNT.key 0 ≠ f.key 0) :
    s.RngStep f (State.fatalWords cs s).2 := by
  induction cs generalizing s with
  | nil => exact .refl s
  | cons c cs ih => exact (State.RngStep.ofFatalWord s c hf).trans (ih _)

theorem State.SlotsOnly.rngStep {f : Field} {ks : Nat → Prop} {s t : State} (h : s.SlotsOnly ks t) : s.RngStep f t :=
  .ofRegs (by rw [h.rest]) h.regs

/-- A fatal event whose status words wait for the next boundary. -/
theorem State.RngStep.ofBreakPromises {f : Field} (s : State) {code : Nat} (hcode : code ≠ ccFatalTamper)
    (henergy : R.DOSE_CNT_ENERGY_COUNT.key 0 ≠ f.key 0) (hfatal : R.TRV_STS_FATAL.key 0 ≠ f.key 0) :
    s.RngStep f (s.breakPromises code) := by
  unfold State.breakPromises
  simp only [if_neg hcode]
  split
  · exact .refl s
  · have hslots : s.RngStep f (s.trv.cmds.foldl (fun t c => t.slotsClear c.id) s) :=
      .ofFold _ _ _ fun c _ t => (State.SlotsOnly.ofClear t c.id).rngStep
    generalize s.trv.cmds.foldl (fun t c => t.slotsClear c.id) s = t at hslots
    have hwords := hslots.trans (.ofFatalWords t.doomed t henergy)
    refine (hwords.trans ?_).trans (.ofSet _ _ 0 _ hfatal)
    exact .ofRegs rfl rfl

theorem State.LogStep.ofFlush (s : State) (cause : Nat) : s.LogStep (s.flush cause) := by
  have hexport : s.LogStep (if s.fb.exporting then s.exportStop else s) := by
    split
    · exact .ofExportStop s
    · exact .refl s
  unfold State.flush
  dsimp only
  generalize (if s.fb.exporting then s.exportStop else s) = t at hexport
  refine ((((?begun : s.LogStep _).trans (.ofMake _ ..)).trans (.ofWrite ..)).trans (.ofDiagnose ..)).trans (.ofFb _ _)
  have hbegun := (hexport.trans (.ofUnfreeze t)).trans
    (.ofFb t.unfreeze { t.unfreeze.fb with flushing := true, flushWritten := 0, flushOver := 0, flushDrop := 0 })
  exact (hbegun.trans (.ofWritePending _)).trans ((State.LogStep.ofFb _ _).trans (.ofWriteAll ..))

/-! ## The alarm (R224) -/

/-- The generator with everything zeroized. -/
def Rng.zeroized (r : Rng) : Rng := { r with exps := [], queue := [], last := [], closed := [], reserve := [], admin := [] }

/-- The alarm's state and event, everything zeroized. -/
def State.alarmShown (s : State) : State :=
  (({ s with rng := s.rng.zeroized } : State).set R.RNG_STS_STATE 0 rngFatal).rngErr [6] false 0

/-- The alarm's record. -/
def State.alarmRecorded (s : State) : State :=
  s.fatalRecords.recordAs false true 0x0602 3 devScope (s.storedAt 0x09000C) 0 0 0

/-- The fatal event of the alarm, after its record (R62). -/
def State.alarmBreaks (s : State) : State := (s.alarmRecorded.breakPromises ccFatalRng).flush 3

theorem State.rngAlarm_of_fatal {s : State} (h : s.rngState = rngFatal) : s.rngAlarm = s := if_pos h

theorem State.rngAlarm_of_running {s : State} (h : s.rngState ≠ rngFatal) :
    s.rngAlarm = (if s.rngState = rngWarmup then (s.alarmShown.alarmBreaks.set R.GLB_STS_FAIL 0 4).set R.GLB_STS_STAGE 0 8
      else s.alarmShown.alarmBreaks).rngSync := if_neg h

theorem State.RngStep.ofAlarmBreaks (s : State) : s.RngStep R.RNG_STS_STATE s.alarmBreaks := by
  have hfatal : s.RngStep R.RNG_STS_STATE s.fatalRecords := .ofRegs rfl rfl
  have hrecord : s.RngStep R.RNG_STS_STATE s.alarmRecorded :=
    hfatal.trans ((State.LogStep.ofRecordAs ..).rngStep (by decide))
  exact (hrecord.trans (.ofBreakPromises _ (by decide) (by decide) (by decide))).trans
    ((State.LogStep.ofFlush _ 3).rngStep (by decide))

/-- What an alarm does to the generator. -/
theorem State.rngAlarm_raised {s : State} (h : s.rngState ≠ rngFatal) :
    s.rngAlarm.rng = s.rng.zeroized ∧ s.rngAlarm.rngState = rngFatal := by
  have hshown : s.alarmShown.rng = s.rng.zeroized ∧ s.alarmShown.rngState = rngFatal := by
    have herr := State.RngStep.ofErr (f := R.RNG_STS_STATE)
      (({ s with rng := s.rng.zeroized } : State).set R.RNG_STS_STATE 0 rngFatal) [6] false 0 (by decide)
    exact ⟨herr.rng, herr.shown.trans (State.get_set_self _ _ _ _ (by decide))⟩
  have hbreaks := State.RngStep.ofAlarmBreaks s.alarmShown
  have hstep : s.alarmShown.RngStep R.RNG_STS_STATE s.rngAlarm := by
    rw [State.rngAlarm_of_running h]
    refine State.RngStep.trans ?_ (.ofSync _ (by decide))
    split
    · exact (hbreaks.trans (.ofSet _ _ 0 _ (by decide))).trans (.ofSet _ _ 0 _ (by decide))
    · exact hbreaks
  exact ⟨hstep.rng.trans hshown.1, hstep.shown.trans hshown.2⟩

/-! ## The health hold (R219, R224) -/

/-- A hold asked for of the boundary of a frame. -/
def State.holdAsked (s : State) (f : Nat) (exp : Bool) (unit : Nat) : State :=
  { s with rng := { s.rng with holdReq := some (f, exp, unit) } }

/-- A hold is asked for that begins at the boundary of a frame or before. -/
def Rng.holdBy (r : Rng) (f : Nat) : Bool := r.holdReq.any (fun h => decide (h.1 ≤ f))

theorem State.askHold_eq (s : State) (f : Nat) (exp : Bool) (unit : Nat) :
    s.askHold f exp unit = if s.rng.holdBy f then s else s.holdAsked f exp unit := by
  unfold State.askHold Rng.holdBy
  split <;> simp [*, State.holdAsked]

/-- An expander stopped by the age limit. -/
def State.stopAged (s : State) (x : Nat) : State := s.setExp x { s.rng.exp x with aged := true }

/-- The condition under which the hold ends. -/
theorem State.holdEnds_iff (s : State) :
    (s.rngState = rngHold ∧ s.cellsWell = true ∧ (List.range 4).all (fun x => (s.rng.exp x).fresh && (s.rng.exp x).run) = true) ↔
    (s.rngState = rngHold ∧ s.cellsWell = true ∧ ∀ i, i < 4 → (s.rng.exp i).fresh = true ∧ (s.rng.exp i).run = true) := by
  simp only [List.all_eq_true, List.mem_range, Bool.and_eq_true]

theorem State.ageStop_of_young {s : State} {x : Nat} (h : (s.rng.exp x).age < 16) : s.ageStop x = s := if_pos (Or.inr h)

theorem State.ageStop_of_old {s : State} {x : Nat} (hx : x < 4) (h : 16 ≤ (s.rng.exp x).age) :
    s.ageStop x = (if s.rngServes = true ∧ s.rng.holdBy s.frameNo = false then (s.stopAged x).holdAsked s.frameNo true x
      else s.stopAged x).rngSync := by
  have hasks : (s.stopAged x).askHold s.frameNo true x =
      if s.rng.holdBy s.frameNo then s.stopAged x else (s.stopAged x).holdAsked s.frameNo true x := State.askHold_eq ..
  have hold : s.ageStop x = (if s.rngServes then (s.stopAged x).askHold s.frameNo true x else s.stopAged x).rngSync := if_neg (by omega)
  rw [hold, hasks]
  cases s.rngServes <;> cases s.rng.holdBy s.frameNo <;> rfl

/-- Settles O31: the end of the hold, the age limit, and the alarm of an output that repeats. -/
theorem holdAndAlarm : Obligations.HoldAndAlarm := by
  unfold Obligations.HoldAndAlarm
  refine fun s x => ⟨fun hst hcells hexps => congrArg ok ?ends, fun hno => congrArg ok ?goesOn,
    fun hx => ⟨fun hage hserves hsoon => congrArg ok ?asks, fun hage hno => congrArg ok ?stops,
      fun hage => congrArg ok (State.ageStop_of_young hage)⟩,
    fun hst => ⟨_, rfl, ?alarm⟩, fun hst => congrArg ok ?fatal⟩
  case ends => exact if_pos (s.holdEnds_iff.2 ⟨hst, hcells, hexps⟩)
  case goesOn =>
    refine if_neg fun h => ?_
    obtain ⟨hst, hcells, hexps⟩ := s.holdEnds_iff.1 h
    rcases hno with hno | hno | ⟨i, hi, hno⟩
    · exact hno hst
    · simp [hcells] at hno
    · simp [hexps i hi] at hno
  case asks => exact (State.ageStop_of_old hx hage).trans (congrArg State.rngSync (if_pos ⟨hserves, hsoon⟩))
  case stops =>
    refine (State.ageStop_of_old hx hage).trans (congrArg State.rngSync (if_neg ?_))
    rintro ⟨hserves, hsoon⟩
    rcases hno with h | h
    · simp [h] at hserves
    · exact Bool.false_ne_true (hsoon.symm.trans h)
  case alarm =>
    have herr := State.RngStep.ofErr (f := R.RNG_STS_STATE) s [4] true x (by decide)
    obtain ⟨hrng, hstate⟩ := State.rngAlarm_raised (s := s.rngErr [4] true x) (fun h => hst (herr.shown.symm.trans h))
    have hwires := State.RngStep.ofWires (f := R.RNG_STS_STATE) (s.rngRepeat x) (by decide)
    have hfatal : (s.rngRepeat x).wires.rngState = rngFatal := hwires.shown.trans hstate
    have hempty : (s.rngRepeat x).wires.rng = (s.rngErr [4] true x).rng.zeroized := hwires.rng.trans hrng
    refine ⟨congrArg Rng.fill hempty, congrArg Rng.pool hempty, congrArg Rng.queue hempty, hfatal, ?_⟩
    simp only [State.rngServes, hfatal]
    decide
  case fatal =>
    have herr := State.RngStep.ofErr (f := R.RNG_STS_STATE) s [4] true x (by decide)
    exact State.rngAlarm_of_fatal (herr.shown.trans hst)

end Sys2Proof.Machine

namespace Sys2Proof.Machine

/-! ## What the refill of the stores changes (R217, R220) -/

/-- From `s` to `t` only the expanders, the two stores and the free numbers change. -/
def State.Refills (s t : State) : Prop :=
  t = { s with free := t.free, rng := { s.rng with exps := t.rng.exps, admin := t.rng.admin, reserve := t.rng.reserve } }

section
variable {s t u : State}

theorem State.Refills.trans (h : s.Refills t) (g : t.Refills u) : s.Refills u := by
  unfold State.Refills at *
  rw [g, h]

theorem State.Refills.regs (h : s.Refills t) : t.regs = s.regs := by rw [h]
theorem State.Refills.cell (h : s.Refills t) (c : Nat) : t.rng.cell c = s.rng.cell c := by rw [h]; rfl
theorem State.Refills.fails (h : s.Refills t) : t.rng.fails = s.rng.fails := by rw [h]
theorem State.Refills.warmFails (h : s.Refills t) : t.rng.warmFails = s.rng.warmFails := by rw [h]
theorem State.Refills.waiting (h : s.Refills t) : t.rng.waiting = s.rng.waiting := by rw [h]
end

/-- To produce output changes the expanders and takes free numbers. -/
theorem State.produce_rest (fuel : Nat) (s : State) (n : Nat) (budget : List (Nat × Nat)) :
    (State.produce fuel s n budget).2 = { s with
      free := (State.produce fuel s n budget).2.free
      rng := { s.rng with exps := (State.produce fuel s n budget).2.rng.exps } } := by
  induction fuel generalizing s n budget with
  | zero => rfl
  | succ fuel ih =>
    simp only [State.produce]
    split
    · rfl
    · split
      · rfl
      · exact ih (s.fresh.2.setExp _ _) _ _

theorem State.Refills.ofProduce (fuel : Nat) (s : State) (n : Nat) (budget : List (Nat × Nat)) :
    s.Refills (State.produce fuel s n budget).2 := by
  unfold State.Refills
  rw [State.produce_rest]

/-- The expanders that run, each with the bytes it may write in the frame. -/
def State.runningBudget (s : State) (per : Nat) : List (Nat × Nat) :=
  ((List.range 4).filter (fun x => (s.rng.exp x).run)).map (fun x => (x, per))

theorem State.Refills.ofStoreFill (s : State) (n per : Nat) : s.Refills (s.storeFill n per) := by
  have h := State.Refills.ofProduce 32 s n (s.runningBudget per)
  unfold State.runningBudget at h
  exact h.trans rfl

theorem State.Refills.ofRefill (s : State) (part : Bool) : s.Refills (s.refill part) := by
  unfold State.refill
  split
  · exact rfl
  · cases part
    · exact .ofStoreFill s _ _
    · exact State.Refills.trans (t := s.fresh.2) rfl (.ofStoreFill ..)

/-! ## A counted failure of a cell (R217) -/

/-- The cell is in use, or in its restart run or past it. -/
def State.cellLive (s : State) (c : Nat) : Prop := s.rng.cell c = .inUse ∨ s.rng.cell c = .passed ∨ ∃ n, s.rng.cell c = .restart n

/-- The failure reported, after the refill of the frame so far. -/
def State.failReported (s : State) (c tests : Nat) : State := (s.refill true).rngErr (setBits 4 tests) false c

/-- The cell stopped and its failure counted. -/
def State.failCounted (s : State) (c f : Nat) : State :=
  let t := ((s.bump R.RNG_CELL_FAIL_COUNT 1 c).bump R.RNG_CNT_FAIL_COUNT).setCell c (.stopped (f + 2))
  { t with rng := { t.rng with
    exps := (List.range 4).map (fun x => { t.rng.exp x with refill := false })
    closed := t.rng.closed.filter (fun e => e.1 != c)
    runs := t.rng.runs.del c
    fails := t.rng.fails ++ [f] } }

theorem State.failReported_rngState (s : State) (c tests : Nat) : (s.failReported c tests).rngState = s.rngState :=
  (State.RngStep.ofErr (s.refill true) (setBits 4 tests) false c (by decide)).shown.trans
    (State.get_of_regs (State.Refills.ofRefill s true).regs _ _)

theorem State.failReported_rng (s : State) (c tests : Nat) : (s.failReported c tests).rng = (s.refill true).rng :=
  (State.RngStep.ofErr (f := R.RNG_STS_STATE) (s.refill true) (setBits 4 tests) false c (by decide)).rng

theorem State.cellFail_of_live {s : State} {c : Nat} (hc : c < 8) (h : s.cellLive c) (tests : Nat) :
    s.cellFail c tests = (s.failReported c tests).countedFail c s.frameNo := by
  have hcell := (State.Refills.ofRefill s true).cell c
  rcases h with h | h | ⟨n, h⟩ <;>
    simp only [State.cellFail, State.cellFailAt, State.failReported, hcell, h, if_neg (Nat.not_le.2 hc)]

theorem State.blockClosed_of_failed {s : State} {c : Nat} {b : BitVec 1024} (h : s.cellLive c) (hfail : s.blockTests c b ≠ 0) :
    s.blockClosed c b = s.cellFail c (s.blockTests c b) := by
  rcases h with h | h | ⟨n, h⟩ <;> simp only [State.blockClosed, h, ne_eq, hfail, not_false_eq_true, if_true]

theorem State.failsAt_failCounted (s : State) (c f : Nat) : (s.failCounted c f).rng.failsAt f = s.rng.failsAt f + 1 := by
  have hfails : (s.failCounted c f).rng.fails = s.rng.fails ++ [f] := rfl
  simp [Rng.failsAt, hfails, List.filter_append]

theorem State.askHold_fails (s : State) (f : Nat) (exp : Bool) (unit : Nat) : (s.askHold f exp unit).rng.fails = s.rng.fails := by
  rw [State.askHold_eq]
  split <;> rfl

/-- A failure after WARMUP, one of fewer than 8 in the window, asks for the hold. -/
theorem State.countedFail_of_service {s : State} {c f : Nat} (hst : s.rngState ≠ rngWarmup) (hfew : s.rng.failsAt f < 7) :
    s.countedFail c f = ((s.failCounted c f).askHold (f + 1) false c).rngSync := by
  have hquiet : ¬8 ≤ ((s.failCounted c f).askHold (f + 1) false c).rng.failsAt f := by
    rw [Rng.failsAt, State.askHold_fails, ← Rng.failsAt, State.failsAt_failCounted]
    omega
  unfold State.countedFail
  simp only [if_neg hst]
  exact congrArg State.rngSync (if_neg (mt of_decide_eq_true hquiet))

/-- A failure of WARMUP, one of fewer than 8, asks for no hold. -/
theorem State.countedFail_of_warmup {s : State} {c f : Nat} (hst : s.rngState = rngWarmup) (hfew : s.rng.warmFails < 7) :
    s.countedFail c f = ({ s.failCounted c f with
      rng := { (s.failCounted c f).rng with warmFails := s.rng.warmFails + 1 } } : State).rngSync := by
  have hquiet : ¬8 ≤ s.rng.warmFails + 1 := by omega
  unfold State.countedFail
  simp only [if_pos hst]
  exact congrArg State.rngSync (if_neg (mt of_decide_eq_true hquiet))

/-- The cell stopped for its failure, which has been reported and counted. -/
def State.cellFailed (s : State) (c tests : Nat) : State := (s.failReported c tests).failCounted c s.frameNo

theorem State.cellFail_in_service {s : State} {c : Nat} (hc : c < 8) (hlive : s.cellLive c) (hst : s.rngState ≠ rngWarmup)
    (hfew : s.recentFails < 7) (tests : Nat) :
    s.cellFail c tests = (if (s.cellFailed c tests).rng.holdBy (s.frameNo + 1) then s.cellFailed c tests
      else (s.cellFailed c tests).holdAsked (s.frameNo + 1) false c).rngSync := by
  have hfew' : (s.failReported c tests).rng.failsAt s.frameNo < 7 := by
    rw [s.failReported_rng c tests, Rng.failsAt, (State.Refills.ofRefill s true).fails]
    exact hfew
  have hst' : (s.failReported c tests).rngState ≠ rngWarmup := fun h => hst ((s.failReported_rngState c tests).symm.trans h)
  rw [State.cellFail_of_live hc hlive, State.countedFail_of_service hst' hfew', State.askHold_eq]
  rfl

theorem State.cellFail_in_warmup {s : State} {c : Nat} (hc : c < 8) (hlive : s.cellLive c) (hst : s.rngState = rngWarmup)
    (hfew : s.rng.warmFails < 7) (tests : Nat) :
    s.cellFail c tests = ({ s.cellFailed c tests with
      rng := { (s.cellFailed c tests).rng with warmFails := s.rng.warmFails + 1 } } : State).rngSync := by
  have hcount : (s.failReported c tests).rng.warmFails = s.rng.warmFails := by
    rw [s.failReported_rng c tests, (State.Refills.ofRefill s true).warmFails]
  rw [State.cellFail_of_live hc hlive, State.countedFail_of_warmup ((s.failReported_rngState c tests).trans hst)
    (Nat.lt_of_le_of_lt (Nat.le_of_eq hcount) hfew), hcount]
  rfl

/-! ## The cells at a boundary (R217) -/

/-- What a boundary makes of a cell. -/
def CellSt.atBoundary (frame : Nat) : CellSt → CellSt
  | .stopped k => if k ≤ frame then .restart 0 else .stopped k
  | .passed => .inUse
  | .restart n => if 4 ≤ n then .inUse else .restart n
  | x => x

theorem State.setCell_cell (s : State) (i : Nat) (x : CellSt) {c : Nat} (hc : c < 8) :
    (s.setCell i x).rng.cell c = if c = i then x else s.rng.cell c := by
  simp [State.setCell, Rng.cell, hc]

/-- A boundary for one cell. -/
def State.cellBoundary (s : State) (i : Nat) : State :=
  match s.rng.cell i with
  | .stopped k => if k ≤ s.frameNo then s.setCell i (.restart 0) else s
  | .passed => s.setCell i .inUse
  | .restart n => if 4 ≤ n then s.setCell i .inUse else s
  | _ => s

theorem State.cellBoundary_frameNo (s : State) (i : Nat) : (s.cellBoundary i).frameNo = s.frameNo := by
  unfold State.cellBoundary
  repeat' split
  all_goals rfl

theorem State.cellBoundary_cell (s : State) (i : Nat) {c : Nat} (hc : c < 8) :
    (s.cellBoundary i).rng.cell c = if c = i then (s.rng.cell i).atBoundary s.frameNo else s.rng.cell c := by
  have hkeep : ∀ x, s.rng.cell i = x → s.rng.cell c = if c = i then x else s.rng.cell c := by
    rintro x rfl
    split
    next h => rw [h]
    next => rfl
  cases hx : s.rng.cell i with
  | stopped k =>
    simp only [State.cellBoundary, hx, CellSt.atBoundary]
    split
    · exact s.setCell_cell _ _ hc
    · exact hkeep _ hx
  | restart n =>
    simp only [State.cellBoundary, hx, CellSt.atBoundary]
    split
    · exact s.setCell_cell _ _ hc
    · exact hkeep _ hx
  | passed =>
    simp only [State.cellBoundary, hx, CellSt.atBoundary]
    exact s.setCell_cell _ _ hc
  | off | inUse | tapped =>
    simp only [State.cellBoundary, hx, CellSt.atBoundary]
    exact hkeep _ hx

theorem State.cellBoundaries_cell {c : Nat} (hc : c < 8) {l : List Nat} (hl : l.Nodup) (s : State) :
    (l.foldl State.cellBoundary s).rng.cell c = if c ∈ l then (s.rng.cell c).atBoundary s.frameNo else s.rng.cell c := by
  induction l generalizing s with
  | nil => rfl
  | cons i l ih =>
    obtain ⟨hi, hl⟩ := List.nodup_cons.1 hl
    rw [List.foldl_cons, ih hl, s.cellBoundary_cell i hc, s.cellBoundary_frameNo]
    by_cases hci : c = i
    · subst hci; simp [hi]
    · simp [hci]

theorem State.cellsBoundary_cell (s : State) {c : Nat} (hc : c < 8) :
    s.cellsBoundary.rng.cell c = (s.rng.cell c).atBoundary s.frameNo := by
  have hwarm : ∀ t : State, t.warmCells.rng.cell c = t.rng.cell c := by
    intro t
    unfold State.warmCells
    split <;> rfl
  have hcells : ((List.range 8).foldl State.cellBoundary s).rng.cell c = (s.rng.cell c).atBoundary s.frameNo :=
    (State.cellBoundaries_cell hc List.nodup_range s).trans (if_pos (List.mem_range.2 hc))
  unfold State.cellsBoundary
  dsimp only
  repeat' split
  all_goals exact (hwarm _).trans hcells

/-! ## Blocks that close and are released (R216, R218, R223) -/

theorem State.blockClosed_of_inUse {s : State} {c : Nat} {b : BitVec 1024} (h : s.rng.cell c = .inUse)
    (hpass : s.blockTests c b = 0) :
    s.blockClosed c b = { s.keepRun c b with rng := { (s.keepRun c b).rng with closed := s.rng.closed ++ [(c, b)] } } := by
  simp only [State.blockClosed, State.keepRun, h, hpass, ne_eq, not_true_eq_false, if_false]

theorem State.blockClosed_of_restart {s : State} {c n : Nat} {b : BitVec 1024} (h : s.rng.cell c = .restart n)
    (hpass : s.blockTests c b = 0) : s.blockClosed c b = (s.keepRun c b).setCell c (.restart (n + 1)) := by
  simp only [State.blockClosed, h, hpass, ne_eq, not_true_eq_false, if_false]

theorem State.restartDone_of_other {s : State} {c : Nat} (h : ∀ n, s.rng.cell c ≠ .restart n) : s.restartDone c = s := by
  unfold State.restartDone
  split
  next n hn => exact absurd hn (h n)
  next => rfl

theorem State.restartDone_of_restart {s : State} {c n : Nat} (h : s.rng.cell c = .restart n) :
    s.restartDone c = if 4 ≤ n then (s.setCell c .passed).rngSync else s := by
  simp only [State.restartDone, h]

theorem State.release_of_conditioned {s : State} (h : s.rngState = rngService ∨ s.rngState = rngHold) (b : BitVec 1024) :
    s.release b = s.condition b := by
  rcases h with h | h <;> simp [State.release, h, rngService, rngHold, rngWarmup, rngFatal]

/-- Settles O30: failed blocks in service and in WARMUP, passed ones, restart runs, and the release at the end of a frame. -/
theorem rawBlocks : Obligations.RawBlocks := by
  unfold Obligations.RawBlocks
  intro s c b hc out q end_ passed failed live
  refine ⟨fun hlive hst hfew => ?service, fun hlive hst hfew => ?warmup, fun hcell hpass => congrArg ok ?waits,
    fun n hcell => ⟨fun hpass => congrArg ok ?counts, fun hn => ⟨?returns, congrArg ok ?ran⟩, fun hn => congrArg ok ?runs⟩,
    fun hcell => congrArg ok (State.restartDone_of_other hcell), fun hcell => ?back, fun hst hblocks => if_pos ⟨hst, hblocks⟩,
    fun hst => ⟨fun hout => ?queued, fun hout => ?repeats⟩⟩
  case service =>
    have hfail := State.cellFail_in_service hc hlive hst hfew
    exact ⟨fun tests => congrArg ok (hfail tests),
      fun hne => congrArg ok ((State.blockClosed_of_failed hlive hne).trans (hfail _))⟩
  case warmup =>
    have hfail := State.cellFail_in_warmup hc hlive hst hfew
    exact ⟨fun tests => congrArg ok (hfail tests),
      fun hne => congrArg ok ((State.blockClosed_of_failed hlive hne).trans (hfail _))⟩
  case waits => exact State.blockClosed_of_inUse hcell hpass
  case counts => exact State.blockClosed_of_restart hcell hpass
  case returns => rw [s.cellsBoundary_cell hc, hcell]; exact if_pos hn
  case ran => exact (State.restartDone_of_restart hcell).trans (if_pos hn)
  case runs => exact (State.restartDone_of_restart hcell).trans (if_neg (Nat.not_le.2 hn))
  case back => rw [s.cellsBoundary_cell hc, hcell]; rfl
  case queued => exact (State.release_of_conditioned hst b).trans (if_neg hout)
  case repeats => exact (State.release_of_conditioned hst b).trans (if_pos hout)

end Sys2Proof.Machine

namespace Sys2Proof.Machine

/-! ## The first fill of the stores (R220, R223) -/

theorem State.setExp_exp (s : State) (i : Nat) (e : Expander) {x : Nat} (hx : x < 4) :
    (s.setExp i e).rng.exp x = if x = i then e else s.rng.exp x := by
  simp [State.setExp, Rng.exp, hx]

/-- To produce output stops no expander and starts none. -/
theorem State.produce_run (fuel : Nat) (s : State) (n : Nat) (budget : List (Nat × Nat)) {x : Nat} (hx : x < 4) :
    ((State.produce fuel s n budget).2.rng.exp x).run = (s.rng.exp x).run := by
  induction fuel generalizing s n budget with
  | zero => rfl
  | succ fuel ih =>
    simp only [State.produce]
    split
    · rfl
    · split
      · rfl
      next y left _ =>
        rw [ih, State.setExp_exp _ _ _ hx]
        split
        next h => subst h; rfl
        next => rfl

/-- Of a list that is not empty, an index taken modulo its length is found. -/
theorem getElem?_mod_length {α : Type} {l : List α} (h : l ≠ []) (k : Nat) : ∃ e ∈ l, l[k % max 1 l.length]? = some e := by
  have hpos := List.length_pos_iff.2 h
  have hlt : k % max 1 l.length < l.length := by
    rw [Nat.max_eq_right hpos]
    exact Nat.mod_lt _ hpos
  exact ⟨_, List.getElem_mem hlt, List.getElem?_eq_getElem hlt⟩

/-- Expanders each of which may write all the bytes asked for write them. -/
theorem State.produce_length (fuel : Nat) (s : State) (n : Nat) {budget : List (Nat × Nat)} (hsome : budget ≠ [])
    (hroom : ∀ e ∈ budget, n ≤ e.2) (hfuel : n ≤ 65536 * fuel) : segLen (State.produce fuel s n budget).1 = n := by
  induction fuel generalizing s n budget with
  | zero => exact (Nat.le_zero.1 hfuel).symm
  | succ fuel ih =>
    simp only [State.produce]
    split
    next h0 => rw [h0]; rfl
    next h0 =>
      have hable : budget.filter (fun e => e.2 != 0) = budget :=
        List.filter_eq_self.2 fun e he => by
          have := hroom e he
          simp only [bne_iff_ne, ne_eq]
          omega
      obtain ⟨⟨x, left⟩, he, hfound⟩ := getElem?_mod_length hsome s.fresh.1
      have hleft : n ≤ left := hroom _ he
      simp only [hable, hfound]
      rw [segLen_cons, ih]
      · simp only [Expander.request]
        omega
      · simpa using hsome
      · intro e he
        obtain ⟨b, hb, rfl⟩ := List.mem_map.1 he
        have := hroom b hb
        split <;> omega
      · omega

/-- Empty stores filled by four running expanders: the pool first, then the reserve. -/
theorem State.storeFill_empty {s : State} {n per : Nat} (hadmin : s.rng.admin = []) (hreserve : s.rng.reserve = [])
    (hrun : ∀ x, x < 4 → (s.rng.exp x).run = true) (hn : 32768 ≤ n) (hper : n ≤ per) (hmax : n ≤ 65536 * 32) :
    (s.storeFill n per).rng.pool = 32768 ∧ (s.storeFill n per).rng.fill = n - 32768 ∧
      ∀ x, x < 4 → ((s.storeFill n per).rng.exp x).run = true := by
  have hbudget : s.runningBudget per = (List.range 4).map (fun x => (x, per)) :=
    congrArg (List.map (fun x => (x, per))) (List.filter_eq_self.2 fun x hx => hrun x (List.mem_range.1 hx))
  have hbytes : segLen (State.produce 32 s n (s.runningBudget per)).1 = n := by
    rw [hbudget]
    refine State.produce_length 32 s n (by simp) (fun e he => ?_) hmax
    obtain ⟨x, -, rfl⟩ := List.mem_map.1 he
    exact hper
  have hadm : (State.produce 32 s n (s.runningBudget per)).2.rng.admin = s.rng.admin := by rw [State.produce_rest]
  have hres : (State.produce 32 s n (s.runningBudget per)).2.rng.reserve = s.rng.reserve := by rw [State.produce_rest]
  have hpool : s.rng.pool = 0 := congrArg segLen hadmin
  obtain ⟨htaken, hleft⟩ := segLen_segTake 32768 (State.produce 32 s n (s.runningBudget per)).1
  have hstore : s.storeFill n per = { (State.produce 32 s n (s.runningBudget per)).2 with
      rng := { (State.produce 32 s n (s.runningBudget per)).2.rng with
        admin := (segTake 32768 (State.produce 32 s n (s.runningBudget per)).1).1
        reserve := (segTake 32768 (State.produce 32 s n (s.runningBudget per)).1).2 } } := by
    simp only [State.runningBudget] at hadm hres ⊢
    simp only [State.storeFill, hpool, Nat.sub_zero, hadm, hres, hadmin, hreserve, List.nil_append]
  rw [hstore]
  refine ⟨?_, ?_, fun x hx => ?_⟩
  · exact htaken.trans (by omega)
  · exact hleft.trans (by rw [hbytes])
  · exact (State.produce_run 32 s n _ hx).trans (hrun x hx)

/-! ## The draws of start-up (R88, R169, R181, R221, R356) -/

/-- The bytes of the keys of start-up and of a member's BOOT. -/
def State.startBytes (s : State) : Nat := if s.on R.NET_STS_MEMBER then 176 else 160

/-- The state once the keys of start-up and a member's BOOT have been drawn. -/
def State.keysDrawn (s : State) : State :=
  if s.on R.NET_STS_MEMBER then ((s.drawPool 160).2.drawPool 16).2 else (s.drawPool 160).2

/-- The ephemeral keys that the pool then holds bytes for. -/
def State.slicesDrawn (s : State) : Nat := min 1024 (s.keysDrawn.rng.pool / 32)

theorem State.keysDrawn_pool (s : State) :
    s.keysDrawn.rng.pool = s.rng.pool - s.startBytes := by
  unfold State.keysDrawn State.startBytes
  split
  · rw [State.drawPool_pool, State.drawPool_pool, Nat.sub_sub]
  · rw [State.drawPool_pool]

theorem State.keysDrawn_rng (s : State) : s.keysDrawn.rng = { s.rng with admin := s.keysDrawn.rng.admin } := by
  unfold State.keysDrawn
  split <;> rfl

/-- What the draws of start-up leave. -/
theorem State.startDraws_rng (s : State) :
    s.startDraws.rng = { (s.keysDrawn.drawPool (32 * s.slicesDrawn)).2.rng with
      waiting := s.rng.waiting ++ (List.range (1024 - s.slicesDrawn)).map (fun i => (32, AdminOp.ephemeral (s.slicesDrawn + i))) } := by
  unfold State.startDraws State.slicesDrawn State.keysDrawn
  by_cases hmember : s.on R.NET_STS_MEMBER = true
  · simp only [if_pos hmember]
    rfl
  · simp only [if_neg hmember]
    rfl

/-- From a full pool. -/
theorem State.slicesDrawn_of_full {s : State} (hpool : s.rng.pool = 32768) : s.slicesDrawn = (32768 - s.startBytes) / 32 := by
  rw [State.slicesDrawn, s.keysDrawn_pool, hpool]
  omega

theorem State.startDraws_pool (s : State) : s.startDraws.rng.pool = s.rng.pool - s.startBytes - 32 * s.slicesDrawn := by
  rw [s.startDraws_rng, ← s.keysDrawn_pool]
  exact s.keysDrawn.drawPool_pool _

theorem State.startDraws_exps (s : State) : s.startDraws.rng.exps = s.rng.exps := by
  rw [s.startDraws_rng]
  exact (congrArg Rng.exps s.keysDrawn_rng :)

theorem State.startDraws_reserve (s : State) : s.startDraws.rng.reserve = s.rng.reserve := by
  rw [s.startDraws_rng]
  exact (congrArg Rng.reserve s.keysDrawn_rng :)

theorem State.startDraws_keys (s : State) : s.startDraws.ks.krcKey.length = 32 ∧ s.startDraws.ks.contKey.length = 32 := by
  have hlen := s.drawPool_length 160
  have hkrc : s.startDraws.ks.krcKey = cut (s.drawPool 160).1 0 32 := rfl
  have hcont : s.startDraws.ks.contKey = cut (s.drawPool 160).1 128 32 := rfl
  simp [hkrc, hcont, cut, hlen]

/-! ## The end of WARMUP (R223, R225) -/

theorem State.instantiateAll_run (s : State) {x : Nat} (hx : x < 4) : (s.instantiateAll.rng.exp x).run = true := by
  simp [State.instantiateAll, Rng.exp, hx, Expander.instantiate, Expander.update, Expander.run]

theorem State.warmupReady_iff (s : State) :
    s.warmupReady = true ↔ s.rngState = rngWarmup ∧ 1024 ≤ s.rng.blocks ∧ s.cellsWell = true ∧ 6 ≤ s.rng.queue.length ∧
      s.get R.RNG_KAT_STS_COND = 0 ∧ s.get R.RNG_KAT_STS_EXP = 0 := by
  simp only [State.warmupReady, Bool.and_eq_true, beq_iff_eq, decide_eq_true_eq, and_assoc]

/-- The stores filled by the expanders that were just instantiated. -/
def State.firstFilled (s : State) : State := s.instantiateAll.storeFill 294912 294912

theorem State.firstFilled_refills (s : State) : s.instantiateAll.Refills s.firstFilled := .ofStoreFill ..

/-- The generator in service. -/
def State.broughtIntoService (s : State) : State := ((s.set R.RNG_STS_KAT_DONE 0 1).set R.RNG_STS_STATE 0 rngService).rngSync

theorem State.warmupDone_of_passed {s : State} {cond : Bool} {exps : Nat} (hready : s.warmupReady = true) (hcond : cond = false)
    (hexps : exps % 16 = 0) : s.warmupDone cond exps = s.firstFilled.startDraws.broughtIntoService := by
  simp only [State.warmupDone, hready, hcond, hexps, Bool.not_true, Bool.false_eq_true, ne_eq, not_true_eq_false, or_self, if_false]
  rfl

theorem State.warmupDone_of_failed {s : State} {cond : Bool} {exps : Nat} (hready : s.warmupReady = true)
    (hfail : cond = true ∨ exps % 16 ≠ 0) : s.warmupDone cond exps = s.rngKatFail cond (exps % 16) := by
  simp only [State.warmupDone, hready, Bool.not_true, Bool.false_eq_true, if_false, if_pos hfail]

theorem State.warmupDone_of_unready {s : State} (hready : ¬s.warmupReady = true) (cond : Bool) (exps : Nat) :
    s.warmupDone cond exps = s := if_pos (by simpa using hready)

theorem State.broughtIntoService_rng (s : State) : s.broughtIntoService.rng = s.rng := by
  have hsync := State.RngStep.ofSync (f := R.RNG_STS_STATE)
    ((s.set R.RNG_STS_KAT_DONE 0 1).set R.RNG_STS_STATE 0 rngService) (by decide)
  exact hsync.rng

theorem State.foldl_ks {α : Type} (f : State → α → State) (h : ∀ t x, (f t x).ks = t.ks) (l : List α) (s : State) :
    (l.foldl f s).ks = s.ks :=
  List.foldlRecOn l f (motive := fun t => t.ks = s.ks) rfl (fun t ht x _ => (h t x).trans ht)

theorem State.rngSync_ks (s : State) : s.rngSync.ks = s.ks := by
  simp only [State.rngSync, State.set_ks]
  rw [State.foldl_ks, State.foldl_ks]
  all_goals exact fun _ _ => rfl

theorem State.broughtIntoService_ks (s : State) : s.broughtIntoService.ks = s.ks := State.rngSync_ks _

theorem State.broughtIntoService_shown (s : State) :
    s.broughtIntoService.rngState = rngService ∧ s.broughtIntoService.get R.RNG_STS_KAT_DONE = 1 := by
  have hdone := State.RngStep.ofSet (f := R.RNG_STS_KAT_DONE) (s.set R.RNG_STS_KAT_DONE 0 1) R.RNG_STS_STATE 0 rngService (by decide)
  exact ⟨(State.RngStep.ofSync _ (by decide)).shown.trans (State.get_set_self _ _ _ _ (by decide)),
    ((hdone.trans (.ofSync _ (by decide))).shown).trans (State.get_set_self _ _ _ _ (by decide))⟩

/-- The stores, expanders and waiting draws of a generator brought into service. -/
theorem State.startDraws_of_firstFilled {s : State} (hadmin : s.rng.admin = []) (hreserve : s.rng.reserve = []) :
    let n := (32768 - s.startBytes) / 32
    s.firstFilled.startDraws.rng.fill = 262144 ∧ s.firstFilled.startDraws.rng.pool = 32768 - s.startBytes - 32 * n ∧
      (∀ x, x < 4 → (s.firstFilled.startDraws.rng.exp x).run = true) ∧
      s.firstFilled.startDraws.rng.waiting =
        s.rng.waiting ++ (List.range (1024 - n)).map (fun i => (32, AdminOp.ephemeral (n + i))) := by
  obtain ⟨hpool, hfill, hrun⟩ := State.storeFill_empty (s := s.instantiateAll) (n := 294912) (per := 294912) hadmin hreserve
    (fun _ hx => s.instantiateAll_run hx) (by decide) (by decide) (by decide)
  have hbytes : s.firstFilled.startBytes = s.startBytes := by
    have hon : s.firstFilled.on R.NET_STS_MEMBER = s.on R.NET_STS_MEMBER :=
      congrArg (· != 0) (State.get_of_regs s.firstFilled_refills.regs _ _)
    rw [State.startBytes, hon]
    rfl
  have hslices := State.slicesDrawn_of_full (s := s.firstFilled) hpool
  rw [hbytes] at hslices
  refine ⟨?_, ?_, fun x hx => ?_, ?_⟩
  · rw [Rng.fill, State.startDraws_reserve]
    exact hfill
  · rw [State.startDraws_pool, hslices, hbytes]
    exact congrArg (fun p => p - _ - _) hpool
  · rw [Rng.exp, State.startDraws_exps]
    exact hrun x hx
  · rw [State.startDraws_rng, hslices, s.firstFilled_refills.waiting]
    rfl

/-- A failed known-answer test leaves the generator as it is and holds the device. -/
theorem State.rngKatFail_holds (s : State) (cond : Bool) (exps : Nat) :
    (s.rngKatFail cond exps).rng = s.rng ∧ (s.rngKatFail cond exps).get R.GLB_STS_FAIL = 5 ∧ (s.rngKatFail cond exps).stage = 8 := by
  refine ⟨?_, ?_, State.get_set_self _ _ _ _ (by decide)⟩
  · refine (State.RngStep.ofFold (f := R.RNG_STS_STATE) _ _ _ fun p _ t => (State.LogStep.ofRecord ..).rngStep (by decide)).rng.trans ?_
    exact (State.RngStep.ofErr (f := R.RNG_STS_STATE) _ _ _ _ (by decide)).rng
  · exact (State.get_set_other _ _ _ _ _ _ (by decide)).trans (State.get_set_self _ _ _ _ (by decide))

/-! ## The raw-bit port (R226) -/

theorem State.tapRestartBy_of_due {s : State} {ahead : Nat} (htap : s.rng.tap.isSome = true) (hon : s.on R.RNG_RAW_CTL_RESTART = true)
    (hstop : s.rng.tapStop = none) (hlen : 0 < s.get R.RNG_RAW_CTL_RESTART_LEN)
    (hfar : s.rng.tapFrom + s.get R.RNG_RAW_CTL_RESTART_LEN ≤ s.rng.tapBits + ahead) :
    s.tapRestartBy ahead = { s with rng := { s.rng with
      tapFrom := s.rng.tapFrom + s.get R.RNG_RAW_CTL_RESTART_LEN, tapStop := some (s.frameNo + 2) } } :=
  if_pos (by simp [htap, hon, hstop, hlen, hfar])

theorem State.tapRestartBy_of_early {s : State} {ahead : Nat} (h : s.rng.tap = none ∨ s.on R.RNG_RAW_CTL_RESTART = false ∨
      s.rng.tapStop.isSome = true ∨ s.get R.RNG_RAW_CTL_RESTART_LEN = 0 ∨
      s.rng.tapBits + ahead < s.rng.tapFrom + s.get R.RNG_RAW_CTL_RESTART_LEN) : s.tapRestartBy ahead = s := by
  refine if_neg ?_
  simp only [Bool.and_eq_true, decide_eq_true_eq, not_and, Nat.not_le, Option.isNone_iff_eq_none]
  intro ⟨⟨⟨htap, hon⟩, hstop⟩, hlen⟩
  rcases h with h | h | h | h | h
  · simp [h] at htap
  · simp [h] at hon
  · simp [hstop] at h
  · omega
  · exact h

/-- Settles O32: the known-answer tests at the end of WARMUP, and the events of the raw-bit port. -/
theorem warmupAndTap : Obligations.WarmupAndTap := by
  unfold Obligations.WarmupAndTap
  refine ⟨fun s cond exps => ⟨fun hst hblocks hcells hqueue hkcond hkexp => ?ready, fun hno => congrArg ok ?unready⟩,
    fun s => ⟨fun htap => ⟨fun hleft => congrArg ok (if_pos ⟨htap, hleft⟩), fun hleft => congrArg ok (if_neg fun h => hleft h.2),
      congrArg ok (if_pos htap), fun hon hstop hlen hfar => congrArg ok (State.tapRestartBy_of_due htap hon hstop hlen hfar),
      fun hno => congrArg ok (State.tapRestartBy_of_early (.inr hno))⟩, fun hnone => ?untapped⟩⟩
  case ready =>
    have hready := s.warmupReady_iff.2 ⟨hst, hblocks, hcells, hqueue, hkcond, hkexp⟩
    refine ⟨fun hcond hexps hadmin hreserve => ⟨_, congrArg ok (State.warmupDone_of_passed hready hcond hexps), ?passed⟩,
      fun hfail => ⟨_, congrArg ok (State.warmupDone_of_failed hready hfail), ?failed⟩⟩
    case passed =>
      obtain ⟨hfill, hpool, hrun, hwaiting⟩ := State.startDraws_of_firstFilled hadmin hreserve
      obtain ⟨hservice, hdone⟩ := s.firstFilled.startDraws.broughtIntoService_shown
      obtain ⟨hkrc, hcont⟩ := s.firstFilled.startDraws_keys
      have hrng := (State.wires_rng _).trans s.firstFilled.startDraws.broughtIntoService_rng
      have hks := (State.wires_ks _).trans s.firstFilled.startDraws.broughtIntoService_ks
      rw [hrng, hks]
      exact ⟨(State.get_wires _ _ _ (by decide)).trans hservice, (State.get_wires _ _ _ (by decide)).trans hdone,
        hfill, hpool, hrun, hkrc, hcont, hwaiting⟩
    case failed =>
      obtain ⟨hrng, hcode, hstage⟩ := s.rngKatFail_holds cond (exps % 16)
      have hwires := (s.rngKatFail cond (exps % 16)).wires_rng.trans hrng
      exact ⟨(State.get_wires _ _ _ (by decide)).trans hcode, (State.get_wires _ _ _ (by decide)).trans hstage,
        congrArg Rng.pool hwires, congrArg Rng.fill hwires⟩
  case unready =>
    refine State.warmupDone_of_unready (fun h => ?_) cond exps
    obtain ⟨hst, hblocks, hcells, hqueue, hkcond, hkexp⟩ := s.warmupReady_iff.1 h
    rcases hno with h | h | h | h | h | h
    · exact h hst
    · omega
    · simp [hcells] at h
    · omega
    · exact h hkcond
    · exact h hkexp
  case untapped =>
    have hno : ¬s.rng.tap.isSome = true := by simp [hnone]
    exact ⟨congrArg ok (if_neg fun h => hno h.1), congrArg ok (if_neg hno), congrArg ok (State.tapRestartBy_of_early (.inl hnone))⟩

end Sys2Proof.Machine

namespace Sys2Proof.Machine

/-! ## The outputs that follow the state, at reset and after every step (R255, R257, R259, R273) -/

/-- At reset every OTP field is blank, and a blank field is not damaged. -/
theorem State.reset_undamaged (code : Nat) : (State.reset.otpAt code).damaged code = false := by
  have hblank : State.reset.otpAt code = {} := rfl
  simp [hblank, OtpField.damaged]

theorem State.reset_damagedFollows : State.reset.damagedFollows := by
  have hfields : State.reset.get R.LC_OTP_DAMAGED_FIELDS = 0 := by decide
  have htables : State.reset.get R.LC_OTP_DAMAGED_TABLES = 0 := by decide
  have hany : State.reset.on R.LC_OTP_STS_ANY_DAMAGED = false := by decide
  refine ⟨fun k _ => ?_, fun k _ => ?_, ?_⟩
  · rw [hfields, Nat.zero_testBit, State.reset_undamaged]
  · rw [htables, Nat.zero_testBit, State.reset_undamaged]
  · simp [hany, State.reset_undamaged]

/-- Settles O5: each output reads at reset what the blank state drives. -/
theorem resetOutputsFollow : Obligations.ResetOutputsFollow := by
  unfold Obligations.ResetOutputsFollow
  have htoken : State.reset.tokenFollows := by unfold State.tokenFollows; decide
  have harmed : State.reset.armedFollows := by unfold State.armedFollows; decide
  have hpin : State.reset.tamperOutFollows := by unfold State.tamperOutFollows; decide
  exact ⟨htoken, harmed, hpin, State.reset_damagedFollows⟩

/-- What a command leaves has its outputs brought up to the state. -/
theorem exec_outputsFollow {c : Instr} {s t : State} (h : exec c s = .next t) : t.OutputsFollow := by
  obtain ⟨u, hu⟩ := exec_ok c s
  have hwired : u.wires = t := by
    rw [hu] at h
    injection h
  exact hwired ▸ u.wires_follow

/-- Settles O4: with nothing waiting the step keeps the state, and a command leaves its outputs brought up to it. -/
theorem stepKeepsOutputs : Obligations.StepKeepsOutputs := by
  unfold Obligations.StepKeepsOutputs
  intro s t hs hstep
  cases hq : s.pending with
  | nil =>
    rw [stepIdlesOnEmptyQueue s hq] at hstep
    cases hstep
    exact hs
  | cons c rest =>
    rw [stepRunsFrontCommand c rest s hq] at hstep
    exact exec_outputsFollow hstep

end Sys2Proof.Machine

namespace Sys2Proof.Machine

/-! ## Administrative draws (R221, R227) -/

/-- A draw asked for waits behind the others, and their number is shown. -/
theorem State.askDraw_eq (s : State) (n : Nat) (op : AdminOp) :
    s.askDraw n op = ({ s with rng := { s.rng with waiting := s.rng.waiting ++ [(n, op)] } }).set R.RNG_POOL_STS_WAITING 0
      (s.rng.waiting.length + 1) :=
  s.setWaiting_snoc _ _

/-! ## The writes of the lifecycle controller (R233, R236) -/

theorem State.lcTransition_of_accepted {s : State} {value : Nat} (h : s.lcCheck value = 0) :
    s.lcTransition value =
      ((({ (s.bump R.LC_TOKEN_SEQ).set R.LC_STS_ERR 0 0 with
        lc := { s.lc with target := some (bits value 3 0), begun := false } }).set R.LC_STATE_TARGET 0 (bits value 3 0)).set
          R.LC_STS_BUSY 0 1).lcRecord (bits value 3 0) := by
  simp only [State.lcTransition, h, if_true]
  rfl

theorem State.lcTransition_of_rejected {s : State} {value : Nat} (h : s.lcCheck value ≠ 0) :
    s.lcTransition value =
      ((s.bump R.LC_TOKEN_SEQ).set R.LC_STS_ERR 0 (s.lcCheck value)).lcRecord (bits value 3 0) := by
  simp only [State.lcTransition, h, if_false]

theorem exec_lcTransition_of_writable {s : State} (hw : s.lcWritable = true) (value : Nat) :
    exec (.lcTransition value) s = ok (s.lcTransition value) := congrArg ok (if_pos hw)

theorem exec_lcAccess_of_taken {s : State} (htap : s.tapAnswers = true) (hlc : s.get R.LC_STATE_CODE ≤ 1) (value : Nat) :
    exec (.lcAccess value) s = ok (s.lcTransition value) := congrArg ok (if_pos ⟨htap, hlc⟩)

theorem exec_lcAccess_of_refused {s : State} (h : s.tapAnswers = false ∨ 1 < s.get R.LC_STATE_CODE) (value : Nat) :
    exec (.lcAccess value) s = ok s := by
  refine congrArg ok (if_neg ?_)
  rintro ⟨htap, hlc⟩
  rcases h with h | h
  · simp [htap] at h
  · omega

theorem exec_lcZeroize {s : State} (hw : s.writable 0x0A0014 = true) : exec .lcZeroize s = ok (s.lcZeroize 5) :=
  congrArg ok (State.ifWritable_true hw _)

/-- Without a Security Officer of the device the zeroization is rejected and the write recorded. -/
theorem State.lcZeroize_of_other {s : State} (hso : s.holds devSession roleSO = false) :
    s.lcZeroize 5 = (s.set R.LC_STS_ERR 0 3).writeDropped 0x0A0014 := by
  simp [State.lcZeroize, hso]

/-- What LC_ZEROIZE answers a Security Officer rests on the lifecycle state, then on what is in progress. -/
theorem State.lcZeroize_of_officer {s : State} (hso : s.holds devSession roleSO = true) :
    s.lcZeroize 5 = if s.get R.LC_STATE_CODE ≠ 3 then s.set R.LC_STS_ERR 0 5
      else if s.on R.LC_STS_BUSY = true ∨ s.updating = true then s.set R.LC_STS_ERR 0 6
      else (({ s with lc := { s.lc with zeroize := true, zeroBegun := false } }).set R.LC_STS_ERR 0 0).set R.LC_STS_BUSY 0 1 := by
  simp [State.lcZeroize, hso]

/-- Settles O34: the write of a transition over both paths, and the answers to LC_ZEROIZE. -/
theorem lifecycleWrites : Obligations.LifecycleWrites := by
  unfold Obligations.LifecycleWrites
  intro s value target said accepted after t
  have hwrite : s.lcTransition value = t := by
    by_cases hcheck : s.lcCheck value = 0
    · have hafter : after = accepted := if_pos hcheck
      rw [State.lcTransition_of_accepted hcheck, State.lcRecord]
      simp only [t, hafter]
      rfl
    · have hafter : after = said (s.lcCheck value) := if_neg hcheck
      rw [State.lcTransition_of_rejected hcheck, State.lcRecord]
      simp only [t, hafter]
      rfl
  refine ⟨fun hw => ?written, fun hw => ?dropped, fun htap hlc => ?tap, fun hno => exec_lcAccess_of_refused hno value, rfl,
    fun hw => ⟨fun hso => ⟨fun hlc => ⟨fun hbusy hupd => ?accepted, fun hbusy => ?busy⟩, fun hlc => ?state⟩, fun hso => ?other⟩⟩
  case written => rw [exec_lcTransition_of_writable hw, hwrite]; rfl
  case dropped => exact congrArg ok (if_neg (by simp [hw]))
  case tap => rw [exec_lcAccess_of_taken htap hlc, hwrite]; rfl
  all_goals rw [exec_lcZeroize hw]
  case accepted => rw [State.lcZeroize_of_officer hso, if_neg (not_not_intro hlc), if_neg (by simp [hbusy, hupd])]; rfl
  case busy => rw [State.lcZeroize_of_officer hso, if_neg (not_not_intro hlc), if_pos hbusy]; rfl
  case state => rw [State.lcZeroize_of_officer hso, if_pos hlc]; rfl
  case other => rw [State.lcZeroize_of_other hso]; rfl

/-! ## The end of a drain (R234, R236) -/

/-- A row whose event falls due marks it once. -/
theorem State.mark_of_due (s : State) (m : Mark) :
    s.mark m true = if m ∈ s.glb.marks then s else { s with glb := { s.glb with marks := s.glb.marks ++ [m] } } := by
  by_cases h : m ∈ s.glb.marks <;> simp [State.mark, h]

theorem State.drainDue_of_ended {s : State} {b : Nat} (htarget : s.lc.target = some b) (hbegun : s.lc.begun = true)
    (hprog : s.lc.programming = false) (hdrain : s.on R.LC_STS_DRAIN = true) (hcmds : s.trv.cmds = []) : s.drainDue = true := by
  simp [State.drainDue, htarget, hbegun, hprog, hdrain, hcmds]

theorem State.drainDue_of_inFlight {s : State} (h : s.trv.cmds ≠ []) : s.drainDue = false := by
  simp [State.drainDue, h]

theorem State.zeroizeDue_of_ended {s : State} (hzero : s.lc.zeroize = true) (hbegun : s.lc.zeroBegun = true)
    (hcmds : s.trv.cmds = []) : s.zeroizeDue = true := by
  simp [State.zeroizeDue, hzero, hbegun, hcmds]

theorem State.zeroizeDue_of_inFlight {s : State} (h : s.trv.cmds ≠ []) : s.zeroizeDue = false := by
  simp [State.zeroizeDue, h]

/-- The bits of a transition depend on the copies and the state code. -/
theorem State.lcBits_congr {s t : State} (hlc : t.lc = s.lc) (hcode : t.get R.LC_STATE_CODE = s.get R.LC_STATE_CODE) (b : Nat) :
    t.lcBits b = s.lcBits b := by
  simp only [State.lcBits, hlc, hcode]

/-- With bits left to program the transition goes on. -/
theorem State.lcFinish_of_bits {s : State} (h : s.lc.bits ≠ []) : s.lcFinish = s := by
  unfold State.lcFinish
  split
  · exact if_neg fun hend => h hend.2
  · rfl

theorem State.lcProgram_none {s : State} {b : Nat} (htarget : s.lc.target = some b) :
    s.lcProgram none = { s with lc := { s.lc with programming := true, bits := s.lcBits b, tries := 0 } } := by
  simp only [State.lcProgram, htarget, List.nil_append]

theorem State.lcDrained_of_due {s : State} {b : Nat} (htarget : s.lc.target = some b) (hdue : s.drainDue = true) :
    s.lcDrained = if b = 2 ∧ s.otpAt otpDeviceSecret = {} then (s.set R.LC_STS_DRAIN 0 0).askDraw 32 .deviceSecret
      else ((s.set R.LC_STS_DRAIN 0 0).lcProgram none).lcFinish := by
  simp only [State.lcDrained, htarget, hdue, if_true]

theorem State.lcDrained_of_early {s : State} (h : s.drainDue = false) : s.lcDrained = s := by
  unfold State.lcDrained
  split
  · exact if_neg (by simp [h])
  · rfl

/-- A transition that wants no device secret starts to program at once. -/
theorem State.lcDrained_of_bits {s : State} {b : Nat} (htarget : s.lc.target = some b) (hdue : s.drainDue = true)
    (hb : b ≠ 2) (hbits : s.lcBits b ≠ []) :
    s.lcDrained = { s.set R.LC_STS_DRAIN 0 0 with lc := { s.lc with programming := true, bits := s.lcBits b, tries := 0 } } := by
  have hsame : (s.set R.LC_STS_DRAIN 0 0).lcBits b = s.lcBits b :=
    State.lcBits_congr (State.set_lc ..) (State.get_set_other _ _ _ _ _ _ (by decide)) b
  rw [State.lcDrained_of_due htarget hdue, if_neg fun h => hb h.1, State.lcProgram_none (s := s.set R.LC_STS_DRAIN 0 0) htarget, hsame]
  exact State.lcFinish_of_bits hbits

theorem State.zeroizeDrained_of_due {s : State} (h : s.zeroizeDue = true) :
    s.zeroizeDrained = (({ s.zeroization with lc := { s.zeroization.lc with zeroize := false, zeroBegun := false } }).set
      R.LC_STS_DRAIN 0 0).set R.LC_STS_BUSY 0 0 := if_pos h

theorem State.zeroizeDrained_of_early {s : State} (h : s.zeroizeDue = false) : s.zeroizeDrained = s := if_neg (by simp [h])

/-- Settles O35: an ended drain is marked and acts at its boundary; with a command in flight neither is due. -/
theorem drainsEnd : Obligations.DrainsEnd := by
  unfold Obligations.DrainsEnd
  intro s
  refine ⟨s.mark_of_due, fun b htarget hbegun hprog hdrain hcmds => ?transition, fun hzero hbegun hcmds => ?zeroization,
    fun hcmds => ?inFlight⟩
  case transition =>
    have hdue := State.drainDue_of_ended htarget hbegun hprog hdrain hcmds
    refine ⟨congrArg (fun due => ok (s.mark .transitionDrain due)) hdue, fun hb hblank => ?_,
      fun hb hbits => State.lcDrained_of_bits htarget hdue hb hbits⟩
    rw [State.lcDrained_of_due htarget hdue, if_pos ⟨hb, hblank⟩]
    exact State.askDraw_eq _ _ _
  case zeroization =>
    have hdue := State.zeroizeDue_of_ended hzero hbegun hcmds
    exact ⟨congrArg (fun due => ok (s.mark .zeroizeDrain due)) hdue, State.zeroizeDrained_of_due hdue⟩
  case inFlight =>
    have hdrain := State.drainDue_of_inFlight hcmds
    have hzero := State.zeroizeDue_of_inFlight hcmds
    exact ⟨congrArg (fun due => ok (s.mark .transitionDrain due)) hdrain, congrArg (fun due => ok (s.mark .zeroizeDrain due)) hzero,
      State.lcDrained_of_early hdrain, State.zeroizeDrained_of_early hzero⟩

/-! ## LC_OTP_CMD (R254, R255) -/

theorem exec_otpProgram {s : State} (hw : s.writable 0x0A0040 = true) (code : Nat) :
    exec (.otpProgram code) s = ok (s.otpProgram code) := congrArg ok (State.ifWritable_true hw _)

theorem exec_otpRead {s : State} (hw : s.writable 0x0A0040 = true) (code : Nat) :
    exec (.otpRead code) s = ok (s.otpRead code) := congrArg ok (State.ifWritable_true hw _)

theorem State.otpProgram_of_busy {s : State} (hbusy : s.on R.LC_OTP_STS_BUSY = true) (code : Nat) : s.otpProgram code = s :=
  if_pos hbusy

theorem State.otpRead_of_busy {s : State} (hbusy : s.on R.LC_OTP_STS_BUSY = true) (code : Nat) : s.otpRead code = s :=
  if_pos hbusy

/-- The value PROGRAM asks of a field: LC_OTP_BUF cut to the field, of the capability fuses the bits that name a unit (R254, R256). -/
def State.otpWanted (s : State) (code : Nat) : Nat :=
  if code = 5 then s.otpBuf % 2 ^ (8 * otpSize code) &&& fuseMask else s.otpBuf % 2 ^ (8 * otpSize code)

/-- The bits PROGRAM has still to set: of both copies, then the lock bit where the field has one (R254). -/
def State.otpTodo (s : State) (code : Nat) : List (Nat × Nat × Nat) :=
  missingBits code 0 (8 * otpSize code) (s.otpWanted code) (s.otpAt code).a ++
    missingBits code 1 (8 * otpSize code) (s.otpWanted code) (s.otpAt code).b ++ (if code = 5 then [] else [(code, 2, 0)])

/-- A field with a lock bit has that bit at least to program. -/
theorem State.otpTodo_of_lock (s : State) {code : Nat} (h : code ≠ 5) : s.otpTodo code ≠ [] := by
  simp [State.otpTodo, h]

section
variable {s : State} {code : Nat} (hidle : s.on R.LC_OTP_STS_BUSY = false)
include hidle

theorem State.otpProgram_of_unknown (hcode : code ∉ otpCodes) : s.otpProgram code = s.set R.LC_OTP_STS_ERR 0 1 := by
  simp [State.otpProgram, hidle, hcode, State.otpErr]

theorem State.otpRead_of_unknown (hcode : code ∉ otpCodes) : s.otpRead code = s.set R.LC_OTP_STS_ERR 0 1 := by
  simp [State.otpRead, hidle, hcode, State.otpErr]

theorem State.otpProgram_of_state (hcode : code ∈ otpCodes) (hstate : s.get R.LC_STATE_CODE ≠ otpState code) :
    s.otpProgram code = s.set R.LC_OTP_STS_ERR 0 2 := by
  simp [State.otpProgram, hidle, hcode, hstate, State.otpErr]

/-- A programmed field, or a bit that the new value lacks, is not written over. -/
theorem State.otpProgram_of_overwrite (hcode : code ∈ otpCodes) (hstate : s.get R.LC_STATE_CODE = otpState code) (h5 : code ≠ 5)
    (hover : (s.otpAt code).lock = true ∨ subBits (s.otpAt code).a (s.otpWanted code) = false ∨
      subBits (s.otpAt code).b (s.otpWanted code) = false) :
    s.otpProgram code = s.set R.LC_OTP_STS_ERR 0 3 := by
  simp only [State.otpWanted, if_neg h5] at hover
  simp [State.otpProgram, hidle, hcode, hstate, h5, hover, State.otpErr]

theorem State.otpProgram_of_fewUnits (hcode : code ∈ otpCodes) (hstate : s.get R.LC_STATE_CODE = otpState code) (h5 : code = 5)
    (hfew : fuseMinimum ((s.otpAt code).a ||| (s.otpAt code).b ||| s.otpWanted code) = false) :
    s.otpProgram code = s.set R.LC_OTP_STS_ERR 0 4 := by
  simp only [State.otpWanted, if_pos h5] at hfew
  subst h5
  simp [State.otpProgram, hidle, hcode, hstate, hfew, State.otpErr]

/-- A value the field can take starts with the bits still to set. -/
theorem State.otpProgram_started (hcode : code ∈ otpCodes) (hstate : s.get R.LC_STATE_CODE = otpState code)
    (hfits : code ≠ 5 → (s.otpAt code).lock = false ∧ subBits (s.otpAt code).a (s.otpWanted code) = true ∧
      subBits (s.otpAt code).b (s.otpWanted code) = true)
    (hunits : code = 5 → fuseMinimum ((s.otpAt code).a ||| (s.otpAt code).b ||| s.otpWanted code) = true)
    (htodo : s.otpTodo code ≠ []) :
    s.otpProgram code = (({ s with lc := { s.lc with otpBits := s.otpTodo code, otpTries := 0 } }).set R.LC_OTP_STS_ERR 0 0).set
      R.LC_OTP_STS_BUSY 0 1 := by
  have hover : ¬(code ≠ 5 ∧ ((s.otpAt code).lock = true ∨ (!subBits (s.otpAt code).a (s.otpWanted code)) = true ∨
      (!subBits (s.otpAt code).b (s.otpWanted code)) = true)) := by
    rintro ⟨h5, h⟩
    simp [hfits h5] at h
  have hfew : ¬(code = 5 ∧ (!fuseMinimum ((s.otpAt code).a ||| (s.otpAt code).b ||| s.otpWanted code)) = true) := by
    rintro ⟨h5, h⟩
    simp [hunits h5] at h
  have hknown : ¬(!otpCodes.contains code) = true := by simp [hcode]
  exact (if_neg (by simp [hidle])).trans ((if_neg hknown).trans ((if_neg (not_not_intro hstate)).trans
    ((if_neg hover).trans ((if_neg hfew).trans (if_neg htodo)))))

/-- READ shows what the field reads as, where that takes no free value. -/
theorem State.otpRead_of_reading (hcode : code ∈ otpCodes) {v : Nat} (hread : s.otpReading code = (v, s)) :
    s.otpRead code = (((List.range 6).foldl (fun u i => u.set R.LC_OTP_BUF_DATA i (v / 2 ^ (64 * i))) s).set R.LC_OTP_STS_ERR 0 0).lcEvt
      R.LC_EVT_STS_OTP_DONE := by
  simp [State.otpRead, hidle, hcode, hread, State.otpErr]

end

theorem State.otpReading_caps (s : State) : s.otpReading 5 = ((s.otpAt 5).a ||| (s.otpAt 5).b, s) := rfl

/-- An undamaged field reads as its value: its copies agree. -/
theorem State.otpReading_of_undamaged {s : State} {code : Nat} (h6 : code ≠ 6) (h : (s.otpAt code).damaged code = false) :
    s.otpReading code = ((s.otpAt code).a, s) := by
  by_cases h5 : code = 5
  · subst h5
    have hcopies : (s.otpAt 5).a = (s.otpAt 5).b := by simpa [OtpField.damaged] using h
    rw [State.otpReading_caps, ← hcopies, Nat.or_self]
  · simp only [State.otpReading, h6, h5, h, if_false, Bool.not_false, if_true]

/-- A damaged device ID reads as all ones. -/
theorem State.otpReading_of_damagedId {s : State} (h : (s.otpAt 1).damaged 1 = true) : s.otpReading 1 = (2 ^ 128 - 1, s) := by
  simp [State.otpReading, h]

theorem State.otpGood_of_damaged {s : State} {code : Nat} (h : (s.otpAt code).damaged code = true) : s.otpGood code = false := by
  simp [State.otpGood, h]

/-- A damaged debug authority hash matches no key. -/
theorem State.authorityHash_of_damaged {s : State} (h : (s.otpAt 2).damaged 2 = true) (hlc : 1 < s.get R.LC_STATE_CODE) :
    s.authorityHash = none := by
  rw [State.authorityHash, if_neg (by omega), if_neg (by simp [State.otpGood_of_damaged h])]

/-! ## The programming of a bit (R234, R235) -/

theorem State.otpSetBit_bits (s : State) (b : Nat × Nat × Nat) : (s.otpSetBit b).lc.bits = s.lc.bits := by
  obtain ⟨code, copy, i⟩ := b
  by_cases h : code = 0 <;> simp [State.otpSetBit, h]

/-- After power failure, on the fatal clock path and in the safe-state wait no bit is programmed. -/
theorem State.otpBit_of_stopped {s : State} (h : s.glb.pwrFail = true ∨ s.clk.fatal = true ∨ s.clk.safe.isSome = true) (good : Bool) :
    s.otpBit good = s := by
  refine if_pos ?_
  rcases h with h | h | h <;> simp [h]

section
variable {s : State} {b : Nat × Nat × Nat} {rest : List (Nat × Nat × Nat)}
  (hgoes : ¬(s.glb.pwrFail = true ∨ s.clk.fatal = true ∨ s.clk.safe.isSome = true ∨ s.lc.bitRan = true))
  (hbits : s.lc.bits = []) (htodo : s.lc.otpBits = b :: rest)
include hgoes hbits htodo

/-- A bit of LC_OTP_CMD that is programmed, and not its last, leaves the list. -/
theorem State.otpBit_programmed (hrest : rest ≠ []) :
    s.otpBit true = { s.otpSetBit b with lc := { (s.otpSetBit b).lc with bits := [], otpBits := rest, otpTries := 0, bitRan := true } } := by
  have hkept : (s.otpSetBit b).lc.bits = [] := (s.otpSetBit_bits b).trans hbits
  simp [State.otpBit, hgoes, hbits, htodo, tryBit, hrest, hkept]

/-- A bit of LC_OTP_CMD that fails is tried again, up to four times. -/
theorem State.otpBit_failed (htries : s.lc.otpTries < 3) :
    s.otpBit false = { s with lc := { s.lc with otpTries := s.lc.otpTries + 1, bitRan := true } } := by
  have hagain : s.lc.otpTries + 1 < 4 := by omega
  simp [State.otpBit, hgoes, hbits, htodo, tryBit, hagain]

end

/-- Settles O36: the answers of PROGRAM and READ, the bit of a frame, and what a damaged field reads as. -/
theorem otpAccess : Obligations.OtpAccess := by
  unfold Obligations.OtpAccess
  refine ⟨fun s code hw => ?access, fun s code hcode hdam hw hidle => ?damaged⟩
  case access =>
    intro f raw v todo
    rw [exec_otpProgram hw, exec_otpRead hw]
    refine ⟨fun hbusy => ?busy,
      fun hidle => ⟨fun hcode => ?unknown, fun hcode => ⟨fun hstate => ?state,
        fun hstate h5 => ⟨fun hlock ha hb => ?fits, fun hover => ?overwrite⟩,
        fun hstate h5 => ⟨fun hunits htodo => ?fuses, fun hfew => ?fewUnits⟩, fun h6 hgood => ?read⟩⟩,
      fun b rest hpwr hfatal hsafe hran hbits htodo hrest => ?bit, fun good hstop => ?stopped⟩
    case busy => exact ⟨congrArg ok (State.otpProgram_of_busy hbusy code), congrArg ok (State.otpRead_of_busy hbusy code)⟩
    case unknown =>
      exact ⟨congrArg ok (State.otpProgram_of_unknown hidle hcode), congrArg ok (State.otpRead_of_unknown hidle hcode)⟩
    case state => exact congrArg ok (State.otpProgram_of_state hidle hcode hstate)
    case fits =>
      exact congrArg ok (State.otpProgram_started hidle hcode hstate (fun _ => ⟨hlock, ha, hb⟩) (fun h => absurd h h5)
        (s.otpTodo_of_lock h5))
    case overwrite => exact congrArg ok (State.otpProgram_of_overwrite hidle hcode hstate h5 hover)
    case fuses => exact congrArg ok (State.otpProgram_started hidle hcode hstate (fun h => absurd h5 h) (fun _ => hunits) htodo)
    case fewUnits => exact congrArg ok (State.otpProgram_of_fewUnits hidle hcode hstate h5 hfew)
    case read => exact congrArg ok (State.otpRead_of_reading hidle hcode (State.otpReading_of_undamaged h6 hgood))
    case bit =>
      have hgoes : ¬(s.glb.pwrFail = true ∨ s.clk.fatal = true ∨ s.clk.safe.isSome = true ∨ s.lc.bitRan = true) := by
        simp [hpwr, hfatal, hsafe, hran]
      exact ⟨congrArg ok (State.otpBit_programmed hgoes hbits htodo hrest),
        fun htries => congrArg ok (State.otpBit_failed hgoes hbits htodo htries)⟩
    case stopped => exact congrArg ok (State.otpBit_of_stopped hstop good)
  case damaged =>
    intro shown
    refine ⟨fun h1 => ?id, fun h5 => ?caps, fun h2 hlc => ?authority, State.otpGood_of_damaged hdam⟩
    case id =>
      subst h1
      exact (exec_otpRead hw 1).trans (congrArg ok (State.otpRead_of_reading hidle hcode (State.otpReading_of_damagedId hdam)))
    case caps =>
      subst h5
      exact (exec_otpRead hw 5).trans (congrArg ok (State.otpRead_of_reading hidle hcode s.otpReading_caps))
    case authority =>
      subst h2
      exact State.authorityHash_of_damaged hdam hlc

end Sys2Proof.Machine

namespace Sys2Proof.Machine

/-! ## The first failing check (assumption 20) -/

theorem firstErr_nil : firstErr [] = 0 := rfl

/-- A check that does not fail has no part in the answer. -/
theorem firstErr_passed (code : Nat) (checks : List (Bool × Nat)) : firstErr ((false, code) :: checks) = firstErr checks := rfl

/-- A first check that fails answers its code where no later code is lower. -/
theorem firstErr_failed {code : Nat} {checks : List (Bool × Nat)} (h : ∀ c ∈ checks, code ≤ c.2) :
    firstErr ((true, code) :: checks) = code := by
  have hmin : ∀ l : List Nat, (∀ x ∈ l, code ≤ x) → l.foldl min code = code := by
    intro l
    induction l with
    | nil => exact fun _ => rfl
    | cons x l ih =>
      intro hl
      rw [List.foldl_cons, Nat.min_eq_left (hl x List.mem_cons_self)]
      exact ih fun y hy => hl y (List.mem_cons_of_mem x hy)
  refine hmin _ fun x hx => ?_
  obtain ⟨c, hc, rfl⟩ := List.mem_map.1 hx
  exact h c (List.mem_filter.1 hc).1

/-! ## QU_CMD (R241 to R246) -/

section
variable {s : State} (hw : s.writable 0x0B0004 = true)
include hw

theorem exec_quOpen (scope roles life : Nat) : exec (.quOpen scope roles life) s = ok (s.quOpen scope roles life) :=
  congrArg ok (State.ifWritable_true hw _)

theorem exec_quSign (scope : Nat) (record : Option Bytes) : exec (.quSign scope record) s = ok (s.quSign scope record) :=
  congrArg ok (State.ifWritable_true hw _)

theorem exec_quClose (scope : Nat) : exec (.quClose scope) s = ok (s.quClose scope) :=
  congrArg ok (State.ifWritable_true hw _)

theorem exec_quEnroll (scope : Nat) (record : Option Bytes) : exec (.quEnroll scope record) s = ok (s.quEdit 4 scope 0 0 record) :=
  congrArg ok (State.ifWritable_true hw _)

theorem exec_quRemove (scope role index : Nat) : exec (.quRemove scope role index) s = ok (s.quEdit 5 scope role index none) :=
  congrArg ok (State.ifWritable_true hw _)

theorem exec_quPolicy (scope : Nat) (record : Option Bytes) : exec (.quPolicy scope record) s = ok (s.quEdit 6 scope 0 0 record) :=
  congrArg ok (State.ifWritable_true hw _)

/-- Every QU_CMD is dropped while one is being served. -/
theorem exec_quorumCommand_of_busy (hbusy : s.on R.QU_CMD_STS_BUSY = true) (scope roles life role index : Nat) (r : Bytes) {c : Instr}
    (hc : c ∈ [Instr.quOpen scope roles life, .quSign scope (some r), .quClose scope, .quEnroll scope (some r),
      .quRemove scope role index, .quPolicy scope (some r)]) : exec c s = ok s := by
  simp only [List.mem_cons, List.not_mem_nil, or_false] at hc
  rcases hc with rfl | rfl | rfl | rfl | rfl | rfl
  · exact (exec_quOpen hw ..).trans (congrArg ok (if_pos hbusy))
  · exact (exec_quSign hw ..).trans (congrArg ok (if_pos hbusy))
  · exact (exec_quClose hw ..).trans (congrArg ok (if_pos hbusy))
  · exact (exec_quEnroll hw ..).trans (congrArg ok (if_pos hbusy))
  · exact (exec_quRemove hw ..).trans (congrArg ok (if_pos hbusy))
  · exact (exec_quPolicy hw ..).trans (congrArg ok (if_pos hbusy))

end

/-! The codes of a scope that no officer set has: 2 is the lowest of each command. -/

section
variable {s : State} {scope : Nat} (hscope : devSession < scope)
include hscope

theorem State.enrollErr_of_scope (record : Option Bytes) : s.enrollErr scope record = 2 := by
  simp only [State.enrollErr, hscope, decide_true]
  exact firstErr_failed (by simp)

theorem State.removeErr_of_scope (role index : Nat) : s.removeErr scope role index = 2 := by
  simp only [State.removeErr, hscope, decide_true]
  exact firstErr_failed (by simp)

theorem State.policyErr_of_scope (record : Option Bytes) : s.policyErr scope record = 2 := by
  simp only [State.policyErr, hscope, decide_true]
  exact firstErr_failed (by simp)

end

section
variable {s : State} {scope : Nat} (hidle : s.on R.QU_CMD_STS_BUSY = false)
include hidle

/-- OPEN of a scope, with debug closed and in a state with sessions, waits for its draw. -/
theorem State.quOpen_accepted (hscope : scope ≤ devSession) (hdebug : s.debugIsOpen = false) (hstate : s.quorumState = true)
    (roles life : Nat) :
    s.quOpen scope roles life =
      (s.quAccept { op := 1, scope := scope, roles := roles % 16, life := life % 256 }).askDraw 64 (.session scope) := by
  have hin : ¬devSession < scope := Nat.not_lt.2 hscope
  simp [State.quOpen, hidle, hin, hdebug, hstate, firstErr_passed, firstErr_nil]

theorem State.quOpen_of_scope (hscope : devSession < scope) (roles life : Nat) : s.quOpen scope roles life = s.quReject 2 := by
  have herr : ∀ debug state : Bool, firstErr [(true, 2), (debug, 0xB), (state, 0xC)] = 2 := fun _ _ => firstErr_failed (by simp)
  simp [State.quOpen, hidle, hscope, herr]

/-- SIGN into an open session goes to the verifier. -/
theorem State.quSign_accepted (hscope : scope ≤ devSession) (hopen : (s.session scope).st ≠ 0) (r : Bytes) :
    s.quSign scope (some r) = s.quAccept { op := 2, scope := scope, record := fitTo 256 r, start := s.frameNo } := by
  have hst : ((s.session scope).st == 0) = false := beq_eq_false_iff_ne.2 hopen
  have hin : ¬devSession < scope := Nat.not_lt.2 hscope
  simp [State.quSign, hidle, hin, hst, firstErr_passed, firstErr_nil]

/-- SIGN whose record cannot be read. -/
theorem State.quSign_of_unread (hscope : scope ≤ devSession) (hopen : (s.session scope).st ≠ 0) :
    s.quSign scope none = (s.quReject 0xA).lcEvt R.LC_EVT_STS_VERIFY := by
  have hst : ((s.session scope).st == 0) = false := beq_eq_false_iff_ne.2 hopen
  have hin : ¬devSession < scope := Nat.not_lt.2 hscope
  have herr : firstErr [(true, 0xA)] = 0xA := rfl
  simp [State.quSign, hidle, hin, hst, firstErr_passed, herr]

theorem State.quSign_of_closed (hscope : scope ≤ devSession) (hclosed : (s.session scope).st = 0) (r : Bytes) :
    s.quSign scope (some r) = (s.quReject 3).lcEvt R.LC_EVT_STS_VERIFY := by
  have hin : ¬devSession < scope := Nat.not_lt.2 hscope
  have herr : firstErr [(true, 3), (false, 0xA)] = 3 := rfl
  simp [State.quSign, hidle, hin, hclosed, firstErr_passed, herr]

theorem State.quSign_of_scope (hscope : devSession < scope) (r : Bytes) :
    s.quSign scope (some r) = (s.quReject 2).lcEvt R.LC_EVT_STS_VERIFY := by
  have herr : ∀ closed : Bool, firstErr [(true, 2), (closed, 3), (false, 0xA)] = 2 := fun _ => firstErr_failed (by simp)
  simp [State.quSign, hidle, hscope, herr]

theorem State.quClose_accepted (hscope : scope ≤ devSession) (hopen : (s.session scope).st ≠ 0) :
    s.quClose scope = s.quAccept { op := 3, scope := scope } := by
  have hst : ((s.session scope).st == 0) = false := beq_eq_false_iff_ne.2 hopen
  have hin : ¬devSession < scope := Nat.not_lt.2 hscope
  simp [State.quClose, hidle, hin, hst, firstErr_passed, firstErr_nil]

theorem State.quClose_of_closed (hscope : scope ≤ devSession) (hclosed : (s.session scope).st = 0) :
    s.quClose scope = s.quReject 3 := by
  have hin : ¬devSession < scope := Nat.not_lt.2 hscope
  have herr : firstErr [(true, 3)] = 3 := rfl
  simp [State.quClose, hidle, hin, hclosed, firstErr_passed, herr]

theorem State.quClose_of_scope (hscope : devSession < scope) : s.quClose scope = s.quReject 2 := by
  have herr : ∀ closed : Bool, firstErr [(true, 2), (closed, 3)] = 2 := fun _ => firstErr_failed (by simp)
  simp [State.quClose, hidle, hscope, herr]

/-! ENROLL, REMOVE and POLICY answer by their own check. -/

theorem State.quEnroll_eq (r : Bytes) :
    s.quEdit 4 scope 0 0 (some r) = if s.enrollErr scope (some r) ≠ 0 then s.quReject (s.enrollErr scope (some r))
      else s.quAccept { op := 4, scope := scope, record := r } := by
  simp only [State.quEdit, hidle, Bool.false_eq_true, if_false]
  rfl

theorem State.quRemove_eq (role index : Nat) :
    s.quEdit 5 scope role index none = if s.removeErr scope role index ≠ 0 then s.quReject (s.removeErr scope role index)
      else s.quAccept { op := 5, scope := scope, roles := role, life := index } := by
  simp only [State.quEdit, hidle, Bool.false_eq_true, if_false]
  rfl

theorem State.quPolicy_eq (r : Bytes) :
    s.quEdit 6 scope 0 0 (some r) = if s.policyErr scope (some r) ≠ 0 then s.quReject (s.policyErr scope (some r))
      else s.quAccept { op := 6, scope := scope, record := r } := by
  simp only [State.quEdit, hidle, Bool.false_eq_true, if_false]
  rfl

end

/-- ENROLL, REMOVE and POLICY with a check that fails are rejected with its code. -/
theorem exec_quEdit_rejected {s : State} (hw : s.writable 0x0B0004 = true) (hidle : s.on R.QU_CMD_STS_BUSY = false)
    {scope role index e : Nat} {r : Bytes} (he : e ≠ 0) :
    (s.enrollErr scope (some r) = e → exec (.quEnroll scope (some r)) s = ok (s.quReject e)) ∧
    (s.removeErr scope role index = e → exec (.quRemove scope role index) s = ok (s.quReject e)) ∧
    (s.policyErr scope (some r) = e → exec (.quPolicy scope (some r)) s = ok (s.quReject e)) := by
  refine ⟨fun h => ?_, fun h => ?_, fun h => ?_⟩
  · rw [exec_quEnroll hw, State.quEnroll_eq hidle, h, if_pos he]
  · rw [exec_quRemove hw, State.quRemove_eq hidle, h, if_pos he]
  · rw [exec_quPolicy hw, State.quPolicy_eq hidle, h, if_pos he]

/-- A command but SIGN for a scope that no officer set has is rejected with 2. -/
theorem exec_quorumCommand_of_scope {s : State} (hw : s.writable 0x0B0004 = true) (hidle : s.on R.QU_CMD_STS_BUSY = false) {scope : Nat}
    (hscope : devSession < scope) (roles life role index : Nat) (r : Bytes) {c : Instr}
    (hc : c ∈ [Instr.quOpen scope roles life, .quClose scope, .quEnroll scope (some r), .quRemove scope role index,
      .quPolicy scope (some r)]) : exec c s = ok (s.quReject 2) := by
  obtain ⟨henroll, hremove, hpolicy⟩ := exec_quEdit_rejected (scope := scope) (role := role) (index := index) (r := r) hw hidle
    (show 2 ≠ 0 by decide)
  simp only [List.mem_cons, List.not_mem_nil, or_false] at hc
  rcases hc with rfl | rfl | rfl | rfl | rfl
  · exact (exec_quOpen hw ..).trans (congrArg ok (State.quOpen_of_scope hidle hscope roles life))
  · exact (exec_quClose hw ..).trans (congrArg ok (State.quClose_of_scope hidle hscope))
  · exact henroll (State.enrollErr_of_scope hscope _)
  · exact hremove (State.removeErr_of_scope hscope role index)
  · exact hpolicy (State.policyErr_of_scope hscope _)

/-- Settles O38: BUSY drops each command, one that passes its checks waits, and one that fails answers its lowest code. -/
theorem quorumCommands : Obligations.QuorumCommands := by
  unfold Obligations.QuorumCommands
  intro s scope roles life role index r hw waits rejected
  refine ⟨fun hbusy c hc => exec_quorumCommand_of_busy hw hbusy scope roles life role index r hc,
    fun hidle => ⟨fun hscope hdebug hstate => ?opened, fun hscope hopen => ⟨?signed, ?unread, ?closed⟩,
      fun hscope hclosed => ⟨?signClosed, ?closeClosed⟩,
      fun hscope => ⟨?signScope, fun c hc => exec_quorumCommand_of_scope hw hidle hscope roles life role index r hc⟩,
      fun h => ?enrolled, fun h => ?removed, fun h => ?policy, fun e he => exec_quEdit_rejected hw hidle he⟩⟩
  case opened =>
    rw [exec_quOpen hw, State.quOpen_accepted hidle hscope hdebug hstate, State.askDraw_eq]
    rfl
  case signed => exact (exec_quSign hw ..).trans (congrArg ok (State.quSign_accepted hidle hscope hopen r))
  case unread => exact (exec_quSign hw ..).trans (congrArg ok (State.quSign_of_unread hidle hscope hopen))
  case closed => exact (exec_quClose hw ..).trans (congrArg ok (State.quClose_accepted hidle hscope hopen))
  case signClosed => exact (exec_quSign hw ..).trans (congrArg ok (State.quSign_of_closed hidle hscope hclosed r))
  case closeClosed => exact (exec_quClose hw ..).trans (congrArg ok (State.quClose_of_closed hidle hscope hclosed))
  case signScope => exact (exec_quSign hw ..).trans (congrArg ok (State.quSign_of_scope hidle hscope r))
  case enrolled => rw [exec_quEnroll hw, State.quEnroll_eq hidle, if_neg (not_not_intro h)]; rfl
  case removed => rw [exec_quRemove hw, State.quRemove_eq hidle, if_neg (not_not_intro h)]; rfl
  case policy => rw [exec_quPolicy hw, State.quPolicy_eq hidle, if_neg (not_not_intro h)]; rfl

/-! ## A sign-in is verified, a session ends (R242 to R247) -/

theorem State.signVerified_of_none {s : State} (h : s.lc.cmd = none) : s.signVerified = s := by
  simp [State.signVerified, h]

/-- A sign-in with a failing check changes no session. -/
theorem State.signVerified_of_failed {s : State} {c : QuCmd} (hcmd : s.lc.cmd = some c) (hop : c.op = 2)
    (he : s.signErr c.scope c.record ≠ 0) :
    s.signVerified =
      (({ s with lc := { s.lc with cmd := none } }).quReply (s.signErr c.scope c.record)).lcEvt R.LC_EVT_STS_VERIFY := by
  simp only [State.signVerified, hcmd, hop, if_true, he, ne_eq, not_false_eq_true]

/-- The sign-in of an accepted record in a session: the officer, the role, and the transport key where the record carries a key. -/
def Session.signIn (x : Session) (record : Bytes) : SignIn :=
  { officer := fieldLE record 0 1, role := fieldLE record 1 1
    tk := if allZero (cut record 4 97) then none
          else some (transportKey x.scalar (cut record 4 97) x.id (fieldLE record 0 1)) }

/-- A sign-in that passes every check joins its session. -/
theorem State.signVerified_of_passed {s : State} {c : QuCmd} (hcmd : s.lc.cmd = some c) (hop : c.op = 2)
    (he : s.signErr c.scope c.record = 0) :
    s.signVerified =
      ((({ s with lc := { s.lc with cmd := none } }).quReply 0).lcEvt R.LC_EVT_STS_VERIFY).modSession c.scope
        (fun x => { x with signIns := x.signIns ++ [x.signIn c.record] }) := by
  simp only [State.signVerified, hcmd, hop, if_true, he, ne_eq, not_true_eq_false, if_false]
  rfl

/-- An open session that ends: its sign-ins and accumulators go, the event and the record follow, its staged writes are discarded. -/
theorem State.endSession_of_open {s : State} {n : Nat} (h : (s.session n).st ≠ 0) :
    s.endSession n =
      ((({ s with
        sessions := s.sessions.del n
        ks := { s.ks with accums := s.ks.accums.filter (fun a => !(a.slice == n && a.session == (s.session n).id)) } } : State).lcEvt
          R.LC_EVT_STS_SESSION).record 0x0501 1 n (s.session n).id 0).discardCovered n (s.session n).id := if_neg h

theorem State.sessionExpire_of_over {s : State} {n : Nat} (hopen : (s.session n).st ≠ 0)
    (hover : (s.session n).start + (s.session n).life ≤ s.frameNo) : s.sessionExpire n = s.endSession n := if_pos ⟨hopen, hover⟩

theorem State.sessionExpire_of_early {s : State} {n : Nat}
    (h : (s.session n).st = 0 ∨ s.frameNo < (s.session n).start + (s.session n).life) : s.sessionExpire n = s := by
  refine if_neg ?_
  rintro ⟨hopen, hover⟩
  rcases h with h | h
  · exact hopen h
  · omega

/-- Settles O39: the verifier's answer, failed, passed or with nothing to verify, and the end of a session's lifetime. -/
theorem signInAndExpiry : Obligations.SignInAndExpiry := by
  unfold Obligations.SignInAndExpiry
  intro s c n
  refine ⟨fun hcmd hop => ⟨fun he => congrArg ok (State.signVerified_of_failed hcmd hop he), fun he => ?passed⟩,
    fun hnone => congrArg ok (State.signVerified_of_none hnone), fun hopen hover => ?ended,
    fun hearly => congrArg ok (State.sessionExpire_of_early hearly)⟩
  case passed =>
    rw [he]
    exact congrArg ok (State.signVerified_of_passed hcmd hop he)
  case ended =>
    exact congrArg ok ((State.sessionExpire_of_over hopen hover).trans (State.endSession_of_open hopen))

end Sys2Proof.Machine

namespace Sys2Proof.Machine

/-! ## What an event of the monitor latches (R259, R274) -/

/-- The keys of the register fields in which a cause or a report latches. -/
def latchKeys : List Nat :=
  [R.TMP_EVT_STS_EVT.key 0, R.TMP_BAT_EVT_EVT.key 0, R.TMP_EVT_INFO_BATT.key 0, R.TMP_EVT_INFO_FIRST.key 0,
   R.TMP_EVT_INFO_SOURCE.key 0, R.TMP_STS_ACTIVE.key 0]

/-- From `s` to `t` only events of the monitor latch: their register fields change, and the host interface by the vector they raise. -/
structure State.Latches (s t : State) : Prop where
  rest : t = { s with regs := t.regs, hif := t.hif }
  get : ∀ (f : Field) (i : Nat), f.key i ∉ latchKeys → t.get f i = s.get f i

theorem State.Latches.refl (s : State) : s.Latches s := ⟨rfl, fun _ _ _ => rfl⟩

theorem State.Latches.trans {s t u : State} (h : s.Latches t) (g : t.Latches u) : s.Latches u :=
  ⟨by rw [g.rest, h.rest], fun f i hf => (g.get f i hf).trans (h.get f i hf)⟩

theorem State.Latches.ks {s t : State} (h : s.Latches t) : t.ks = s.ks := by rw [h.rest]
theorem State.Latches.tmp {s t : State} (h : s.Latches t) : t.tmp = s.tmp := by rw [h.rest]
theorem State.Latches.glb {s t : State} (h : s.Latches t) : t.glb = s.glb := by rw [h.rest]
theorem State.Latches.frameNo {s t : State} (h : s.Latches t) : t.frameNo = s.frameNo := by rw [h.rest]

theorem State.Latches.armed {s t : State} (h : s.Latches t) : t.armed = s.armed :=
  State.armed_congr (h.get _ _ (by decide)) (h.get _ _ (by decide))

theorem State.Latches.ofSet (s : State) {f : Field} (v : Nat) (hf : f.key 0 ∈ latchKeys) : s.Latches (s.set f 0 v) :=
  ⟨rfl, fun _ _ hg => State.get_set_other _ _ _ _ _ _ (by rintro he; exact hg (he ▸ hf))⟩

theorem State.Latches.ofPost (s : State) (p : Post) : s.Latches (s.post p) := by
  refine ⟨?_, fun _ _ _ => State.get_post ..⟩
  unfold State.post; split <;> rfl

theorem State.Latches.ofRaise (s : State) (vec : Nat) : s.Latches (s.raise vec) := by
  unfold State.raise State.msix; split
  · exact .ofPost ..
  · exact ⟨rfl, fun _ _ _ => rfl⟩

theorem State.Latches.ofEvent (s : State) {f : Field} (en : Field) (vec mask : Nat) (hf : f.key 0 ∈ latchKeys) :
    s.Latches (s.event f en vec mask) := by
  simp only [State.event]; split
  · exact .ofSet s _ hf
  · exact (State.Latches.ofSet s _ hf).trans (.ofRaise ..)

theorem State.Latches.ofTmpEvent (s : State) (b : Nat) : s.Latches (s.tmpEvent b) := by
  simp only [State.tmpEvent]; split
  · exact (State.Latches.ofEvent s _ _ _ (by decide)).trans (.ofSet _ _ (by decide))
  · exact .ofSet _ _ (by decide)

theorem State.Latches.ofTmpCapture (s : State) (b src : Nat) : s.Latches (s.tmpCapture b src) := by
  unfold State.tmpCapture; split
  · exact .refl s
  · exact ((State.Latches.ofSet s _ (by decide)).trans (.ofSet _ _ (by decide))).trans (.ofSet _ _ (by decide))

/-- TMP_BAT_EVT gains the bit of every event, powered or not. -/
theorem State.tmpEvent_batEvt (s : State) (b : Nat) :
    (s.tmpEvent b).get R.TMP_BAT_EVT_EVT = (s.get R.TMP_BAT_EVT_EVT ||| 2 ^ b) % 2 ^ 32 := by
  simp only [State.tmpEvent]
  rw [State.get_set_self _ _ _ _ (by decide)]
  split
  · rw [State.get_event_other _ _ _ _ _ _ _ (by decide)]; rfl
  · rfl

theorem State.tmpEvent_bit_self (s : State) {b : Nat} (hb : b < 32) : bit ((s.tmpEvent b).get R.TMP_BAT_EVT_EVT) b = true := by
  rw [State.tmpEvent_batEvt, bit, Nat.testBit_mod_two_pow, Nat.testBit_or, Nat.testBit_two_pow_self]
  simp [hb]

theorem State.tmpEvent_bit_kept (s : State) (a : Nat) {b : Nat} (hb : b < 32) (h : bit (s.get R.TMP_BAT_EVT_EVT) b = true) :
    bit ((s.tmpEvent a).get R.TMP_BAT_EVT_EVT) b = true := by
  rw [bit] at h
  rw [State.tmpEvent_batEvt, bit, Nat.testBit_mod_two_pow, Nat.testBit_or, h]
  simp [hb]

/-! ## What a cause does (R259 to R262) -/

/-- The monitor after a cause has latched: first captured, its event set, and active while powered. -/
def State.latched (s : State) (b src : Nat) : State :=
  let t := (s.tmpCapture b src).tmpEvent b
  if s.glb.powered then t.set R.TMP_STS_ACTIVE 0 (t.get R.TMP_STS_ACTIVE ||| 2 ^ b) else t

theorem State.Latches.ofLatched (s : State) (b src : Nat) : s.Latches (s.latched b src) := by
  have hseen := (State.Latches.ofTmpCapture s b src).trans (.ofTmpEvent _ b)
  unfold State.latched; split
  · exact hseen.trans (.ofSet _ _ (by decide))
  · exact hseen

theorem State.latched_bit (s : State) {b : Nat} (src : Nat) (hb : b < 32) :
    bit ((s.latched b src).get R.TMP_BAT_EVT_EVT) b = true := by
  have hseen := State.tmpEvent_bit_self (s.tmpCapture b src) hb
  unfold State.latched; dsimp only; split
  · rwa [State.get_set_other _ _ _ _ _ _ (by decide)]
  · exact hseen

/-- Whether the monitor is off is a function of the state code. -/
theorem State.tmpOff_congr {s t : State} (h : t.get R.LC_STATE_CODE = s.get R.LC_STATE_CODE) : t.tmpOff = s.tmpOff := by
  simp only [State.tmpOff, h]

theorem State.cause_of_off {s : State} (h : s.tmpOff = true) (b src : Nat) : s.cause b src = s := if_pos h

theorem State.cause_of_on {s : State} (h : s.tmpOff = false) (b src : Nat) :
    s.cause b src =
      if s.armed then (s.latched b src).respond else (s.latched b src).tmpEvent 20 := by
  rw [State.cause, if_neg (by simp [h]), ← (State.Latches.ofLatched s b src).armed]
  rfl

/-- Where causes are not armed the event and UNARMED latch alone. -/
theorem State.cause_of_unarmed {s : State} (h : s.tmpOff = false) (harm : s.armed = false) (b src : Nat) :
    s.cause b src = (s.latched b src).tmpEvent 20 := by
  rw [State.cause_of_on h, harm]; rfl

theorem State.cause_of_armed {s : State} (h : s.tmpOff = false) (harm : s.armed = true) (b src : Nat) :
    s.cause b src = (s.latched b src).respond := by
  rw [State.cause_of_on h, harm]; rfl

/-- On battery stage 1 runs, and the record is kept for power-up (R262, R307). -/
theorem State.respond_on_battery {s : State} (hp : s.glb.powered = false) (honce : s.tmp.once ≠ 2) :
    s.respond = { s.tamperStage1 with tmp := { s.tamperStage1.tmp with
      battRecord := true, once := if s.tamperStage1.tmp.once = 1 then 2 else 0 } } := by
  rw [State.respond, if_pos (by simp [hp]), if_neg honce]

/-- A response under way is not restarted (R262). -/
theorem State.respond_under_way {s : State} (hp : s.glb.powered = true) (h : s.frameNo < s.tmp.respEnd) : s.respond = s := by
  rw [State.respond, if_neg (by simp [hp]), if_pos h]

/-- While powered all three stages run (R260). -/
theorem State.respond_powered {s : State} (hp : s.glb.powered = true) (h : s.tmp.respEnd ≤ s.frameNo) :
    s.respond = ({ s.tamperStage1 with tmp := { s.tamperStage1.tmp with
      respEnd := s.frameNo + 10 } }).fatalRecords.tamperStage2.tamperStage3 := by
  rw [State.respond, if_neg (by simp [hp]), if_neg (Nat.not_lt.2 h)]
  rfl

/-! ## Stage 1 (R260, R263) -/

theorem State.tamperStage1_ks (s : State) : s.tamperStage1.ks = { s.ks with datum := [] } := rfl

theorem State.tamperStage1_get (s : State) {f : Field} (hdatum : R.KS_STS_DATUM.key 0 ≠ f.key 0)
    (hclamp : R.TMP_STS_CLAMP.key 0 ≠ f.key 0) (hcount : R.TMP_CNT_RESP_COUNT.key 0 ≠ f.key 0) :
    s.tamperStage1.get f = s.get f :=
  (State.get_set_other _ _ _ _ _ _ hcount).trans
    ((State.get_set_other _ _ _ _ _ _ hclamp).trans (State.get_set_other _ _ _ _ _ _ hdatum))

theorem State.tamperStage1_datum (s : State) : s.tamperStage1.get R.KS_STS_DATUM = 0 :=
  (State.get_set_other _ _ _ _ _ _ (by decide)).trans
    ((State.get_set_other _ _ _ _ _ _ (by decide)).trans (State.get_set_self _ _ _ _ (by decide)))

theorem State.tamperStage1_clamp (s : State) : s.tamperStage1.get R.TMP_STS_CLAMP = 1 :=
  (State.get_set_other _ _ _ _ _ _ (by decide)).trans (State.get_set_self _ _ _ _ (by decide))

theorem State.tamperStage1_count (s : State) :
    s.tamperStage1.get R.TMP_CNT_RESP_COUNT = (s.get R.TMP_CNT_RESP_COUNT + 1) % 2 ^ R.TMP_CNT_RESP_COUNT.width := by
  rw [State.tamperStage1, State.bump_eq, State.get_set_self _ _ _ _ (by decide),
    State.get_set_other _ _ _ _ _ _ (by decide), State.get_set_other _ _ _ _ _ _ (by decide)]
  rfl

/-! ## ZEROIZE_N (R267) -/

/-- ZEROIZE_N seen low, before its cause. -/
def State.zeroizeSeen (s : State) : State :=
  ({ s with tmp := { s.tmp with zeroLow := true } }).set R.MGT_PIN_STS_ZEROIZE_N 0 0

theorem State.zeroizeSeen_get (s : State) {f : Field} (hf : R.MGT_PIN_STS_ZEROIZE_N.key 0 ≠ f.key 0) :
    s.zeroizeSeen.get f = s.get f := State.get_set_other _ _ _ _ _ _ hf

theorem State.zeroizeSeen_armed (s : State) : s.zeroizeSeen.armed = s.armed :=
  State.armed_congr (s.zeroizeSeen_get (by decide)) (s.zeroizeSeen_get (by decide))

theorem State.zeroizeSeen_tmpOff (s : State) : s.zeroizeSeen.tmpOff = s.tmpOff :=
  State.tmpOff_congr (s.zeroizeSeen_get (by decide))

theorem State.tmpOff_of_ended {s : State} (h : s.get R.LC_STATE_CODE = 5 ∨ s.get R.LC_STATE_CODE = 7) : s.tmpOff = true := by
  simpa [State.tmpOff] using h

theorem State.tmpOff_of_live {s : State} (h : s.get R.LC_STATE_CODE ≤ 4) : s.tmpOff = false := by
  simp [State.tmpOff]; omega

theorem State.armed_of_service {s : State} (hlo : 2 ≤ s.get R.LC_STATE_CODE) (hhi : s.get R.LC_STATE_CODE ≤ 4) : s.armed = true := by
  simp [State.armed]; omega

theorem State.not_armed_of_blank {s : State} (hlc : s.get R.LC_STATE_CODE = 0 ∨ s.get R.LC_STATE_CODE = 1)
    (htest : s.on R.TMP_CTL_TEST_ARM = false) : s.armed = false := by
  rcases hlc with h | h <;> simp [State.armed, h, htest]

/-- From the state before ZEROIZE_N fell, what its latched cause leaves as it was. -/
theorem State.zeroizeLatched_get (s : State) {f : Field} (hpin : R.MGT_PIN_STS_ZEROIZE_N.key 0 ≠ f.key 0) (hf : f.key 0 ∉ latchKeys) :
    (s.zeroizeSeen.latched 2 0).get f = s.get f :=
  ((State.Latches.ofLatched _ 2 0).get f 0 hf).trans (s.zeroizeSeen_get hpin)

/-- While powered the latched cause shows in TMP_STS.ACTIVE. -/
theorem State.latched_of_powered {s : State} (hp : s.glb.powered = true) (b src : Nat) :
    s.latched b src = ((s.tmpCapture b src).tmpEvent b).set R.TMP_STS_ACTIVE 0
      (((s.tmpCapture b src).tmpEvent b).get R.TMP_STS_ACTIVE ||| 2 ^ b) := if_pos hp

/-- On battery an armed cause of ZEROIZE_N runs stage 1 alone (R262). -/
theorem State.zeroizePin_on_battery {s : State} (hoff : s.tmpOff = false) (harm : s.armed = true) (hp : s.glb.powered = false)
    (honce : s.tmp.once ≠ 2) :
    let one := (s.zeroizeSeen.latched 2 0).tamperStage1
    s.zeroizePin = { one with tmp := { one.tmp with battRecord := true, once := if one.tmp.once = 1 then 2 else 0 } } := by
  have hlatch : s.zeroizeSeen.Latches (s.zeroizeSeen.latched 2 0) := .ofLatched _ 2 0
  have hcause := State.cause_of_armed (s.zeroizeSeen_tmpOff.trans hoff) (s.zeroizeSeen_armed.trans harm) 2 0
  exact hcause.trans (State.respond_on_battery (by rw [hlatch.glb]; exact hp) (by rw [hlatch.tmp]; exact honce))

/-- While powered an armed cause of ZEROIZE_N runs all three stages, unless a response is under way (R260, R262). -/
theorem State.zeroizePin_powered {s : State} (hoff : s.tmpOff = false) (harm : s.armed = true) (hp : s.glb.powered = true) :
    let one := (s.zeroizeSeen.latched 2 0).tamperStage1
    (s.frameNo < s.tmp.respEnd → s.zeroizePin = s.zeroizeSeen.latched 2 0) ∧
    (s.tmp.respEnd ≤ s.frameNo → s.zeroizePin =
      ({ one with tmp := { one.tmp with respEnd := s.frameNo + 10 } }).fatalRecords.tamperStage2.tamperStage3) := by
  have hlatch : s.zeroizeSeen.Latches (s.zeroizeSeen.latched 2 0) := .ofLatched _ 2 0
  have hcause := State.cause_of_armed (s.zeroizeSeen_tmpOff.trans hoff) (s.zeroizeSeen_armed.trans harm) 2 0
  have hpow : (s.zeroizeSeen.latched 2 0).glb.powered = true := by rw [hlatch.glb]; exact hp
  have hframe : (s.zeroizeSeen.latched 2 0).frameNo = s.frameNo := hlatch.frameNo
  have hend : (s.zeroizeSeen.latched 2 0).tmp.respEnd = s.tmp.respEnd := by rw [hlatch.tmp]; rfl
  refine ⟨fun hway => hcause.trans (State.respond_under_way hpow (by omega)), fun hfree => ?_⟩
  have hresp := State.respond_powered hpow (by omega)
  rw [hframe] at hresp
  exact hcause.trans hresp

/-- Settles O41: by state and power, nothing, UNARMED alone, stage 1 alone, or all three stages. -/
theorem tamperResponse : Obligations.TamperResponse := by
  unfold Obligations.TamperResponse
  intro s z seen
  have hlatch : s.zeroizeSeen.Latches (s.zeroizeSeen.latched 2 0) := .ofLatched _ 2 0
  refine ⟨fun hended => ?ended, fun hlc htest => ?unarmed, fun hlo hhi => ⟨fun hp honce => ?battery, fun hp => ?powered⟩⟩
  case ended => exact congrArg ok (State.cause_of_off (s.zeroizeSeen_tmpOff.trans (State.tmpOff_of_ended hended)) 2 0)
  case unarmed =>
    have hoff := s.zeroizeSeen_tmpOff.trans (State.tmpOff_of_live (by omega))
    have hcause := State.cause_of_unarmed hoff (s.zeroizeSeen_armed.trans (State.not_armed_of_blank hlc htest)) 2 0
    have hunarmed := State.Latches.ofTmpEvent (s.zeroizeSeen.latched 2 0) 20
    refine ⟨_, congrArg ok hcause, ?_, ?_, ?_, ?_, ?_⟩
    · rw [State.wires_ks, hunarmed.ks, hlatch.ks]; rfl
    · rw [State.get_wires _ _ _ (by decide), hunarmed.get _ _ (by decide), s.zeroizeLatched_get (by decide) (by decide)]
    · rw [State.get_wires _ _ _ (by decide), hunarmed.get _ _ (by decide), s.zeroizeLatched_get (by decide) (by decide)]
    · rw [State.get_wires _ _ _ (by decide)]
      exact State.tmpEvent_bit_kept _ 20 (by decide) (State.latched_bit _ 0 (by decide))
    · rw [State.get_wires _ _ _ (by decide)]
      exact State.tmpEvent_bit_self _ (by decide)
  case battery =>
    have hpin := State.zeroizePin_on_battery (State.tmpOff_of_live hhi) (State.armed_of_service hlo hhi) hp honce
    refine ⟨_, congrArg ok hpin, ?_, ?_, ?_, ?_, ?_, ?_, ?_, ?_⟩
    · rw [State.wires_ks]
      exact (State.tamperStage1_ks _).trans (by rw [hlatch.ks]; rfl)
    · rw [State.wires_tmp]; rfl
    · rw [State.get_wires _ _ _ (by decide)]; exact State.tamperStage1_datum _
    · rw [State.get_wires _ _ _ (by decide)]; exact State.tamperStage1_clamp _
    · rw [State.wires_tmp]; rfl
    · rw [State.wires_tmp]
    · rw [State.get_wires _ _ _ (by decide)]
      exact (congrArg (bit · 2) (State.tamperStage1_get _ (by decide) (by decide) (by decide))).trans (State.latched_bit _ 0 (by decide))
    · rw [State.get_wires _ _ _ (by decide)]
      exact (State.tamperStage1_count _).trans (by rw [s.zeroizeLatched_get (by decide) (by decide)])
  case powered =>
    intro active
    obtain ⟨hway, hfree⟩ := State.zeroizePin_powered (State.tmpOff_of_live hhi) (State.armed_of_service hlo hhi) hp
    have hactive : s.zeroizeSeen.latched 2 0 = active := State.latched_of_powered (s := s.zeroizeSeen) hp 2 0
    rw [hactive] at hway hfree
    exact ⟨fun h => congrArg ok (hway h), fun h => congrArg ok (hfree h)⟩

end Sys2Proof.Machine

namespace Sys2Proof.Machine

/-! ## The mesh (R264) -/

theorem meshMiss_eq_false_iff (b : MeshBit) (p : Nat) :
    meshMiss b p = false ↔ bit b.up p = bit b.drv p ∧ bit b.down p = bit b.drv p := by
  simp [meshMiss]

/-- The last bit periods of pair `p` with `b`, newest first. -/
def State.meshSeenWith (s : State) (p : Nat) (b : MeshBit) : List MeshBit := (b :: Tab.get [] s.tmp.meshSeen p).take 16

/-- The mismatches in a row of pair `p` with `b`. -/
def State.meshRunWith (s : State) (p : Nat) (b : MeshBit) : Nat :=
  if (bit b.up p = bit b.drv p ∧ bit b.down p = bit b.drv p) then 0 else Tab.get 0 s.tmp.meshRun p + 1

/-- The monitor with the bit period `b` of pair `p` counted and shown. -/
def State.meshShown (s : State) (p : Nat) (b : MeshBit) : State :=
  ({ s with tmp := { s.tmp with
    meshSeen := Tab.put [] s.tmp.meshSeen p (s.meshSeenWith p b)
    meshRun := Tab.put 0 s.tmp.meshRun p (s.meshRunWith p b) } } : State).set R.TMP_MESH_STS_PAIR 0
      (put2 (s.get R.TMP_MESH_STS_PAIR) p (meshState (s.get R.TMP_MESH_STS_PAIR / 4 ^ p % 4) p (s.meshSeenWith p b)))

theorem State.meshRunWith_eq (s : State) (p : Nat) (b : MeshBit) :
    s.meshRunWith p b = if meshMiss b p then Tab.get 0 s.tmp.meshRun p + 1 else 0 := by
  unfold State.meshRunWith
  cases h : meshMiss b p
  · exact if_pos ((meshMiss_eq_false_iff b p).1 h)
  · exact if_neg (fun hsame => by simp [(meshMiss_eq_false_iff b p).2 hsame] at h)

theorem State.meshBit_of_checked {s : State} {p : Nat} (hoff : s.tmpOff = false) (hp : p < 8)
    (hen : bit (s.get R.TMP_MESH_CFG_EN) p = true) (b : MeshBit) :
    s.meshBit p b = if s.meshRunWith p b = 2 then (s.meshShown p b).cause 0 p else s.meshShown p b := by
  have hchecked : ¬(s.tmpOff = true ∨ 8 ≤ p ∨ (!bit (s.get R.TMP_MESH_CFG_EN) p) = true) := by simp [hoff, hen]; omega
  rw [State.meshBit, if_neg hchecked, ← State.meshRunWith_eq]
  rfl

theorem State.meshBits_of_unchecked {s : State} {p : Nat}
    (h : s.tmpOff = true ∨ 8 ≤ p ∨ bit (s.get R.TMP_MESH_CFG_EN) p = false) (bs : List MeshBit) : s.meshBits p bs = s := by
  have hbit (b : MeshBit) : s.meshBit p b = s := if_pos (by simpa using h)
  induction bs with
  | nil => rfl
  | cons b bs ih => exact (congrArg (·.meshBits p bs) (hbit b)).trans ih

/-! ## TS inputs (R266) -/

/-- TS input `i` shown abnormal, or OPEN. -/
def State.tsShown (s : State) (i : Nat) (opened : Bool) : State :=
  s.set R.TMP_TS_STS_INPUT 0 (put2 (s.get R.TMP_TS_STS_INPUT) i (if opened then 2 else if bit (s.tsByte i) 1 then 0 else 1))

theorem State.tsAbnormal_of_unchecked {s : State} {i : Nat} (h : s.tmpOff = true ∨ 4 ≤ i ∨ bit (s.tsByte i) 0 = false)
    (opened : Bool) : s.tsAbnormal i opened = s := if_pos (by simpa using h)

/-- An enabled input is a cause, unless it is OPEN and not to respond to that, which is a report. -/
theorem State.tsAbnormal_of_checked {s : State} {i : Nat} (hoff : s.tmpOff = false) (hi : i < 4) (hen : bit (s.tsByte i) 0 = true)
    (opened : Bool) :
    s.tsAbnormal i opened =
      if opened = true ∧ bit (s.tsByte i) 2 = false then (s.tsShown i opened).tmpReport 16 else (s.tsShown i opened).cause 1 i := by
  have hchecked : ¬(s.tmpOff = true ∨ 4 ≤ i ∨ (!bit (s.tsByte i) 0) = true) := by simp [hoff, hen]; omega
  rw [State.tsAbnormal, if_neg hchecked]
  simp only [Bool.not_eq_true']
  rfl

/-! ## Rails and VBAT (R268, R270) -/

/-- Rail `r` is looked at: rails 0 to 6 while powered, rail 7 always. -/
def State.railChecked (s : State) (r : Nat) : Prop := r ≤ 6 ∧ s.glb.powered = true ∨ r = 7

theorem State.railUnchecked_iff {s : State} (hoff : s.tmpOff = false) (r : Nat) :
    (s.tmpOff = true ∨ 8 ≤ r ∨ (r ≤ 6 ∧ (!s.glb.powered) = true)) ↔ ¬s.railChecked r := by
  unfold State.railChecked
  cases s.glb.powered <;> simp [hoff] <;> omega

/-- Rail `r` shown below its threshold. -/
def State.uvShown (s : State) (r : Nat) : State := s.set R.TMP_RAIL_STS_UV 0 (s.get R.TMP_RAIL_STS_UV ||| 2 ^ r)

theorem State.rails_of_unchecked {s : State} {r : Nat} (h : s.tmpOff = true ∨ ¬s.railChecked r) :
    s.railOv r = s ∧ s.railUv r = s := by
  have hguard : s.tmpOff = true ∨ 8 ≤ r ∨ (r ≤ 6 ∧ (!s.glb.powered) = true) := by
    cases hoff : s.tmpOff
    · rw [← hoff]; exact (State.railUnchecked_iff hoff r).2 (h.resolve_left (by simp [hoff]))
    · exact .inl rfl
  exact ⟨if_pos hguard, if_pos hguard⟩

section
variable {s : State} (hoff : s.tmpOff = false)
include hoff

theorem State.railOv_of_checked {r : Nat} (h : s.railChecked r) :
    s.railOv r = (s.set R.TMP_RAIL_STS_OV 0 (s.get R.TMP_RAIL_STS_OV ||| 2 ^ r)).cause 4 r :=
  if_neg (fun hguard => (State.railUnchecked_iff hoff r).1 hguard h)

theorem State.railUv_of_checked {r : Nat} (h : s.railChecked r) :
    s.railUv r = if r = 7 ∨ s.tmp.uvArmed = true then (s.uvShown r).cause 3 r else s.uvShown r :=
  if_neg (fun hguard => (State.railUnchecked_iff hoff r).1 hguard h)

/-- On battery VBAT is shown, and a cause out of its range. -/
theorem State.vbatCause_on_battery (hp : s.glb.powered = false) (mv : Nat) :
    s.vbatCause mv = if 2300 ≤ mv ∧ mv ≤ 3900 then s.vbatRail mv else (s.vbatRail mv).cause 8 8 := by
  rw [State.vbatCause, if_neg (by simp [hoff, hp])]

/-- While powered VBAT is measured, and reported out of its service range. -/
theorem State.vbatPowered_of_powered (hp : s.glb.powered = true) (mv : Nat) :
    s.vbatPowered mv =
      let t := ((s.vbatRail mv).set R.TMP_VBAT_MV 0 mv).set R.TMP_VBAT_REV 0 0
      if 2500 ≤ mv ∧ mv ≤ 3600 then t.set R.TMP_STS_BAT_OK 0 1 else (t.set R.TMP_STS_BAT_OK 0 0).tmpReport 17 := by
  rw [State.vbatPowered, if_neg (by simp [hoff, hp])]
  by_cases h : 2500 ≤ mv ∧ mv ≤ 3600
  · simp only [h, and_self, decide_true, if_true]; rfl
  · simp only [h, decide_false, if_false]; rfl

theorem State.vbatReversed_of_powered (hp : s.glb.powered = true) :
    s.vbatReversed =
      (((((s.vbatRail 0).set R.TMP_VBAT_MV 0 0).set R.TMP_VBAT_REV 0 1).set R.TMP_STS_BAT_OK 0 0).tmpReport 17).tmpReport 18 := by
  rw [State.vbatReversed, if_neg (by simp [hp]), if_neg (by simp [hoff])]

end

theorem State.vbatCause_of_unchecked {s : State} (h : s.tmpOff = true ∨ s.glb.powered = true) (mv : Nat) : s.vbatCause mv = s := if_pos h

theorem State.vbatPowered_of_unchecked {s : State} (h : s.tmpOff = true ∨ s.glb.powered = false) (mv : Nat) : s.vbatPowered mv = s :=
  if_pos (by simpa using h)

/-- On battery a reversed VBAT leaves the battery domain no supply: Datum and the canary go. -/
theorem State.vbatReversed_on_battery {s : State} (hp : s.glb.powered = false) :
    s.vbatReversed = { s with ks := { s.ks with datum := [] }, tmp := { s.tmp with canary := false, bbOver := [] } } :=
  if_pos (by simp [hp])

/-! ## Light, glitches and temperatures (R259, R269) -/

theorem State.lightTrip_of_unchecked {s : State} {i : Nat} (h : s.tmpOff = true ∨ 16 ≤ i ∨ s.glb.powered = false ∧ 2 ≤ i) :
    s.lightTrip i = s := if_pos (by simpa using h)

theorem State.lightTrip_of_checked {s : State} {i : Nat} (hoff : s.tmpOff = false) (hi : i < 16) (h : s.glb.powered = true ∨ i < 2) :
    s.lightTrip i = (s.set R.TMP_LIGHT_STS_TRIP 0 (s.get R.TMP_LIGHT_STS_TRIP ||| 2 ^ i)).cause 6 i := by
  refine if_neg ?_
  cases hp : s.glb.powered <;> simp [hoff, hp] at h ⊢ <;> omega

theorem State.glitch_of_unpowered {s : State} (hp : s.glb.powered = false) (i : Nat) : s.glitch i = s := if_neg (by simp [hp])

theorem State.glitch_of_powered {s : State} (hp : s.glb.powered = true) (i : Nat) : s.glitch i = s.cause 7 i := if_pos hp

theorem State.glitch_of_off {s : State} (hoff : s.tmpOff = true) (i : Nat) : s.glitch i = s := by
  unfold State.glitch; split
  · exact State.cause_of_off hoff 7 i
  · rfl

theorem tempOutside_celsius (celsius : Int) : tempOutside (16 * celsius) = decide (celsius < -40 ∨ 100 < celsius) :=
  decide_eq_decide.2 (by omega)

theorem State.tempCause_of_unchecked {s : State} {i : Nat} (h : s.tmpOff = true ∨ 5 ≤ i) (celsius : Int) : s.tempCause i celsius = s :=
  if_pos h

/-- The monitor with a temperature of sensor `i` shown and `out` the sensors marked. -/
def State.tempShown (s : State) (i : Nat) (sixteenths : Int) (out : List Nat) : State :=
  { s.set R.TMP_TEMP_TEMP i (sixteenths % 65536).toNat with tmp := { s.tmp with tempOut := out } }

/-- A temperature within its limits is shown and clears the mark of its sensor; one beyond them is a cause. -/
theorem State.tempCause_of_checked {s : State} {i : Nat} (hoff : s.tmpOff = false) (hi : i < 5) (celsius : Int) :
    s.tempCause i celsius =
      if celsius < -40 ∨ 100 < celsius then
        (s.tempShown i (16 * celsius) (if s.tmp.tempOut.contains i then s.tmp.tempOut else s.tmp.tempOut ++ [i])).cause 5 i
      else s.tempShown i (16 * celsius) (s.tmp.tempOut.filter (· != i)) := by
  rw [State.tempCause, if_neg (by simp [hoff]; omega), tempOutside_celsius]
  by_cases h : celsius < -40 ∨ 100 < celsius
  · rw [if_pos h, decide_eq_true h]; rfl
  · rw [if_neg h, decide_eq_false h]; rfl

/-- One sample within the limits. -/
theorem State.tempSample_of_inside {s : State} {v : Int} (hoff : s.tmpOff = false) (h : tempOutside v = false) (i : Nat) :
    s.tempSample i v = s.tempShown i v (s.tmp.tempOut.filter (· != i)) := by
  rw [State.tempSample, if_neg (by simp [hoff]), h]; rfl

/-! ## A check while powered (R263, R267) -/

theorem State.poweredCheck_of_unchecked {s : State} (h : s.glb.powered = false ∨ s.tmpOff = true ∨ s.tmp.zeroLow = true) :
    s.poweredCheck = s := if_pos (by simpa using h)

theorem State.meshGood_of_on {s : State} (hoff : s.tmpOff = false) :
    s.meshGood = ({ s with tmp := { s.tmp with meshSeen := [], meshRun := [] } }).set R.TMP_MESH_STS_PAIR 0 0 := if_neg (by simp [hoff])

theorem State.meshGood_pair {s : State} (hoff : s.tmpOff = false) : s.meshGood.get R.TMP_MESH_STS_PAIR = 0 := by
  rw [State.meshGood_of_on hoff]; exact State.get_set_self _ _ _ _ (by decide)

theorem State.poweredCheck_of_checked {s : State} (hoff : s.tmpOff = false) (hp : s.glb.powered = true) (hz : s.tmp.zeroLow = false) :
    s.poweredCheck = s.sensorsQuiet.clampClears := if_neg (by simp [hp, hoff, hz])

theorem State.clampClears_get (s : State) {f : Field} (hactive : R.TMP_STS_ACTIVE.key 0 ≠ f.key 0)
    (hclamp : R.TMP_STS_CLAMP.key 0 ≠ f.key 0) : s.clampClears.get f = s.get f :=
  (State.get_set_other _ _ _ _ _ _ hclamp).trans (State.get_set_other _ _ _ _ _ _ hactive)

theorem State.clampClears_clamp (s : State) : s.clampClears.get R.TMP_STS_CLAMP = 0 := State.get_set_self _ _ _ _ (by decide)

theorem State.clampClears_active (s : State) : s.clampClears.get R.TMP_STS_ACTIVE = 0 :=
  (State.get_set_other _ _ _ _ _ _ (by decide)).trans (State.get_set_self _ _ _ _ (by decide))

@[simp] theorem State.clampClears_tmp (s : State) : s.clampClears.tmp = s.tmp := by simp only [State.clampClears, State.set_tmp]
@[simp] theorem State.clampClears_ks (s : State) : s.clampClears.ks = s.ks := by simp only [State.clampClears, State.set_ks]
@[simp] theorem State.clampClears_otp (s : State) : s.clampClears.otp = s.otp := by simp only [State.clampClears, State.set_otp]

/-- The mesh, the light sensors and rails 0 to 7 show nothing. -/
theorem State.sensorsQuiet_shows {s : State} (hoff : s.tmpOff = false) :
    s.sensorsQuiet.get R.TMP_MESH_STS_PAIR = 0 ∧ s.sensorsQuiet.get R.TMP_LIGHT_STS_TRIP = 0 ∧
    s.sensorsQuiet.get R.TMP_RAIL_STS_UV % 256 = 0 := by
  rw [State.sensorsQuiet]
  refine ⟨?_, ?_, ?_⟩
  · iterate 4 rw [State.get_set_other _ _ _ _ _ _ (by decide)]
    exact State.meshGood_pair hoff
  · iterate 2 rw [State.get_set_other _ _ _ _ _ _ (by decide)]
    exact State.get_set_self _ _ _ _ (by decide)
  · rw [State.get_set_other _ _ _ _ _ _ (by decide), State.get_set_self _ _ _ _ (by decide)]
    simp only [R.TMP_RAIL_STS_UV]; omega

theorem State.sensorsQuiet_keeps {s : State} (hoff : s.tmpOff = false) :
    s.sensorsQuiet.tmp.tempOut = s.tmp.tempOut ∧ s.sensorsQuiet.ks = s.ks ∧ s.sensorsQuiet.otp = s.otp := by
  simp only [State.sensorsQuiet, State.meshGood_of_on hoff, State.set_tmp, State.set_ks, State.set_otp, and_self]

/-! ## A check on battery that finds nothing wrong (R263 to R269) -/

theorem State.batteryCheck_of_unchecked {s : State} (h : s.glb.powered = true ∨ s.tmpOff = true) (c : BatteryReadings) :
    s.batteryCheck c = s := if_pos h

theorem debSamples_pos (b : Nat) : 0 < debSamples b := by
  unfold debSamples; split <;> decide

/-- From `s` to `t` only normal samples of TS inputs were taken, those of the inputs in `taken` among them. -/
structure State.TsNormal (s : State) (taken : List Nat) (t : State) : Prop where
  rest : t = { s with regs := t.regs, tmp := { s.tmp with tsBad := t.tmp.tsBad, tsOpen := t.tmp.tsOpen } }
  get : ∀ (f : Field) (i : Nat), R.TMP_TS_STS_INPUT.key 0 ≠ f.key i → t.get f i = s.get f i
  runs : ∀ i ∈ taken, i < 4 → bit (s.tsByte i) 0 = true → Tab.get 0 t.tmp.tsBad i = 0 ∧ Tab.get 0 t.tmp.tsOpen i = 0

theorem State.TsNormal.refl (s : State) : s.TsNormal [] s := ⟨rfl, fun _ _ _ => rfl, by simp⟩

theorem State.TsNormal.glb {s t : State} {taken : List Nat} (h : s.TsNormal taken t) : t.glb = s.glb := by rw [h.rest]
theorem State.TsNormal.ks {s t : State} {taken : List Nat} (h : s.TsNormal taken t) : t.ks = s.ks := by rw [h.rest]
theorem State.TsNormal.otp {s t : State} {taken : List Nat} (h : s.TsNormal taken t) : t.otp = s.otp := by rw [h.rest]

theorem State.TsNormal.tmp {s t : State} {taken : List Nat} (h : s.TsNormal taken t) :
    t.tmp = { s.tmp with tsBad := t.tmp.tsBad, tsOpen := t.tmp.tsOpen } := congrArg State.tmp h.rest

theorem State.TsNormal.tsByte {s t : State} {taken : List Nat} (h : s.TsNormal taken t) (i : Nat) : t.tsByte i = s.tsByte i := by
  rw [State.tsByte, State.tsByte, h.get _ _ (by decide)]

/-- TS input `i` sampled normal: neither of its runs goes on. -/
def State.tsQuieted (s : State) (i : Nat) : State :=
  ({ s with tmp := { s.tmp with tsBad := Tab.put 0 s.tmp.tsBad i 0, tsOpen := Tab.put 0 s.tmp.tsOpen i 0 } } : State).set
    R.TMP_TS_STS_INPUT 0 (put2 (s.get R.TMP_TS_STS_INPUT) i (b2n (bit (s.tsByte i) 1)))

theorem State.tsSample_of_normal {s : State} {i : Nat} (hi : i < 4) (hen : bit (s.tsByte i) 0 = true) :
    s.tsSample i (b2n (bit (s.tsByte i) 1)) = s.tsQuieted i := by
  have hpos := debSamples_pos (s.tsByte i)
  rw [State.tsSample, if_neg (by simp [hen]; omega)]
  cases h : bit (s.tsByte i) 1 <;> simp [hpos.ne, State.tsQuieted, h]

theorem State.tsSample_of_unchecked {s : State} {i : Nat} (h : 4 ≤ i ∨ bit (s.tsByte i) 0 = false) (st : Nat) :
    s.tsSample i st = s := if_pos (by simpa using h)

theorem State.TsNormal.sample {s t : State} {taken : List Nat} (h : s.TsNormal taken t) (i : Nat) :
    s.TsNormal (i :: taken) (t.tsSample i (b2n (bit (s.tsByte i) 1))) := by
  by_cases hchecked : i < 4 ∧ bit (s.tsByte i) 0 = true
  · obtain ⟨hi, hen⟩ := hchecked
    rw [← h.tsByte i] at hen ⊢
    rw [State.tsSample_of_normal hi hen]
    refine ⟨by rw [State.tsQuieted, h.rest]; rfl, fun f j hf => (State.get_set_other _ _ _ _ _ _ hf).trans (h.get f j hf),
      fun j hj hlt henj => ?_⟩
    change Tab.get 0 (Tab.put 0 t.tmp.tsBad i 0) j = 0 ∧ Tab.get 0 (Tab.put 0 t.tmp.tsOpen i 0) j = 0
    rw [Tab.get_put, Tab.get_put]
    rcases List.mem_cons.1 hj with rfl | hj
    · simp
    · obtain ⟨hbad, hopen⟩ := h.runs j hj hlt henj
      simp [hbad, hopen]
  · have hunchecked : 4 ≤ i ∨ bit (t.tsByte i) 0 = false := by
      rw [h.tsByte]
      exact (not_and_or.1 hchecked).imp Nat.not_lt.1 Bool.eq_false_of_not_eq_true
    rw [State.tsSample_of_unchecked hunchecked]
    refine ⟨h.rest, h.get, fun j hj hlt henj => ?_⟩
    rcases List.mem_cons.1 hj with rfl | hj
    · exact absurd ⟨hlt, henj⟩ hchecked
    · exact h.runs j hj hlt henj

/-- A check that reads every TS input normal. -/
theorem State.TsNormal.ofReadings (s : State) {u : State} {c : BatteryReadings} (hts : c.ts = [])
    (hcfg : u.get R.TMP_TS_CFG_INPUT = s.get R.TMP_TS_CFG_INPUT) :
    u.TsNormal [3, 2, 1, 0] ((List.range 4).foldl (fun t i => t.tsSample i (s.tsRead c i)) u) := by
  have hread (i : Nat) : s.tsRead c i = b2n (bit (u.tsByte i) 1) := by
    simp only [State.tsRead, hts, List.find?_nil, State.tsByte, hcfg]
  simp only [hread]
  exact ((((State.TsNormal.refl u).sample 0).sample 1).sample 2).sample 3

/-- Readings that find nothing wrong (R263): no mismatch, no input abnormal, no light, ZEROIZE_N high, and VBAT and the temperature
within their limits. -/
structure QuietReadings (c : BatteryReadings) : Prop where
  mesh : c.mesh = []
  ts : c.ts = []
  light : c.light = []
  zeroize : c.zeroize = false
  reversed : c.reversed = false
  temp : -640 ≤ c.temp ∧ c.temp ≤ 1600
  vbat : 2300 ≤ c.vbat ∧ c.vbat ≤ 3900

theorem QuietReadings.inside {c : BatteryReadings} (h : QuietReadings c) : tempOutside c.temp = false :=
  decide_eq_false (by obtain ⟨hlo, hhi⟩ := h.temp; omega)

/-- A battery check that has begun, with its mesh read good. -/
def State.meshPassed (s : State) : State :=
  ({ s with tmp := { s.tmp with once := 1, meshSeen := [], meshRun := [] } } : State).set R.TMP_MESH_STS_PAIR 0 0

/-- The same with every TS input read normal. -/
def State.enclosurePassed (s : State) (c : BatteryReadings) : State :=
  (List.range 4).foldl (fun t i => t.tsSample i (s.tsRead c i)) s.meshPassed

theorem State.meshPassed_get (s : State) {f : Field} (hf : R.TMP_MESH_STS_PAIR.key 0 ≠ f.key 0) : s.meshPassed.get f = s.get f :=
  State.get_set_other _ _ _ _ _ _ hf

theorem State.meshPassed_pair (s : State) : s.meshPassed.get R.TMP_MESH_STS_PAIR = 0 := State.get_set_self _ _ _ _ (by decide)

theorem State.meshPassed_tmp (s : State) : s.meshPassed.tmp = { s.tmp with once := 1, meshSeen := [], meshRun := [] } := rfl

/-- The light sensors, the temperature, VBAT and ZEROIZE_N read quiet. -/
def State.quietRead (s : State) (c : BatteryReadings) : State :=
  (((s.set R.TMP_LIGHT_STS_TRIP 0 (s.get R.TMP_LIGHT_STS_TRIP / 4 * 4)).tempShown 4 c.temp (s.tmp.tempOut.filter (· != 4))).vbatRail
    c.vbat).zeroizeLevel false

@[simp] theorem State.quietRead_tmp (s : State) (c : BatteryReadings) :
    (s.quietRead c).tmp = { s.tmp with tempOut := s.tmp.tempOut.filter (· != 4), zeroLow := false } := rfl

@[simp] theorem State.quietRead_ks (s : State) (c : BatteryReadings) : (s.quietRead c).ks = s.ks := by
  simp only [State.quietRead, State.zeroizeLevel, Bool.false_eq_true, if_false, State.vbatRail, State.tempShown, State.set_ks]

@[simp] theorem State.quietRead_otp (s : State) (c : BatteryReadings) : (s.quietRead c).otp = s.otp := by
  simp only [State.quietRead, State.zeroizeLevel, Bool.false_eq_true, if_false, State.vbatRail, State.tempShown, State.set_otp]

theorem State.vbatRail_get (s : State) (mv : Nat) {f : Field} (huv : R.TMP_RAIL_STS_UV.key 0 ≠ f.key 0)
    (hov : R.TMP_RAIL_STS_OV.key 0 ≠ f.key 0) : (s.vbatRail mv).get f = s.get f :=
  (State.get_set_other _ _ _ _ _ _ hov).trans (State.get_set_other _ _ _ _ _ _ huv)

theorem State.tempShown_get (s : State) (i : Nat) (v : Int) (out : List Nat) {f : Field} (hf : R.TMP_TEMP_TEMP.key i ≠ f.key 0) :
    (s.tempShown i v out).get f = s.get f := State.get_set_other _ _ _ _ _ _ hf

theorem State.zeroizeLevel_high_get (s : State) {f : Field} (hf : R.MGT_PIN_STS_ZEROIZE_N.key 0 ≠ f.key 0) :
    (s.zeroizeLevel false).get f = s.get f := State.get_set_other _ _ _ _ _ _ hf

/-- What the quiet readings leave alone: every field but those that show them. -/
theorem State.quietRead_get (s : State) (c : BatteryReadings) {f : Field}
    (hf : f.key 0 ∉ [R.TMP_LIGHT_STS_TRIP.key 0, R.TMP_TEMP_TEMP.key 4, R.TMP_RAIL_STS_UV.key 0, R.TMP_RAIL_STS_OV.key 0,
      R.MGT_PIN_STS_ZEROIZE_N.key 0]) : (s.quietRead c).get f = s.get f := by
  simp only [List.mem_cons, List.not_mem_nil, or_false, not_or] at hf
  obtain ⟨hlight, htemp, huv, hov, hpin⟩ := hf
  rw [State.quietRead, State.zeroizeLevel_high_get _ (Ne.symm hpin), State.vbatRail_get _ _ (Ne.symm huv) (Ne.symm hov),
    State.tempShown_get _ _ _ _ (Ne.symm htemp), State.get_set_other _ _ _ _ _ _ (Ne.symm hlight)]

/-- The light sensors of the battery domain show nothing. -/
theorem State.quietRead_light (s : State) (c : BatteryReadings) : (s.quietRead c).get R.TMP_LIGHT_STS_TRIP % 4 = 0 := by
  rw [State.quietRead, State.zeroizeLevel_high_get _ (by decide), State.vbatRail_get _ _ (by decide) (by decide),
    State.tempShown_get _ _ _ _ (by decide), State.get_set_self _ _ _ _ (by decide)]
  simp only [R.TMP_LIGHT_STS_TRIP]; omega

/-- VBAT within its range shows no under-voltage. -/
theorem State.quietRead_uv (s : State) {c : BatteryReadings} (hc : QuietReadings c) :
    (s.quietRead c).get R.TMP_RAIL_STS_UV = s.get R.TMP_RAIL_STS_UV % 256 := by
  have hlow : decide (c.vbat < 2300) = false := decide_eq_false (Nat.not_lt.2 hc.vbat.1)
  rw [State.quietRead, State.zeroizeLevel_high_get _ (by decide), State.vbatRail, State.get_set_other _ _ _ _ _ _ (by decide),
    State.get_set_self _ _ _ _ (by decide), State.tempShown_get _ _ _ _ (by decide), State.get_set_other _ _ _ _ _ _ (by decide), hlow]
  simp only [R.TMP_RAIL_STS_UV, b2n_false]; omega

theorem State.enclosurePassed_normal (s : State) {c : BatteryReadings} (hc : QuietReadings c) :
    s.meshPassed.TsNormal [3, 2, 1, 0] (s.enclosurePassed c) := .ofReadings s hc.ts (s.meshPassed_get (by decide))

theorem State.enclosurePassed_get (s : State) {c : BatteryReadings} (hc : QuietReadings c) {f : Field}
    (hpair : R.TMP_MESH_STS_PAIR.key 0 ≠ f.key 0) (hts : R.TMP_TS_STS_INPUT.key 0 ≠ f.key 0) :
    (s.enclosurePassed c).get f = s.get f := ((s.enclosurePassed_normal hc).get f 0 hts).trans (s.meshPassed_get hpair)

/-- After the quiet readings no pair of the mesh and no TS input is a cause. -/
theorem State.quietRead_enclosureQuiet (s : State) {c : BatteryReadings} (hc : QuietReadings c) :
    ((s.enclosurePassed c).quietRead c).enclosureQuiet = true := by
  have hnormal := s.enclosurePassed_normal hc
  simp only [State.enclosureQuiet, Bool.and_eq_true, List.all_eq_true, List.mem_range, Bool.or_eq_true, Bool.not_eq_true',
    decide_eq_true_eq]
  refine ⟨fun p _ => .inr ?_, fun i hi => ?_⟩
  · rw [State.quietRead_tmp, hnormal.tmp]
    exact Nat.two_pos
  · have hbyte : ((s.enclosurePassed c).quietRead c).tsByte i = s.meshPassed.tsByte i :=
      (congrArg (· / 256 ^ i % 256) (State.quietRead_get _ c (by decide))).trans (hnormal.tsByte i)
    rw [hbyte]
    cases hen : bit (s.meshPassed.tsByte i) 0
    · exact .inl rfl
    · obtain ⟨hbad, hopen⟩ := hnormal.runs i (by simp; omega) hi hen
      have hpos := debSamples_pos (s.meshPassed.tsByte i)
      rw [State.quietRead_tmp, hbad, hopen]
      exact .inr ⟨hpos, .inr hpos⟩

/-- What quiet readings make of the monitor after the enclosure was read. -/
theorem State.quietRead_eq {s : State} {c : BatteryReadings} (hoff : s.tmpOff = false) (hp : s.glb.powered = false)
    (hc : QuietReadings c) :
    ((((s.set R.TMP_LIGHT_STS_TRIP 0 (s.get R.TMP_LIGHT_STS_TRIP / 4 * 4)).tempSample 4 c.temp).vbatCause c.vbat).zeroizeLevel false) =
      s.quietRead c := by
  have hlit : (s.set R.TMP_LIGHT_STS_TRIP 0 (s.get R.TMP_LIGHT_STS_TRIP / 4 * 4)).tmpOff = false :=
    (State.tmpOff_congr (State.get_set_other _ _ _ _ _ _ (by decide))).trans hoff
  rw [State.tempSample_of_inside hlit hc.inside, State.vbatCause_on_battery, if_pos hc.vbat]
  · rfl
  · exact (State.tmpOff_congr (State.tempShown_get _ _ _ _ (by decide))).trans hlit
  · exact hp

/-- A battery check over, with the clamp cleared. -/
def State.checkPassed (s : State) : State := ({ s with tmp := { s.tmp with once := 0 } } : State).clampClears

theorem State.checkPassed_get (s : State) {f : Field} (hactive : R.TMP_STS_ACTIVE.key 0 ≠ f.key 0)
    (hclamp : R.TMP_STS_CLAMP.key 0 ≠ f.key 0) : s.checkPassed.get f = s.get f := State.clampClears_get _ hactive hclamp

@[simp] theorem State.checkPassed_tmp (s : State) : s.checkPassed.tmp = { s.tmp with once := 0 } := State.clampClears_tmp _
@[simp] theorem State.checkPassed_ks (s : State) : s.checkPassed.ks = s.ks := State.clampClears_ks _
@[simp] theorem State.checkPassed_otp (s : State) : s.checkPassed.otp = s.otp := State.clampClears_otp _

/-- A check that finds nothing wrong ends with the clamp cleared. -/
theorem State.batteryCheck_of_quiet {s : State} {c : BatteryReadings} (hoff : s.tmpOff = false) (hp : s.glb.powered = false)
    (hc : QuietReadings c) :
    s.batteryCheck c = ((s.enclosurePassed c).quietRead c).checkPassed := by
  have hmesh : ({ s with tmp := { s.tmp with once := 1 } } : State).meshGood = s.meshPassed := State.meshGood_of_on hoff
  have hencl : (List.range 4).foldl (fun t i => t.tsSample i (s.tsRead c i)) s.meshPassed = s.enclosurePassed c := rfl
  have hread := State.quietRead_eq (s := s.enclosurePassed c)
    ((State.tmpOff_congr (s.enclosurePassed_get hc (by decide) (by decide))).trans hoff)
    ((congrArg Glb.powered (s.enclosurePassed_normal hc).glb).trans hp) hc
  have hquiet := s.quietRead_enclosureQuiet hc
  rw [State.batteryCheck, if_neg (by simp [hp, hoff]), if_neg (by simp [hc.reversed])]
  simp only [hc.mesh, hc.light, hc.zeroize, hc.inside, if_true, List.filter_nil, List.foldl_nil, hmesh, hencl, hread, hquiet,
    hc.vbat, Bool.not_false, List.isEmpty_nil, Bool.false_and, Bool.and_true, and_self, decide_true, State.checkPassed]

/-! ## The statement about the sensors -/

theorem exec_tmpMesh_cons (s : State) (i : Nat) (b : MeshBit) (later : List MeshBit) :
    exec (.tmpMesh ⟨i, b :: later⟩) s = exec (.tmpMesh ⟨i, later⟩) (s.meshBit i b) := rfl

/-- Where the monitor is off, or a sensor is not looked at, its command changes nothing (R259). -/
theorem exec_sensor_of_off {s : State} (hoff : s.tmpOff = true) (i mv : Nat) (bs : List MeshBit) (opened : Bool) (celsius : Int)
    (c : BatteryReadings) {x : Instr}
    (hx : x ∈ [Instr.tmpMesh ⟨i, bs⟩, .tmpTs i opened, .tmpRailOv i, .tmpRailUv i, .tmpLight i, .tmpGlitch i, .tmpVbat mv,
      .batLow mv, .tmpTemp i celsius, .poweredCheck, .batteryCheck c]) : exec x s = ok s := by
  simp only [List.mem_cons, List.not_mem_nil, or_false] at hx
  rcases hx with rfl | rfl | rfl | rfl | rfl | rfl | rfl | rfl | rfl | rfl | rfl
  · exact congrArg ok (State.meshBits_of_unchecked (.inl hoff) bs)
  · exact congrArg ok (State.tsAbnormal_of_unchecked (.inl hoff) opened)
  · exact congrArg ok (State.rails_of_unchecked (.inl hoff)).1
  · exact congrArg ok (State.rails_of_unchecked (.inl hoff)).2
  · exact congrArg ok (State.lightTrip_of_unchecked (.inl hoff))
  · exact congrArg ok (State.glitch_of_off hoff i)
  · exact congrArg ok (State.vbatCause_of_unchecked (.inl hoff) mv)
  · exact congrArg ok (State.vbatPowered_of_unchecked (.inl hoff) mv)
  · exact congrArg ok (State.tempCause_of_unchecked (.inl hoff) celsius)
  · exact congrArg ok (State.poweredCheck_of_unchecked (.inr (.inl hoff)))
  · exact congrArg ok (State.batteryCheck_of_unchecked (.inr hoff) c)

/-- A powered check that finds no cause clears the clamp and what the sensors showed (R263). -/
theorem exec_poweredCheck_quiet {s : State} (hoff : s.tmpOff = false) (hp : s.glb.powered = true) (hz : s.tmp.zeroLow = false) :
    Gives (exec .poweredCheck s) (fun t => t.get R.TMP_STS_CLAMP = 0 ∧ t.get R.TMP_STS_ACTIVE = 0 ∧
      t.get R.TMP_MESH_STS_PAIR = 0 ∧ t.get R.TMP_LIGHT_STS_TRIP = 0 ∧ t.get R.TMP_RAIL_STS_UV % 256 = 0 ∧
      t.tmp.tempOut = s.tmp.tempOut ∧ t.ks = s.ks ∧ t.otp = s.otp) := by
  obtain ⟨hpair, hlight, huv⟩ := State.sensorsQuiet_shows hoff
  obtain ⟨hout, hks, hotp⟩ := State.sensorsQuiet_keeps hoff
  refine ⟨_, congrArg ok (State.poweredCheck_of_checked hoff hp hz), ?_, ?_, ?_, ?_, ?_, ?_, ?_, ?_⟩
  · rw [State.get_wires _ _ _ (by decide), State.clampClears_clamp]
  · rw [State.get_wires _ _ _ (by decide), State.clampClears_active]
  · rw [State.get_wires _ _ _ (by decide), State.clampClears_get _ (by decide) (by decide), hpair]
  · rw [State.get_wires _ _ _ (by decide), State.clampClears_get _ (by decide) (by decide), hlight]
  · rw [State.get_wires _ _ _ (by decide), State.clampClears_get _ (by decide) (by decide), huv]
  · rw [State.wires_tmp, State.clampClears_tmp]; exact hout
  · rw [State.wires_ks, State.clampClears_ks, hks]
  · rw [State.wires_otp, State.clampClears_otp, hotp]

/-- So does a battery check that finds nothing wrong, for the sensors of the battery domain (R263). -/
theorem exec_batteryCheck_quiet {s : State} {c : BatteryReadings} (hoff : s.tmpOff = false) (hp : s.glb.powered = false)
    (hc : QuietReadings c) :
    Gives (exec (.batteryCheck c) s) (fun t => t.get R.TMP_STS_CLAMP = 0 ∧ t.get R.TMP_STS_ACTIVE = 0 ∧ t.get R.TMP_MESH_STS_PAIR = 0 ∧
      t.get R.TMP_LIGHT_STS_TRIP % 4 = 0 ∧ t.get R.TMP_RAIL_STS_UV = s.get R.TMP_RAIL_STS_UV % 256 ∧
      t.tmp.tempOut = s.tmp.tempOut.filter (· != 4) ∧ t.ks = s.ks ∧ t.otp = s.otp) := by
  have hnormal := s.enclosurePassed_normal hc
  refine ⟨_, congrArg ok (State.batteryCheck_of_quiet hoff hp hc), ?_, ?_, ?_, ?_, ?_, ?_, ?_, ?_⟩
  · rw [State.get_wires _ _ _ (by decide), State.checkPassed, State.clampClears_clamp]
  · rw [State.get_wires _ _ _ (by decide), State.checkPassed, State.clampClears_active]
  · rw [State.get_wires _ _ _ (by decide), State.checkPassed_get _ (by decide) (by decide), State.quietRead_get _ c (by decide),
      hnormal.get _ 0 (by decide), State.meshPassed_pair]
  · rw [State.get_wires _ _ _ (by decide), State.checkPassed_get _ (by decide) (by decide), State.quietRead_light]
  · rw [State.get_wires _ _ _ (by decide), State.checkPassed_get _ (by decide) (by decide), State.quietRead_uv _ hc,
      s.enclosurePassed_get hc (by decide) (by decide)]
  · rw [State.wires_tmp, State.checkPassed_tmp, State.quietRead_tmp, hnormal.tmp, State.meshPassed_tmp]
  · rw [State.wires_ks, State.checkPassed_ks, State.quietRead_ks, hnormal.ks]; rfl
  · rw [State.wires_otp, State.checkPassed_otp, State.quietRead_otp, hnormal.otp]; rfl

/-- Settles O40: sensor by sensor, what is checked shows and raises its cause or its report, and what is not checked does nothing. -/
theorem tamperSensors : Obligations.TamperSensors := by
  unfold Obligations.TamperSensors
  refine ⟨fun s i mv opened hoff => ?sensors, fun s i celsius c hoff => ?samples, fun s i mv bs opened celsius c => ?off⟩
  case sensors =>
    refine ⟨fun hi hen b later => ?mesh, fun h bs => ?meshOff, fun hi hen => ⟨fun h => ?tsCause, fun hopen hresp => ?tsReport⟩,
      fun h => ?tsOff, rfl, fun h => ⟨?railOv, fun harm => ?railUvArmed, fun harm hi => ?railUvShown⟩, fun h => ?railOff,
      fun hi h => ?light, fun h => ?lightOff, fun hp => ⟨?glitch, ?vbatPowered, ?reversed, fun hlo hhi => ?vbatGood, fun h => ?vbatBad⟩,
      fun hp => ⟨?glitchOff, ?vbatOff, fun h => ?vbatCause, fun hlo hhi => ?vbatShown⟩⟩
    case mesh =>
      have hbit := State.meshBit_of_checked hoff hi hen b
      exact ⟨congrArg ok hbit, (exec_tmpMesh_cons s i b later).trans (congrArg (exec _) hbit)⟩
    case meshOff => exact congrArg ok (State.meshBits_of_unchecked (.inr h) bs)
    case tsCause =>
      refine congrArg ok ((State.tsAbnormal_of_checked hoff hi hen opened).trans (if_neg ?_))
      rintro ⟨hopen, hresp⟩
      rcases h with h | h
      · exact Bool.noConfusion (h.symm.trans hopen)
      · exact Bool.noConfusion (h.symm.trans hresp)
    case tsReport => exact congrArg ok ((State.tsAbnormal_of_checked hoff hi hen opened).trans (if_pos ⟨hopen, hresp⟩))
    case tsOff => exact congrArg ok (State.tsAbnormal_of_unchecked (.inr h) opened)
    case railOv => exact congrArg ok (State.railOv_of_checked hoff h)
    case railUvArmed => exact congrArg ok ((State.railUv_of_checked hoff h).trans (if_pos harm.symm))
    case railUvShown => exact congrArg ok ((State.railUv_of_checked hoff h).trans (if_neg (by simp [hi, harm])))
    case railOff =>
      have hunchecked : ¬s.railChecked i := (State.railUnchecked_iff hoff i).1 (.inr (by
        rcases h with h | ⟨hi, hp⟩
        · exact .inl h
        · exact .inr ⟨hi, by simp [hp]⟩))
      obtain ⟨hov, huv⟩ := State.rails_of_unchecked (.inr hunchecked)
      exact ⟨congrArg ok hov, congrArg ok huv⟩
    case light => exact congrArg ok (State.lightTrip_of_checked hoff hi h)
    case lightOff => exact congrArg ok (State.lightTrip_of_unchecked (.inr h))
    case glitch => exact congrArg ok (State.glitch_of_powered hp i)
    case vbatPowered => exact congrArg ok (State.vbatCause_of_unchecked (.inr hp) mv)
    case reversed => exact congrArg ok (State.vbatReversed_of_powered hoff hp)
    case vbatGood => exact congrArg ok ((State.vbatPowered_of_powered hoff hp mv).trans (if_pos ⟨hlo, hhi⟩))
    case vbatBad => exact congrArg ok ((State.vbatPowered_of_powered hoff hp mv).trans (if_neg (by omega)))
    case glitchOff => exact congrArg ok (State.glitch_of_unpowered hp i)
    case vbatOff => exact congrArg ok (State.vbatPowered_of_unchecked (.inr hp) mv)
    case vbatCause => exact congrArg ok ((State.vbatCause_on_battery hoff hp mv).trans (if_neg (by omega)))
    case vbatShown => exact congrArg ok ((State.vbatCause_on_battery hoff hp mv).trans (if_pos ⟨hlo, hhi⟩))
  case samples =>
    refine ⟨fun hi hlo hhi => ?inside, fun hi h => ?beyond, fun hi => congrArg ok (State.tempCause_of_unchecked (.inr hi) celsius),
      fun hp => ⟨congrArg ok (State.batteryCheck_of_unchecked (.inl hp) c),
        fun hz => congrArg ok (State.poweredCheck_of_unchecked (.inr (.inr hz))), exec_poweredCheck_quiet hoff hp⟩,
      fun hp => congrArg ok (State.poweredCheck_of_unchecked (.inl hp)),
      fun hp hmesh hts hlight hzero hrev htlo hthi hvlo hvhi =>
        exec_batteryCheck_quiet hoff hp ⟨hmesh, hts, hlight, hzero, hrev, ⟨htlo, hthi⟩, ⟨hvlo, hvhi⟩⟩⟩
    case inside => exact congrArg ok ((State.tempCause_of_checked hoff hi celsius).trans (if_neg (by omega)))
    case beyond => exact congrArg ok ((State.tempCause_of_checked hoff hi celsius).trans (if_pos h))
  case off =>
    exact ⟨fun hoff x hx => exec_sensor_of_off hoff i mv bs opened celsius c hx,
      fun hp => congrArg ok (State.vbatReversed_on_battery hp)⟩

end Sys2Proof.Machine

namespace Sys2Proof.Machine

/-! ## Captures of the guards (R284) -/

/-- The elements of arrays of one stride lie as far apart as their first elements. -/
theorem Field.key_of_stride {f h : Field} (hs : f.stride = h.stride) (i : Nat) : f.key i + h.key 0 = h.key i + f.key 0 := by
  simp only [Field.key, hs]
  omega

/-- A write of a field leaves the other fields of its element alone. -/
theorem State.get_set_sibling (s : State) {f h : Field} (i v : Nat) (hs : f.stride = h.stride) (hne : f.key 0 ≠ h.key 0) :
    (s.set f i v).get h i = s.get h i := by
  have hkey := Field.key_of_stride hs i
  exact State.get_set_other _ _ _ _ _ _ (by omega)

/-- The register fields of a capture. -/
def violFields : List Field :=
  [R.GRD_VIOL_ADDR_ADDR, R.GRD_VIOL_INFO_VALID, R.GRD_VIOL_INFO_CAUSE, R.GRD_VIOL_INFO_OP, R.GRD_VIOL_INFO_COLOUR,
   R.GRD_VIOL_INFO_MASTER, R.GRD_VIOL_OVF_COUNT]

theorem violFields_key {f : Field} (hf : f ∈ violFields) (g : Nat) :
    f.key g = f.key 0 + 1024 * g ∧ 0x0D0100 * 64 ≤ f.key 0 ∧ f.key 0 < 0x0D0110 * 64 := by
  have hall : ∀ f ∈ violFields, f.stride = 16 ∧ 0x0D0100 * 64 ≤ f.key 0 ∧ f.key 0 < 0x0D0110 * 64 := by decide
  obtain ⟨hstride, hbounds⟩ := hall f hf
  refine ⟨?_, hbounds⟩
  simp only [Field.key, hstride]
  omega

/-- The outputs lie outside the captures. -/
theorem State.wires_get_viol (s : State) {f : Field} (hf : f ∈ violFields) {g : Nat} (hg : g < 8) : s.wires.get f g = s.get f g := by
  obtain ⟨hkey, hlo, hhi⟩ := violFields_key hf g
  have houtside : ∀ k ∈ wiredKeys, k < 0x0D0000 * 64 ∨ 0x0D1000 * 64 ≤ k := by decide
  refine State.get_wires _ _ _ (fun hmem => ?_)
  have := houtside _ hmem
  omega

/-- So does GRD_ERR_STS, where a violation shows. -/
theorem State.grdErr_get_viol (s : State) {f : Field} (hf : f ∈ violFields) (g mask : Nat) :
    (s.grdErr R.GRD_ERR_STS_VIOL mask).get f g = s.get f g := by
  obtain ⟨hkey, hlo, -⟩ := violFields_key hf g
  have hbelow : R.GRD_ERR_STS_VIOL.key 0 < 0x0D0100 * 64 := by decide
  exact State.get_event_other _ _ _ _ _ _ _ (by omega)

/-- The capture of group `g` filled, and its count at 0. -/
def State.captured (s : State) (g cause op addr master colour : Nat) : State :=
  ((((((s.set R.GRD_VIOL_ADDR_ADDR g addr).set R.GRD_VIOL_INFO_CAUSE g cause).set R.GRD_VIOL_INFO_OP g op).set
    R.GRD_VIOL_INFO_COLOUR g colour).set R.GRD_VIOL_INFO_MASTER g master).set R.GRD_VIOL_OVF_COUNT g 0).set R.GRD_VIOL_INFO_VALID g 1

section
variable {s : State} {g cause op addr master colour : Nat}

theorem State.violate_first (h : s.on R.GRD_VIOL_INFO_VALID g = false) :
    s.violate g cause op addr master colour =
      (s.captured g cause op addr master colour).grdErr R.GRD_ERR_STS_VIOL (2 ^ g) := by
  rw [State.violate, if_neg (by simp [h])]
  rfl

theorem State.violate_again (h : s.on R.GRD_VIOL_INFO_VALID g = true) :
    s.violate g cause op addr master colour = s.bumpSat R.GRD_VIOL_OVF_COUNT g := if_pos h

theorem State.captured_valid : (s.captured g cause op addr master colour).on R.GRD_VIOL_INFO_VALID g = true :=
  State.on_set_self _ _ _ true rfl

theorem State.captured_get :
    (s.captured g cause op addr master colour).get R.GRD_VIOL_INFO_CAUSE g = cause % 2 ^ R.GRD_VIOL_INFO_CAUSE.width ∧
    (s.captured g cause op addr master colour).get R.GRD_VIOL_INFO_OP g = op % 2 ^ R.GRD_VIOL_INFO_OP.width ∧
    (s.captured g cause op addr master colour).get R.GRD_VIOL_ADDR_ADDR g = addr % 2 ^ R.GRD_VIOL_ADDR_ADDR.width ∧
    (s.captured g cause op addr master colour).get R.GRD_VIOL_INFO_MASTER g = master % 2 ^ R.GRD_VIOL_INFO_MASTER.width ∧
    (s.captured g cause op addr master colour).get R.GRD_VIOL_INFO_COLOUR g = colour % 2 ^ R.GRD_VIOL_INFO_COLOUR.width ∧
    (s.captured g cause op addr master colour).get R.GRD_VIOL_OVF_COUNT g = 0 := by
  simp (disch := decide) only [State.captured, State.get_set_sibling, State.get_set_self, Nat.zero_mod, and_self]

end

/-- A capture cleared reads all zero. -/
theorem State.violClear_get (s : State) {f : Field} (hf : f ∈ violFields) (g : Nat) : (s.violClear g).get f g = 0 := by
  simp only [violFields, List.mem_cons, List.not_mem_nil, or_false] at hf
  rcases hf with rfl | rfl | rfl | rfl | rfl | rfl | rfl <;>
    simp (disch := decide) only [State.violClear, State.get_set_sibling, State.get_set_self, Nat.zero_mod]

theorem exec_violClear {s : State} {g : Nat} (hg : g < 8) (hw : s.writable 0x0D0108 = true) :
    exec (.violClear g) s = .next (s.violClear g).wires := by
  have hrow : exec (.violClear g) s = ok (s.ifWritable 0x0D0108 (s.violClear g)) := congrArg ok (if_pos hg)
  rw [hrow, State.ifWritable_true hw]
  rfl

/-- Settles O16: a violation fills an empty capture, counts while one stands, and VALID written 1 clears both. -/
theorem violationCapture : Obligations.ViolationCapture := by
  unfold Obligations.ViolationCapture
  intro s g cause op addr master colour hg hcause hop haddr hmaster hcolour
  refine ⟨fun hfree => ?first, State.violate_again, fun hw => ⟨_, exec_violClear hg hw, ?clearValid, ?clearCount, ?clearAddr, ?_, ?_, ?_⟩⟩
  case first =>
    intro t
    have ht : ∀ f ∈ violFields, t.get f g = (s.captured g cause op addr master colour).get f g := fun f hf => by
      rw [show t = _ from State.violate_first hfree, State.grdErr_get_viol _ hf]
    obtain ⟨hc, ho, ha, hm, hcol, hcount⟩ := s.captured_get (g := g) (cause := cause) (op := op) (addr := addr) (master := master)
      (colour := colour)
    refine ⟨?_, ?_, ?_, ?_, ?_, ?_, (ht _ (by decide)).trans hcount⟩
    · rw [State.on, ht _ (by decide)]
      exact State.captured_valid
    · exact (ht _ (by decide)).trans (hc.trans (Nat.mod_eq_of_lt hcause))
    · exact (ht _ (by decide)).trans (ho.trans (Nat.mod_eq_of_lt hop))
    · exact (ht _ (by decide)).trans (ha.trans (Nat.mod_eq_of_lt haddr))
    · exact (ht _ (by decide)).trans (hm.trans (Nat.mod_eq_of_lt hmaster))
    · exact (ht _ (by decide)).trans (hcol.trans (Nat.mod_eq_of_lt hcolour))
  case clearValid => rw [State.on, State.wires_get_viol _ (by decide) hg, State.violClear_get _ (by decide)]; rfl
  case clearCount => rw [State.wires_get_viol _ (by decide) hg, State.violClear_get _ (by decide)]
  case clearAddr => rw [State.wires_get_viol _ (by decide) hg, State.violClear_get _ (by decide)]
  · exact State.wires_fab _
  · exact State.wires_fb _
  · exact State.wires_trv _

/-! ## Who writes the registers of the guards and of the memory controller (R287) -/

/-- None of their registers is taken on other terms than its block's. -/
theorem State.regWrite_guardOwned {s : State} {off : Nat} (src : Src) (word : Nat) (hr : (regAt off).isSome = true)
    (hown : guardOwned off = true) (hw : s.writable off = true) : s.regWrite src off word = s.writeReg src off word := by
  simp only [guardOwned, Bool.or_eq_true, beq_iff_eq] at hown
  have hrst : off ≠ 0x000030 := by omega
  have hlc : off ≠ 0x0A0008 := by omega
  have hevt : off ≠ 0x0C0008 := by omega
  have hdatum : off ≠ 0x080008 := by omega
  simp [State.regWrite, Option.isNone_eq_false_iff.2 hr, State.gated_of_writable hw, hrst, hlc, hevt, hdatum, State.ifWritable_true hw]

/-- GRD_VIOL_INFO[n] of some group lies at the offset. -/
def violInfoAt (off : Nat) : Bool := inRange off 0x0D0108 0x0D0180 && (off - 0x0D0108) % 16 == 0

theorem violInfoAt_iff (off : Nat) : violInfoAt off = true ↔ ∃ g, g < 8 ∧ off = 0x0D0108 + 16 * g := by
  simp only [violInfoAt, inRange, Bool.and_eq_true, decide_eq_true_eq, beq_iff_eq]
  constructor
  · rintro ⟨⟨hlo, hhi⟩, hmod⟩
    exact ⟨(off - 0x0D0108) / 16, by omega, by omega⟩
  · rintro ⟨g, hg, rfl⟩
    omega

/-- A write that R287 keeps out. -/
theorem State.writeReg_kept {s : State} {src : Src} {off : Nat} (word : Nat) (hown : guardOwned off = true) (hsrc : src ≠ .corePriv)
    (hother : violInfoAt off = false ∨ src ≠ .admin) : s.writeReg src off word = s.guardKept src off word := by
  have hkept : (!(violInfoAt off && src == .admin)) = true := by
    rcases hother with h | h <;> simp [h]
  exact if_pos ⟨hown, hsrc, hkept⟩

/-- A write that R287 lets through. -/
theorem State.writeReg_taken {s : State} {src : Src} {off : Nat} (word : Nat)
    (h : src = .corePriv ∨ src = .admin ∧ violInfoAt off = true) :
    s.writeReg src off word = (s.specialWrite src off word).getD (s.writeFields none off word) := by
  rw [State.writeReg, if_neg]
  · cases s.specialWrite src off word <;> rfl
  · rintro ⟨-, hsrc, hkept⟩
    rcases h with h | ⟨rfl, hviol⟩
    · exact hsrc h
    · rw [← violInfoAt, hviol] at hkept
      exact absurd hkept (by decide)

theorem State.specialWrite_violInfo (s : State) (src : Src) {g : Nat} (hg : g < 8) (word : Nat) :
    s.specialWrite src (0x0D0108 + 16 * g) word = some (if bit word 31 then s.violClear g else s) := by
  interval_cases g <;> rfl

theorem State.guardKept_of_other {s : State} {src : Src} (h : src ≠ .admin) (off word : Nat) : s.guardKept src off word = s := if_pos h

/-- W1C fields alone act, and a write to any other field that takes writes is recorded. -/
theorem State.guardKept_admin {s : State} {off i : Nat} {r : Reg} (hr : regAt off = some (r, i)) (word : Nat) :
    s.guardKept .admin off word = if r.fields.all (fun f => f.acc == .w1c || f.acc == .ro) then s.writeClears off word
      else (s.writeClears off word).writeDropped off := by
  simp only [State.guardKept, hr]
  cases r.fields.all (fun f => f.acc == .w1c || f.acc == .ro) <;> rfl

theorem State.writeField_w1c (s : State) (sess : Option Nat) {f : Field} (hf : f.acc = .w1c) (i word : Nat) :
    s.writeField sess f i word = s.set f i (s.get f i ^^^ (s.get f i &&& (word / 2 ^ f.lo % 2 ^ f.width))) := by
  simp only [State.writeField, hf]

/-- Settles O18: the capture's VALID, the sources that write nothing, the W1C fields and the record of the administrative function, and
the privileged cores. -/
theorem guardRegisterWrites : Obligations.GuardRegisterWrites := by
  unfold Obligations.GuardRegisterWrites
  intro s src off word i r hr hown hw
  have hexec : ∀ src, exec (.registerWrite src off word) s = ok (s.writeReg src off word) := fun src =>
    congrArg ok (State.regWrite_guardOwned src word (by rw [hr]; rfl) hown hw)
  refine ⟨fun g hg hoff hsrc => ?viol, fun hsrc => ?other, fun hno => ?rest⟩
  case viol =>
    have hviol := (violInfoAt_iff off).2 ⟨g, hg, hoff⟩
    rw [hexec, State.writeReg_taken word (hsrc.symm.imp_right (⟨·, hviol⟩)), hoff, s.specialWrite_violInfo src hg word]
    rfl
  case other =>
    have hne : src ≠ .corePriv ∧ src ≠ .admin := by rcases hsrc with rfl | rfl | rfl <;> decide
    rw [hexec, State.writeReg_kept word hown hne.1 (.inr hne.2), State.guardKept_of_other hne.2]
    rfl
  case rest =>
    intro clears
    have hviol : violInfoAt off = false := Bool.eq_false_iff.2 fun h => by
      obtain ⟨g, hg, hoff⟩ := (violInfoAt_iff off).1 h
      exact Nat.not_le.2 hg (hno g hoff)
    have hclears : s.writeClears off word = clears := by
      simp only [State.writeClears, hr]
      refine List.foldl_ext _ _ _ fun t f hf => ?_
      exact t.writeField_w1c none (by simpa using (List.mem_filter.1 hf).2) i word
    have hadmin : s.writeReg .admin off word = _ :=
      (State.writeReg_kept word hown (by decide) (.inl hviol)).trans (State.guardKept_admin hr word)
    refine ⟨fun ⟨f, hf, hacc⟩ => ?_, fun hall => ?_, fun hplain => ?_⟩
    · have hsome : r.fields.all (fun f => f.acc == .w1c || f.acc == .ro) = false := by
        refine List.all_eq_false.2 ⟨f, hf, ?_⟩
        rcases hacc with h | h | h | h | h <;> simp [h]
      rw [hexec, hadmin, hsome, hclears]
      rfl
    · have hnone : r.fields.all (fun f => f.acc == .w1c || f.acc == .ro) = true :=
        List.all_eq_true.2 fun f hf => by rcases hall f hf with h | h <;> simp [h]
      rw [hexec, hadmin, hnone, hclears]
      rfl
    · rw [hexec, State.writeReg_taken word (.inl rfl), hplain]
      simp only [Option.getD_none, State.writeFields, hr]
      rfl

end Sys2Proof.Machine

namespace Sys2Proof.Machine

/-! ## Commands of the memory controller (R287, R293) -/

/-- The rows that write MSC_CMD, each with the operation, entry and key ID that it writes. -/
def mscRows (entry keyid : Nat) : List (Instr × Nat × Nat × Nat) :=
  [(.mscAlloc, 1, 0, 0), (.mscRekey entry keyid, 2, entry, keyid), (.mscRetire keyid, 3, 0, keyid), (.mscInit entry, 4, entry, 0),
   (.mscFlush, 5, 0, 0)]

theorem exec_mscRow {entry keyid : Nat} {r : Instr × Nat × Nat × Nat} (hr : r ∈ mscRows entry keyid) (s : State) :
    exec r.1 s = ok (s.ifCoreWritable (s.mscCommand r.2.1 r.2.2.1 r.2.2.2)) := by
  simp only [mscRows, List.mem_cons, List.not_mem_nil, or_false] at hr
  rcases hr with rfl | rfl | rfl | rfl | rfl <;> rfl

theorem mscRows_op {entry keyid : Nat} {r : Instr × Nat × Nat × Nat} (hr : r ∈ mscRows entry keyid) : 1 ≤ r.2.1 ∧ r.2.1 ≤ 5 := by
  simp only [mscRows, List.mem_cons, List.not_mem_nil, or_false] at hr
  rcases hr with rfl | rfl | rfl | rfl | rfl <;> simp

theorem State.mscCommand_of_busy {s : State} (h : s.on R.MSC_CMD_STS_BUSY = true) (op entry keyid : Nat) :
    s.mscCommand op entry keyid = s := if_pos h

theorem State.mscCommand_of_idle {s : State} (h : s.on R.MSC_CMD_STS_BUSY = false) {op : Nat} (hop : 1 ≤ op ∧ op ≤ 5)
    (entry keyid : Nat) : s.mscCommand op entry keyid =
      (({ s with fab := { s.fab with cmd := some (op, entry % 16, keyid % 256) } }).set R.MSC_CMD_STS_BUSY 0 1).set
        R.MSC_CMD_STS_ERR 0 0 := by
  rw [State.mscCommand, if_neg (by simp [h]), if_neg (by omega)]

theorem State.ifCoreWritable_of_writable {s : State} (h : s.writable 0x0E0008 = true) (t : State) : s.ifCoreWritable t = t := if_pos h

theorem State.ifCoreWritable_of_gated {s : State} (hw : s.writable 0x0E0008 = false) (hp : s.glb.powered = true)
    (hg : s.gated 0x0E0008 = true) (t : State) : s.ifCoreWritable t = s.violate 0 1 1 0x100E0008 0 0 := by
  rw [State.ifCoreWritable, if_neg (by simp [hw]), if_pos ⟨hp, hg⟩]

/-! ## What the memory controller reports (R291, R299) -/

/-- The key of a field of MSC's error, enable and count registers, which lie from 0x0E0020 up to MSC_KEYID_STS. -/
def mscErrKey (k : Nat) : Prop := 0x0E0020 * 64 ≤ k ∧ k < 0x0E0080 * 64

/-- The status bits of MSC_ERR_STS. -/
def mscErrBits : List Field :=
  [R.MSC_ERR_STS_WALK_DONE, R.MSC_ERR_STS_RMW_POISON, R.MSC_ERR_STS_KEYID, R.MSC_ERR_STS_TAG, R.MSC_ERR_STS_DETECT, R.MSC_ERR_STS_FIX]

/-- From `s` to `t` the memory controller reports: of the registers its error and count registers alone may change, and of the memory
the reads of a line that are still to fail. -/
structure State.MscReport (s t : State) : Prop where
  fab : t.fab = { s.fab with badReads := t.fab.badReads }
  get : ∀ (f : Field) (i : Nat), ¬mscErrKey (f.key i) → t.get f i = s.get f i

theorem State.MscReport.refl (s : State) : s.MscReport s := ⟨rfl, fun _ _ _ => rfl⟩

theorem State.MscReport.trans {s t u : State} (h : s.MscReport t) (g : t.MscReport u) : s.MscReport u :=
  ⟨by rw [g.fab, h.fab], fun f i hf => (g.get f i hf).trans (h.get f i hf)⟩

theorem State.MscReport.ofSet (s : State) {f : Field} (v : Nat) (hf : mscErrKey (f.key 0)) : s.MscReport (s.set f 0 v) :=
  ⟨rfl, fun _ _ hg => State.get_set_other _ _ _ _ _ _ fun he => hg (he ▸ hf)⟩

theorem State.MscReport.ofEvent (s : State) {f : Field} (en : Field) (vec mask : Nat) (hf : mscErrKey (f.key 0)) :
    s.MscReport (s.event f en vec mask) :=
  ⟨by rw [State.event_fab], fun _ _ hg => State.get_event_other _ _ _ _ _ _ _ fun he => hg (he ▸ hf)⟩

theorem State.MscReport.ofErr (s : State) {f : Field} (hf : f ∈ mscErrBits) (group master keyid line : Nat) :
    s.MscReport (s.mscErr f group master keyid line) := by
  have hbits : ∀ f ∈ mscErrBits, mscErrKey (f.key 0) := by simp only [mscErrKey]; decide
  have hinfo : ∀ f ∈ [R.MSC_ERR_INFO_CAUSE, R.MSC_ERR_INFO_GROUP, R.MSC_ERR_INFO_MASTER, R.MSC_ERR_INFO_KEYID, R.MSC_ERR_ADDR_LINE],
      mscErrKey (f.key 0) := by simp only [mscErrKey]; decide
  unfold State.mscErr
  dsimp only
  split
  · exact (((((State.MscReport.ofSet s _ (hinfo _ (by decide))).trans (.ofSet _ _ (hinfo _ (by decide)))).trans
      (.ofSet _ _ (hinfo _ (by decide)))).trans (.ofSet _ _ (hinfo _ (by decide)))).trans (.ofSet _ _ (hinfo _ (by decide)))).trans
        (.ofEvent _ _ _ _ (hbits f hf))
  · exact .ofEvent s _ _ _ (hbits f hf)

theorem State.mscErr_fab (s : State) (f : Field) (group master keyid line : Nat) : (s.mscErr f group master keyid line).fab = s.fab := by
  unfold State.mscErr
  dsimp only
  rw [State.event_fab]
  split <;> rfl

/-- What is reported reads 1, whatever stood before. -/
theorem State.mscErr_get_self (s : State) {f : Field} (hw : f.width = 1) (group master keyid line : Nat) :
    (s.mscErr f group master keyid line).get f = 1 := by
  rw [State.mscErr, State.get_event_self _ _ _ _ _ (by omega), hw]
  exact Nat.mod_two_eq_one_iff_testBit_zero.2 (by simp)

theorem State.poisoned_fab (s : State) (f : Field) (group master keyid line : Nat) :
    (s.poisoned f group master keyid line).fab = s.fab := by
  have herr := (s.bump R.MSC_CNT_POISON_COUNT).mscErr_fab f group master keyid line
  unfold State.poisoned
  dsimp only
  split
  · exact (State.LogStep.ofRecord ..).fab.trans herr
  · exact herr

/-! ## Lines read (R290) -/

/-- The state after the read of a line has corrected and reported what DCODE found, if it found anything. -/
def State.lineFixed (s : State) (group master n : Nat) : State :=
  if Tab.get 0 s.fab.badReads n = 0 then s
  else (({ s with fab := { s.fab with badReads := s.fab.badReads.del n } }).bump R.MSC_CNT_FIX_COUNT).mscErr
    R.MSC_ERR_STS_FIX group master (s.lineAt n).keyId n

theorem State.MscReport.ofFixed (s : State) (group master n : Nat) : s.MscReport (s.lineFixed group master n) := by
  have hcount : mscErrKey (R.MSC_CNT_FIX_COUNT.key 0) := by simp only [mscErrKey]; decide
  unfold State.lineFixed
  split
  · exact .refl s
  · have hreads : s.MscReport { s with fab := { s.fab with badReads := s.fab.badReads.del n } } := ⟨rfl, fun _ _ _ => rfl⟩
    exact (hreads.trans (.ofSet _ _ hcount)).trans (.ofErr _ (by decide) _ _ _ _)

theorem State.readLine_of_worn {s : State} {n : Nat} (h : 3 ≤ Tab.get 0 s.fab.badReads n) (group master : Nat) :
    s.readLine group master n = (none, s.poisoned R.MSC_ERR_STS_DETECT group master (s.lineAt n).keyId n) := if_pos h

/-- A line that DCODE can correct is judged by its KEYID and its TAG. -/
theorem State.readLine_of_readable {s : State} {n : Nat} (h : Tab.get 0 s.fab.badReads n < 3) (group master : Nat) :
    s.readLine group master n = match (s.lineFixed group master n).lineFault n with
      | some f => (none, (s.lineFixed group master n).poisoned f group master (s.lineAt n).keyId n)
      | none => (some { s.lineAt n with data := fitTo 64 (s.lineAt n).data }, s.lineFixed group master n) := by
  rw [State.readLine, if_neg (Nat.not_le.2 h)]
  rfl

/-- What the controller reports is no concern of KEYID and TAG. -/
theorem State.MscReport.mapOf {s t : State} (h : s.MscReport t) (a : Nat) : t.mapOf a = s.mapOf a := by
  have hkeys : ∀ j, ¬mscErrKey (R.MSC_MAP_VALID.key j) ∧ ¬mscErrKey (R.MSC_MAP_BASE.key j) ∧ ¬mscErrKey (R.MSC_MAP_SIZE.key j) := by
    intro j
    simp only [mscErrKey, Field.key, R.MSC_MAP_VALID, R.MSC_MAP_BASE, R.MSC_MAP_SIZE]
    omega
  simp only [State.mapOf, State.on, h.get _ _ (hkeys _).1, h.get _ _ (hkeys _).2.1, h.get _ _ (hkeys _).2.2]

theorem mapKeys_not_mscErrKey (j : Nat) : ¬mscErrKey (R.MSC_MAP_KEYID.key j) ∧ ¬mscErrKey (R.MSC_MAP_OLD.key j) := by
  simp only [mscErrKey, Field.key, R.MSC_MAP_KEYID, R.MSC_MAP_OLD]
  omega

theorem State.MscReport.lineAt {s t : State} (h : s.MscReport t) (n : Nat) : t.lineAt n = s.lineAt n := by
  rw [State.lineAt, h.fab, State.lineAt]

theorem State.MscReport.allocs {s t : State} (h : s.MscReport t) : t.fab.allocs = s.fab.allocs := by rw [h.fab]

theorem State.MscReport.lineFault {s t : State} (h : s.MscReport t) (n : Nat) : t.lineFault n = s.lineFault n := by
  have hactive : ∀ k, t.keyActive k = s.keyActive k := fun k => by
    rw [State.keyActive, h.get, State.keyActive]
    simp only [mscErrKey, Field.key, R.MSC_KEYID_STS_ACTIVE]
    omega
  simp only [State.lineFault, h.mapOf, h.lineAt, h.allocs, hactive, h.get _ _ (mapKeys_not_mscErrKey _).1,
    h.get _ _ (mapKeys_not_mscErrKey _).2]

/-- A line in order reads as it stands. -/
theorem State.readLine_of_sound {s : State} {n : Nat} (hbad : Tab.get 0 s.fab.badReads n < 3) (hfault : s.lineFault n = none)
    (group master : Nat) : s.readLine group master n =
      (some { s.lineAt n with data := fitTo 64 (s.lineAt n).data }, s.lineFixed group master n) := by
  rw [State.readLine_of_readable hbad, (State.MscReport.ofFixed s group master n).lineFault, hfault]

/-- Reading a line changes nothing of the memory but the reads of it that are still to fail. -/
theorem State.readLine_fab (s : State) (group master n : Nat) :
    (s.readLine group master n).2.fab = { s.fab with badReads := (s.readLine group master n).2.fab.badReads } := by
  by_cases h : 3 ≤ Tab.get 0 s.fab.badReads n
  · rw [State.readLine_of_worn h, State.poisoned_fab]
  · have hfixed := (State.MscReport.ofFixed s group master n).fab
    rw [State.readLine_of_readable (Nat.not_le.1 h)]
    split
    · rw [State.poisoned_fab]
      exact hfixed
    · exact hfixed

/-! ## Lines written, and the write-combining buffer (R292) -/

theorem State.writeLine_lineAt (s : State) (n : Nat) (data : Bytes) (colour k m : Nat) :
    (s.writeLine n data colour k).lineAt m =
      if n = m then { data := data, colour := colour, keyId := k, alloc := Tab.get 0 s.fab.allocs k } else s.lineAt m :=
  Tab.get_put ..

/-- From `s` to `t` the buffer stays, and so does every line but `n`. -/
structure State.LineOnly (n : Nat) (s t : State) : Prop where
  wcb : t.fab.wcb = s.fab.wcb
  line : ∀ m, m ≠ n → t.lineAt m = s.lineAt m

section
variable {n : Nat}

theorem State.LineOnly.trans {s t u : State} (h : s.LineOnly n t) (g : t.LineOnly n u) : s.LineOnly n u :=
  ⟨g.wcb.trans h.wcb, fun m hm => (g.line m hm).trans (h.line m hm)⟩

theorem State.LineOnly.ofFab {s t : State} (h : t.fab = s.fab) : s.LineOnly n t :=
  ⟨by rw [h], fun m _ => by rw [State.lineAt, h, State.lineAt]⟩

theorem State.LineOnly.ofRead (s : State) (group master m : Nat) : s.LineOnly n (s.readLine group master m).2 :=
  have hfab := s.readLine_fab group master m
  ⟨by rw [hfab], fun k _ => by rw [State.lineAt, hfab, State.lineAt]⟩

theorem State.LineOnly.ofWrite (s : State) (data : Bytes) (colour k : Nat) : s.LineOnly n (s.writeLine n data colour k) :=
  ⟨rfl, fun m hm => (s.writeLine_lineAt n data colour k m).trans (if_neg hm.symm)⟩

theorem State.LineOnly.ofPoison (s : State) : s.LineOnly n (s.writePoison n) :=
  ⟨rfl, fun _ hm => Tab.get_del_other _ _ hm.symm⟩

end

theorem State.violate_fab (s : State) (g cause op addr master colour : Nat) : (s.violate g cause op addr master colour).fab = s.fab := by
  cases h : s.on R.GRD_VIOL_INFO_VALID g
  · rw [State.violate_first h]
    exact State.event_fab ..
  · rw [State.violate_again h, State.bumpSat]
    split <;> rfl

theorem State.debugLocked_fab (s : State) (addr : Nat) : (s.debugLocked addr).fab = s.fab := by
  unfold State.debugLocked
  split
  · rfl
  · exact (State.LogStep.ofRecord ..).fab

/-- An entry written out leaves the buffer, and reaches its own line alone. -/
theorem State.LineOnly.ofOut (s : State) (e : WcbEntry) : (s.wcbDrop e.line).LineOnly e.line (s.wcbOut e) := by
  have hread := State.LineOnly.ofRead (n := e.line) (s.wcbDrop e.line) e.group e.master e.line
  unfold State.wcbOut
  dsimp only
  split
  · exact .ofWrite _ _ _ _
  · split
    next u hu =>
      rw [hu] at hread
      exact (hread.trans (.ofPoison u)).trans (.ofFab (State.mscErr_fab ..))
    next l u hu =>
      rw [hu] at hread
      split
      · exact hread.trans (.ofFab ((State.debugLocked_fab ..).trans (State.violate_fab ..)))
      · split
        · exact hread.trans (.ofWrite _ _ _ _)
        · exact hread.trans (.ofFab (State.violate_fab ..))

/-- The state once a partial entry is merged into its line, which is in order. -/
theorem State.wcbOut_of_merge {s : State} {e : WcbEntry} {i : Nat} (hmask : e.mask ≠ 2 ^ 64 - 1)
    (hbad : Tab.get 0 s.fab.badReads e.line < 3) (hfault : s.lineFault e.line = none) (hany : e.anycol = true)
    (hset : e.setcol = false) (hdebug : s.debugBars e.group (s.lineAt e.line).colour = false) (hmap : s.mapOf (e.line * 64) = some i) :
    s.wcbOut e = ((s.wcbDrop e.line).lineFixed e.group e.master e.line).writeLine e.line
      (e.overlay (fitTo 64 (s.lineAt e.line).data)) (s.lineAt e.line).colour (s.get R.MSC_MAP_KEYID i) := by
  have hfixed := State.MscReport.ofFixed (s.wcbDrop e.line) e.group e.master e.line
  have hread := State.readLine_of_sound (s := s.wcbDrop e.line) hbad hfault e.group e.master
  have hmap' : (s.wcbDrop e.line).mapOf (e.line * 64) = some i := hmap
  have hdebug' : ((s.wcbDrop e.line).lineFixed e.group e.master e.line).debugBars e.group
      ((s.wcbDrop e.line).lineAt e.line).colour = false := by
    have hcfg : ¬mscErrKey (R.GRD_DBG_CFG_COLOUR.key 0) := by simp only [mscErrKey]; decide
    rw [State.debugBars, hfixed.get _ _ hcfg]
    exact hdebug
  rw [State.wcbOut]
  simp only [hmask, if_false, hread, hmap']
  rw [if_neg (Bool.eq_false_iff.1 hdebug'), if_pos (.inl hany), hset]
  rfl

/-! ## The walker keeps the memory map (R294)

The end of the entry stays while its lines are walked, whatever number of an entry MSC_WALK_STS names: a number past the map may point
into the Fieldbook, whose registers the record of a poisoned line writes, but none of those lies where a 64-bit register can. -/

/-- The key of a field of a 64-bit register of the map or beyond it: its offset is a multiple of 8. -/
def mapLike (k : Nat) : Prop := 0x0E0100 * 64 ≤ k ∧ k % 512 < 64

theorem mapLike_map (j : Nat) : mapLike (R.MSC_MAP_BASE.key j) ∧ mapLike (R.MSC_MAP_SIZE.key j) := by
  simp only [mapLike, Field.key, R.MSC_MAP_BASE, R.MSC_MAP_SIZE]
  omega

/-- From `s` to `t` the fields of such registers stay. -/
def State.KeepsMap (s t : State) : Prop := ∀ (f : Field) (i : Nat), mapLike (f.key i) → t.get f i = s.get f i

theorem State.KeepsMap.refl (s : State) : s.KeepsMap s := fun _ _ _ => rfl

theorem State.KeepsMap.trans {s t u : State} (h : s.KeepsMap t) (g : t.KeepsMap u) : s.KeepsMap u :=
  fun f i hf => (g f i hf).trans (h f i hf)

theorem State.KeepsMap.ofRegs {s t : State} (h : t.regs = s.regs) : s.KeepsMap t := fun f i _ => State.get_of_regs h f i

theorem State.KeepsMap.ofFold {α : Type} (step : State → α → State) (h : ∀ (t : State) (x : α), t.KeepsMap (step t x)) (l : List α)
    (s : State) : s.KeepsMap (l.foldl step s) :=
  List.foldlRecOn l step (motive := s.KeepsMap) (.refl s) (fun t ht x _ => ht.trans (h t x))

theorem State.KeepsMap.ofSet (s : State) {f : Field} (v : Nat) (hf : ¬mapLike (f.key 0)) : s.KeepsMap (s.set f 0 v) :=
  fun _ _ hg => State.get_set_other _ _ _ _ _ _ fun he => hf (he ▸ hg)

theorem State.KeepsMap.ofEvent (s : State) {f : Field} (en : Field) (vec mask : Nat) (hf : ¬mapLike (f.key 0)) :
    s.KeepsMap (s.event f en vec mask) :=
  fun _ _ hg => State.get_event_other _ _ _ _ _ _ _ fun he => hf (he ▸ hg)

/-- The registers of the Fieldbook that storing a record writes. -/
def fbStatusFields : List Field :=
  [R.FB_ERR_STS_DROP, R.FB_ERR_STS_FREEZE_BROKEN, R.FB_ERR_STS_EXPORT_DONE, R.FB_STS_FROZEN, R.FB_STS_KEEP, R.FB_STS_EXPORT]

theorem fbStatus_not_mapLike {f : Field} (hf : f ∈ fbStatusFields) : ¬mapLike (f.key 0) := by
  have hall : ∀ f ∈ fbStatusFields, 64 ≤ f.key 0 % 512 := by decide
  exact fun h => Nat.not_le.2 h.2 (hall f hf)

theorem State.WriteStep.keepsMap {s t : State} (h : s.WriteStep t) : s.KeepsMap t :=
  fun f i hf => h.get f i fun he => fbStatus_not_mapLike (f := R.FB_ERR_STS_DROP) (by decide) (he ▸ hf)

theorem State.KeepsMap.ofMake (s : State) (diag fatal : Bool) (code sev scope p0 p1 p2 p3 set : Nat) (vals : List Nat) :
    s.KeepsMap (s.fbMake diag fatal code sev scope p0 p1 p2 p3 set vals).2 := .ofRegs rfl

theorem State.KeepsMap.ofDiagnose (s : State) (fatal : Bool) (r : FbRec) : s.KeepsMap (s.diagnose fatal r) :=
  .ofFold _ (fun t k => (State.KeepsMap.ofMake t true fatal r.code r.sev r.scope r.p0 r.p1 r.p2 r.p3 (t.get R.FB_DIAG_TRIG_SET k)
    (t.selected (t.get R.FB_DIAG_TRIG_SET k))).trans (State.WriteStep.ofStoreDiag _ _).keepsMap) _ _

theorem State.KeepsMap.ofUnfreeze (s : State) : s.KeepsMap s.unfreeze :=
  have hfb : s.KeepsMap { s with fb := { s.fb with frozenAt := none, keep := false, endFreeze := false, clearOk := false } } := .ofRegs rfl
  (hfb.trans (.ofSet _ _ (fbStatus_not_mapLike (by decide)))).trans (.ofSet _ _ (fbStatus_not_mapLike (by decide)))

theorem State.KeepsMap.ofExportStop (s : State) : s.KeepsMap s.exportStop :=
  have hfb : s.KeepsMap { s with fb := { s.fb with exporting := false, exNow := 0 } } := .ofRegs rfl
  (hfb.trans (.ofSet _ _ (fbStatus_not_mapLike (by decide)))).trans (.ofEvent _ _ _ _ (fbStatus_not_mapLike (by decide)))

theorem State.KeepsMap.ofBreakExport (s : State) : s.KeepsMap s.breakExport.2 := by
  unfold State.breakExport
  split
  · have hmake := State.KeepsMap.ofMake s false false 0x0002 1 s.fb.exScope s.fb.exFrom s.fb.exLast
    exact ((hmake _ _ _ _).trans (.ofRegs (State.post_regs ..))).trans (.ofExportStop _)
  · exact .refl s

theorem State.KeepsMap.ofBreak (s : State) (r : FbRec) : s.KeepsMap (s.fbBreak r) := by
  have hpending : ∀ t : State, t.KeepsMap t.fbWritePending := fun t =>
    have hfb : t.KeepsMap { t with fb := { t.fb with pending := [] } } := .ofRegs rfl
    hfb.trans (State.WriteStep.ofWriteAll _ _).keepsMap
  have hwritten : s.KeepsMap (s.breakWritten r) := (((State.KeepsMap.ofBreakExport s).trans (.ofUnfreeze _)).trans
    (hpending _)).trans ((State.WriteStep.ofWrite _ r).trans (.ofWriteAll _ _)).keepsMap
  rw [State.fbBreak_eq]
  exact (((hwritten.trans (.ofMake _ _ _ _ _ _ _ _ _ _ _ _)).trans (State.WriteStep.ofWrite _ _).keepsMap).trans
    (.ofEvent _ _ _ _ (fbStatus_not_mapLike (by decide)))).trans (.ofFold _ (fun t x => .ofDiagnose t false x) _ _)

/-- Storing an audit record writes those registers alone, a break of a freeze with no room left included. -/
theorem State.KeepsMap.ofStore (s : State) (cmd : Bool) (r : FbRec) : s.KeepsMap (s.fbStore cmd r) := by
  by_cases hroom : s.fb.pending.length < 64
  · exact fun f i hf => (State.fbStore_of_room hroom cmd r).2 f i
      fun he => fbStatus_not_mapLike (f := R.FB_ERR_STS_DROP) (by decide) (he ▸ hf)
  · simp only [State.fbStore, hroom, if_false]
    split
    · exact (State.WriteStep.ofDrop s r).keepsMap
    · split
      · exact (State.WriteStep.ofWrite s r).keepsMap
      · split
        · exact .ofBreak s r
        · split
          · exact (State.WriteStep.ofBuffer s r).keepsMap
          · split
            · exact (State.WriteStep.ofWrite s r).keepsMap
            · split
              · exact (State.WriteStep.ofEventSlot s r).keepsMap
              · exact (State.WriteStep.ofDrop s r).keepsMap

theorem State.KeepsMap.ofRecord (s : State) (code sev scope p0 p1 p2 p3 : Nat) :
    s.KeepsMap (s.record code sev scope p0 p1 p2 p3) := by
  have hmake := State.KeepsMap.ofMake s false false code sev scope p0 p1 p2 p3 0 []
  exact (hmake.trans (.ofStore _ false (s.fbMake false false code sev scope p0 p1 p2 p3 0 []).1)).trans (.ofDiagnose _ false _)

theorem State.MscReport.keepsMap {s t : State} (h : s.MscReport t) : s.KeepsMap t :=
  fun f i hf => h.get f i fun hk => by
    simp only [mapLike, mscErrKey] at hf hk
    omega

theorem State.KeepsMap.ofPoisoned (s : State) {f : Field} (hf : f ∈ mscErrBits) (group master keyid line : Nat) :
    s.KeepsMap (s.poisoned f group master keyid line) := by
  have hcount : mscErrKey (R.MSC_CNT_POISON_COUNT.key 0) := by simp only [mscErrKey]; decide
  have herr : s.MscReport ((s.bump R.MSC_CNT_POISON_COUNT).mscErr f group master keyid line) :=
    (State.MscReport.ofSet s _ hcount).trans (.ofErr _ hf _ _ _ _)
  unfold State.poisoned
  dsimp only
  split
  · exact herr.keepsMap.trans (.ofRecord _ _ _ _ _ _ _ _)
  · exact herr.keepsMap

/-- What is wrong with a line is named by a bit of MSC_ERR_STS. -/
theorem State.lineFault_mem {s : State} {n : Nat} {f : Field} (h : s.lineFault n = some f) : f ∈ mscErrBits := by
  have hkeyid : R.MSC_ERR_STS_KEYID ∈ mscErrBits := by decide
  have htag : R.MSC_ERR_STS_TAG ∈ mscErrBits := by decide
  unfold State.lineFault at h
  dsimp only at h
  split at h
  · exact Option.some.inj h ▸ hkeyid
  · split at h
    · exact Option.some.inj h ▸ hkeyid
    · split at h
      · exact Option.some.inj h ▸ htag
      · exact absurd h (by simp)

theorem State.KeepsMap.ofRead (s : State) (group master n : Nat) : s.KeepsMap (s.readLine group master n).2 := by
  by_cases h : 3 ≤ Tab.get 0 s.fab.badReads n
  · rw [State.readLine_of_worn h]
    exact .ofPoisoned s (by decide) _ _ _ _
  · have hfixed := (State.MscReport.ofFixed s group master n).keepsMap
    rw [State.readLine_of_readable (Nat.not_le.1 h)]
    split
    next f hf => exact hfixed.trans (.ofPoisoned _ (State.lineFault_mem hf) _ _ _ _)
    next => exact hfixed

theorem State.KeepsMap.ofWalkLine (s : State) (j n : Nat) : s.KeepsMap (s.walkLine j n) := by
  have hread := State.KeepsMap.ofRead s 4 1 n
  unfold State.walkLine
  dsimp only
  split
  · exact .ofRegs rfl
  · split
    next u hu =>
      rw [hu] at hread
      exact hread.trans (.ofRegs rfl)
    next l u hu =>
      rw [hu] at hread
      split
      · exact hread
      · exact hread.trans (.ofRegs rfl)

theorem State.KeepsMap.walkTop {s t : State} (h : s.KeepsMap t) (j : Nat) : t.walkTop j = s.walkTop j := by
  rw [State.walkTop, h _ _ (mapLike_map j).1, h _ _ (mapLike_map j).2, State.walkTop]

/-! ## INIT over a run of lines (R294) -/

theorem State.walkLine_init {s : State} (h : s.on R.MSC_WALK_STS_INIT = true) (j n : Nat) :
    s.walkLine j n = (s.wcbDrop n).writeLine n (fill 64 0) 0 (s.get R.MSC_MAP_KEYID j) := if_pos h

/-- A line as INIT leaves it under a key ID. -/
def State.initLine (s : State) (k : Nat) : DramLine :=
  { data := fill 64 0, colour := 0, keyId := k, alloc := Tab.get 0 s.fab.allocs k }

/-- INIT over lines: none of them has an entry in the buffer any more, and each is zero under the entry's key ID. -/
theorem State.walkLines_init {s : State} (h : s.on R.MSC_WALK_STS_INIT = true) (j : Nat) (ns : List Nat) :
    (ns.foldl (fun t n => t.walkLine j n) s).fab.wcb = s.fab.wcb.filter (fun e => !ns.contains e.line) ∧
    ∀ m, (ns.foldl (fun t n => t.walkLine j n) s).lineAt m = if m ∈ ns then s.initLine (s.get R.MSC_MAP_KEYID j) else s.lineAt m := by
  induction ns generalizing s with
  | nil => exact ⟨(List.filter_eq_self.2 fun _ _ => rfl).symm, fun _ => rfl⟩
  | cons n ns ih =>
    have hstep := State.walkLine_init h j n
    obtain ⟨hwcb, hline⟩ := ih (s := s.walkLine j n) (by rw [hstep]; exact h)
    have hkey : (s.walkLine j n).initLine ((s.walkLine j n).get R.MSC_MAP_KEYID j) = s.initLine (s.get R.MSC_MAP_KEYID j) := by
      rw [hstep]; rfl
    refine ⟨hwcb.trans ?_, fun m => (hline m).trans ?_⟩
    · rw [hstep]
      refine (List.filter_filter ..).trans (List.filter_congr fun e _ => ?_)
      rw [List.contains_cons, Bool.not_or, Bool.and_comm, bne]
    · rw [hkey, hstep, State.writeLine_lineAt]
      by_cases hm : m ∈ ns
      · simp [hm]
      · by_cases hn : n = m
        · simp [hn, State.initLine, State.wcbDrop]
        · simp [hm, hn, Ne.symm hn]
          rfl

/-! ## The end of a walk -/

/-- The lines that the walker still has before it in its entry. -/
def State.walkRest (s : State) : List Nat :=
  (List.range (s.walkTop (s.get R.MSC_WALK_STS_ENTRY) - s.get R.MSC_WALK_STS_POS)).map (· + s.get R.MSC_WALK_STS_POS)

theorem State.mem_walkRest (s : State) (n : Nat) :
    n ∈ s.walkRest ↔ s.get R.MSC_WALK_STS_POS ≤ n ∧ n < s.walkTop (s.get R.MSC_WALK_STS_ENTRY) := by
  simp only [State.walkRest, List.mem_map, List.mem_range]
  constructor
  · rintro ⟨k, hk, rfl⟩
    omega
  · rintro ⟨hlo, hhi⟩
    exact ⟨n - s.get R.MSC_WALK_STS_POS, by omega, by omega⟩

/-- The walker passes its last line within the frame. -/
def State.walksOut (s : State) : Prop :=
  s.on R.MSC_WALK_STS_ACTIVE = true ∧
    s.walkTop (s.get R.MSC_WALK_STS_ENTRY) ≤ s.get R.MSC_WALK_STS_POS + min 4096 s.fab.walkRate

theorem State.walkEnd_of_early {s : State} (h : ¬s.walksOut) : s.walkEnd = s := if_neg h

/-- The state once the lines left are walked. -/
def State.walkedOut (s : State) : State := s.walkRest.foldl (fun t n => t.walkLine (s.get R.MSC_WALK_STS_ENTRY) n) s

/-- The walker at its end walks what is left, stops and reports. -/
theorem State.walkEnd_of_out {s : State} (h : s.walksOut) : ∃ pos, s.walkEnd =
    ((s.walkedOut.set R.MSC_WALK_STS_ACTIVE 0 0).set R.MSC_WALK_STS_POS 0 pos).mscErr R.MSC_ERR_STS_WALK_DONE 4 1 0 0 := by
  obtain ⟨hactive, hend⟩ := h
  have hcount : min (min 4096 s.fab.walkRate) (s.walkTop (s.get R.MSC_WALK_STS_ENTRY) - s.get R.MSC_WALK_STS_POS) =
      s.walkTop (s.get R.MSC_WALK_STS_ENTRY) - s.get R.MSC_WALK_STS_POS := by omega
  have htop : s.walkedOut.walkTop (s.get R.MSC_WALK_STS_ENTRY) = s.walkTop (s.get R.MSC_WALK_STS_ENTRY) :=
    (State.KeepsMap.ofFold _ (fun t n => .ofWalkLine t _ n) _ s).walkTop _
  refine ⟨s.get R.MSC_WALK_STS_POS + (s.walkTop (s.get R.MSC_WALK_STS_ENTRY) - s.get R.MSC_WALK_STS_POS),
    (if_pos ⟨hactive, hend⟩).trans ?_⟩
  rw [State.walkFrame, if_neg (by simp [hactive])]
  simp only [hcount]
  exact if_pos (htop.trans_le (by omega))

/-- What the end of a walk shows, and what INIT has done by then. -/
theorem exec_walkDone {s : State} (h : s.walksOut) : Gives (exec .walkDone s) (fun t =>
    t.get R.MSC_WALK_STS_ACTIVE = 0 ∧ t.get R.MSC_ERR_STS_WALK_DONE = 1 ∧ t.fab = s.walkedOut.fab) := by
  obtain ⟨pos, hwalk⟩ := State.walkEnd_of_out h
  refine ⟨_, congrArg ok hwalk, ?_, ?_, ?_⟩
  · rw [State.get_wires _ _ _ (by decide), (State.MscReport.ofErr _ (by decide) _ _ _ _).get _ _ (by simp only [mscErrKey]; decide),
      State.get_set_other _ _ _ _ _ _ (by decide), State.get_set_self _ _ _ _ (by decide)]
    rfl
  · rw [State.get_wires _ _ _ (by decide), State.mscErr_get_self _ rfl]
  · rw [State.wires_fab, State.mscErr_fab, State.set_fab, State.set_fab]

/-! ## Entries of the buffer that age out (R292) -/

theorem State.ageOut_of_old {s : State} {n : Nat} {e : WcbEntry} (he : s.fab.wcb.find? (fun e => e.line == n) = some e)
    (h : e.frame + 16 ≤ s.frameNo) : s.ageOut n = s.wcbOut e := by
  rw [State.ageOut, he]
  exact if_pos h

theorem State.ageOut_of_young {s : State} {n : Nat} {e : WcbEntry} (he : s.fab.wcb.find? (fun e => e.line == n) = some e)
    (h : s.frameNo < e.frame + 16) : s.ageOut n = s := by
  rw [State.ageOut, he]
  exact if_neg (Nat.not_le.2 h)

theorem State.ageOut_of_absent {s : State} {n : Nat} (h : s.fab.wcb.any (fun e => e.line == n) = false) : s.ageOut n = s := by
  have hnone : s.fab.wcb.find? (fun e => e.line == n) = none :=
    List.find?_eq_none.2 (List.any_eq_false.1 h)
  rw [State.ageOut, hnone]

theorem State.wires_lineAt (s : State) (n : Nat) : s.wires.lineAt n = s.lineAt n := by
  rw [State.lineAt, State.wires_fab, State.lineAt]

/-- Settles O42: MSC_CMD idle, busy and gated, the walker at its end, and the entries of the buffer, old, young and absent. -/
theorem memorySecurityCommands : Obligations.MemorySecurityCommands := by
  unfold Obligations.MemorySecurityCommands
  intro s entry keyid line rows j pos top k walks
  refine ⟨fun hw => ⟨fun hidle r hr => ?idle, fun hbusy r hr => ?busy⟩, fun hw hp hg r hr => ?gated, fun hwalk => ?walk,
    fun hearly => congrArg ok (State.walkEnd_of_early hearly), fun e he => ⟨fun hold => ?old, fun hyoung => ?young⟩, fun hnone => ?absent⟩
  case idle =>
    rw [exec_mscRow hr, State.ifCoreWritable_of_writable hw, State.mscCommand_of_idle hidle (mscRows_op hr)]
    rfl
  case busy =>
    rw [exec_mscRow hr, State.ifCoreWritable_of_writable hw, State.mscCommand_of_busy hbusy]
    rfl
  case gated =>
    rw [exec_mscRow hr, State.ifCoreWritable_of_gated hw hp hg]
    rfl
  case walk =>
    obtain ⟨t, ht, hactive, hdone, hfab⟩ := exec_walkDone (s := s) hwalk
    refine ⟨t, ht, hactive, hdone, fun hinit => ?_⟩
    obtain ⟨hwcb, hline⟩ := State.walkLines_init hinit j s.walkRest
    refine ⟨?_, fun n => ?_⟩
    · rw [hfab]
      refine hwcb.trans (List.filter_congr fun e _ => congrArg (!·) ?_)
      rw [← Bool.decide_and, List.contains_eq_mem]
      exact decide_eq_decide.2 (s.mem_walkRest e.line)
    · rw [State.lineAt, hfab]
      exact (hline n).trans (if_congr (s.mem_walkRest n) rfl rfl)
  case old =>
    have hline : e.line = line := by simpa using List.find?_some he
    subst hline
    have hout := State.LineOnly.ofOut s e
    refine ⟨_, congrArg ok (State.ageOut_of_old he hold), ?_, fun n hn => ?_, fun i hmask hbad hfault hany hset hdebug hmap => ?_⟩
    · rw [State.wires_fab]
      exact hout.wcb
    · rw [State.wires_lineAt]
      exact hout.line n hn
    · have hfixed := State.MscReport.ofFixed (s.wcbDrop e.line) e.group e.master e.line
      rw [State.wires_lineAt, State.wcbOut_of_merge hmask hbad hfault hany hset hdebug hmap, State.writeLine_lineAt, if_pos rfl,
        hfixed.allocs]
      rfl
  case young => exact congrArg ok (State.ageOut_of_young he hyoung)
  case absent => exact congrArg ok (State.ageOut_of_absent hnone)

end Sys2Proof.Machine

namespace Sys2Proof.Machine

/-! ## Checks in the order of their codes (assumption 20) -/

/-- Of checks in the order of their codes the first that fails answers. -/
theorem firstErr_cons {code : Nat} {checks : List (Bool × Nat)} (h : ∀ c ∈ checks, code ≤ c.2) (failed : Bool) :
    firstErr ((failed, code) :: checks) = if failed then code else firstErr checks := by
  cases failed with
  | false => exact firstErr_passed code checks
  | true => exact firstErr_failed h

/-! ## FB_CMD (R311 to R313, R315) -/

section
variable {s : State} (hw : s.writable 0x0F0008 = true)
include hw

theorem exec_fbExport (keep diag : Bool) (scope : Nat) : exec (.fbExport keep diag scope) s = ok (s.fbCommand 1 keep diag scope) :=
  congrArg ok (State.ifWritable_true hw _)

theorem exec_fbThaw : exec .fbThaw s = ok (s.fbCommand 2 false false 0) := congrArg ok (State.ifWritable_true hw _)

theorem exec_fbClear : exec .fbClear s = ok (s.fbCommand 3 false false 0) := congrArg ok (State.ifWritable_true hw _)

theorem exec_diagFlush : exec .diagFlush s = ok (s.fbCommand 4 false false 0) := congrArg ok (State.ifWritable_true hw _)

end

theorem State.fbCommand_of_busy {s : State} (h : s.on R.FB_CMD_STS_BUSY = true) (op : Nat) (keep diag : Bool) (scope : Nat) :
    s.fbCommand op keep diag scope = s := if_pos h

/-- An FB_CMD that passes its checks waits for its boundary. -/
def State.fbAccepted (s : State) (op : Nat) (keep diag : Bool) (scope : Nat) : State :=
  (({ s with fb := { s.fb with cmd := some (op, keep, diag, scope) } }).set R.FB_CMD_STS_BUSY 0 1).set R.FB_CMD_STS_ERR 0 0

/-- What an FB_CMD with the code `e` makes of the state. -/
def State.fbAnswer (s : State) (e op : Nat) (keep diag : Bool) (scope : Nat) : State :=
  if e = 2 then (s.fbReply 2).writeDropped 0x0F0008 else if e ≠ 0 then s.fbReply e else s.fbAccepted op keep diag scope

section
variable {s : State} (hidle : s.on R.FB_CMD_STS_BUSY = false)
include hidle

theorem State.fbCommand_idle (op : Nat) (keep diag : Bool) (scope : Nat) :
    s.fbCommand op keep diag scope = s.fbAnswer (s.fbErrOf op diag scope) op keep diag scope :=
  if_neg (by rw [hidle]; decide)

/-- EXPORT answers by its session, a freeze or an EXPORT that stands, and its scope (R311). -/
theorem State.fbExport_eq (keep diag : Bool) (scope : Nat) :
    s.fbCommand 1 keep diag scope =
      s.fbAnswer (if !s.fbCovered 1 diag scope then 2 else if s.fb.frozenAt.isSome || s.fb.exporting then 3
        else if devSession < scope then 6 else 0) 1 keep diag scope := by
  rw [State.fbCommand_idle hidle, State.fbErrOf]
  simp (disch := simp) [firstErr_cons, firstErr_nil]

theorem State.fbThaw_eq : s.fbCommand 2 false false 0 = s.fbAccepted 2 false false 0 := by
  rw [State.fbCommand_idle hidle, State.fbErrOf]
  simp (disch := simp) [firstErr_cons, firstErr_nil, State.fbCovered, State.fbAnswer]

/-- CLEAR answers by its sessions and by the EXPORT it needs (R313). -/
theorem State.fbClear_eq :
    s.fbCommand 3 false false 0 =
      s.fbAnswer (if !s.fbCovered 3 false 0 then 2 else if !s.fbClearable then 4 else 0) 3 false false 0 := by
  rw [State.fbCommand_idle hidle, State.fbErrOf]
  simp (disch := simp) [firstErr_cons, firstErr_nil]

/-- FLUSH answers by a freeze or an EXPORT that stands (R305). -/
theorem State.diagFlush_eq :
    s.fbCommand 4 false false 0 = s.fbAnswer (if s.fb.frozenAt.isSome || s.fb.exporting then 3 else 0) 4 false false 0 := by
  rw [State.fbCommand_idle hidle, State.fbErrOf]
  simp (disch := simp) [firstErr_cons, firstErr_nil, State.fbCovered]

end

theorem State.fb_busy_iff (s : State) :
    (s.fb.frozenAt.isSome || s.fb.exporting) = false ↔ s.fb.frozenAt = none ∧ s.fb.exporting = false := by
  rw [Bool.or_eq_false_iff, Option.isSome_eq_false_iff, Option.isNone_iff_eq_none]

theorem State.fbCovered_export_iff (s : State) (diag : Bool) (scope : Nat) :
    s.fbCovered 1 diag scope = true ↔ s.holds devSession roleAud = true ∨ s.holds scope roleAud = true ∨
      (diag = true ∧ bit (s.get R.LC_DBG_STS_OPEN) 2 = true) := by
  simp [State.fbCovered, or_assoc]

theorem State.fbCovered_clear_iff (s : State) :
    s.fbCovered 3 false 0 = true ↔ s.holds devSession roleSO = true ∧ s.holds devSession roleAud = true := by
  simp [State.fbCovered]

theorem State.not_fbClearable {s : State}
    (h : s.fb.frozenAt = none ∨ s.fb.keep = false ∨ s.fb.clearOk = false ∨ s.fb.exporting = true) : s.fbClearable = false := by
  rcases h with h | h | h | h <;> simp [State.fbClearable, h]

/-- Settles O43: FB_CMD busy, then THAW, FLUSH, EXPORT and CLEAR by what covers and what stops them. -/
theorem fieldbookCommands : Obligations.FieldbookCommands := by
  unfold Obligations.FieldbookCommands
  intro s keep diag scope hw waits fails audits clears still
  have hcov : audits ↔ s.fbCovered 1 diag scope = true := (s.fbCovered_export_iff diag scope).symm
  have hclear : clears ↔ s.fbCovered 3 false 0 = true := s.fbCovered_clear_iff.symm
  have hstill : still ↔ (s.fb.frozenAt.isSome || s.fb.exporting) = false := s.fb_busy_iff.symm
  simp only [hcov, hclear, hstill, Bool.not_eq_true, Bool.not_eq_false]
  refine ⟨fun hbusy c hc => ?busy, fun hidle => ⟨?thaw, fun hs => ?flush, fun hs => ?flushStands, fun ha hs hscope => ?exports,
    fun ha hs => ?exportStands, fun ha hs hscope => ?exportScope, fun ha => ?exportUncovered, fun hc hf hk ho he => ?clear,
    fun hc hn => ?clearUnmet, fun hc => ?clearUncovered⟩⟩
  case busy =>
    simp only [List.mem_cons, List.not_mem_nil, or_false] at hc
    rcases hc with rfl | rfl | rfl | rfl
    · rw [exec_fbExport hw, State.fbCommand_of_busy hbusy]; rfl
    · rw [exec_fbThaw hw, State.fbCommand_of_busy hbusy]; rfl
    · rw [exec_fbClear hw, State.fbCommand_of_busy hbusy]; rfl
    · rw [exec_diagFlush hw, State.fbCommand_of_busy hbusy]; rfl
  case thaw => rw [exec_fbThaw hw, State.fbThaw_eq hidle]; rfl
  case flush => rw [exec_diagFlush hw, State.diagFlush_eq hidle, hs]; rfl
  case flushStands => rw [exec_diagFlush hw, State.diagFlush_eq hidle, hs]; rfl
  case exports => rw [exec_fbExport hw, State.fbExport_eq hidle, ha, hs, if_neg (Nat.not_lt.2 hscope : ¬devSession < scope)]; rfl
  case exportStands => rw [exec_fbExport hw, State.fbExport_eq hidle, ha, hs]; rfl
  case exportScope => rw [exec_fbExport hw, State.fbExport_eq hidle, ha, hs, if_pos (show devSession < scope from hscope)]; rfl
  case exportUncovered => rw [exec_fbExport hw, State.fbExport_eq hidle, ha]; rfl
  case clear =>
    have hcan : s.fbClearable = true := by simp [State.fbClearable, hf, hk, ho, he]
    rw [exec_fbClear hw, State.fbClear_eq hidle, hc, hcan]; rfl
  case clearUnmet => rw [exec_fbClear hw, State.fbClear_eq hidle, hc, State.not_fbClearable hn]; rfl
  case clearUncovered => rw [exec_fbClear hw, State.fbClear_eq hidle, hc]; rfl

end Sys2Proof.Machine

namespace Sys2Proof.Machine

/-! ## UPD_CMD (R324, R325, R328) -/

section
variable {s : State} (hw : s.writable 0x100004 = true)
include hw

theorem exec_updStart (head : Option Bytes) : exec (.updStart head) s = ok (s.updCommand 1 0 head) :=
  congrArg ok (State.ifWritable_true hw _)

theorem exec_updSector (number : Nat) (data : Option Bytes) : exec (.updSector number data) s = ok (s.updCommand 2 number data) :=
  congrArg ok (State.ifWritable_true hw _)

theorem exec_updActivate : exec .updActivate s = ok (s.updCommand 3 0 none) := congrArg ok (State.ifWritable_true hw _)

theorem exec_updAbort : exec .updAbort s = ok (s.updCommand 4 0 none) := congrArg ok (State.ifWritable_true hw _)

theorem exec_updConfirm : exec .updConfirm s = ok (s.updCommand 5 0 none) := congrArg ok (State.ifWritable_true hw _)

end

theorem State.updCommand_of_busy {s : State} (h : s.on R.UPD_CMD_STS_BUSY = true) (op number : Nat) (data : Option Bytes) :
    s.updCommand op number data = s := if_pos h

/-- An UPD_CMD that passes its checks waits for its boundary; ACTIVATE also asks for the warm reset, and is recorded. -/
def State.updAccepted (s : State) (op : Nat) (data : Option Bytes) : State :=
  let t := (({ s with upd := { s.upd with cmd := some (op, data) } }).set R.UPD_CMD_STS_BUSY 0 1).set R.UPD_CMD_STS_ERR 0 0
  if op = 3 then (t.updRecord 5 t.upd.head 0).askReset true 0xC false else t

/-- What an UPD_CMD with the code `e` makes of the state. -/
def State.updAnswer (s : State) (e op : Nat) (data : Option Bytes) : State :=
  if e ≠ 0 then s.updReject op e (data.getD []) else s.updAccepted op data

section
variable {s : State} (hidle : s.on R.UPD_CMD_STS_BUSY = false)
include hidle

theorem State.updCommand_idle (op number : Nat) (data : Option Bytes) :
    s.updCommand op number data = s.updAnswer (s.updCheck op number) op data := if_neg (by rw [hidle]; decide)

/-- START answers by its session, the state of the update, and a transition of the lifecycle under way. -/
theorem State.updStart_eq (head : Option Bytes) :
    s.updCommand 1 0 head =
      s.updAnswer (if s.get R.UPD_STS_STATE ≠ 6 ∧ s.holds devSession roleOper = false then 2
        else if (s.get R.UPD_STS_STATE ≠ 0 ∧ s.get R.UPD_STS_STATE ≠ 6) ∨ s.upd.cand.isSome = true then 3
        else if s.on R.LC_STS_BUSY = true then 0xE else 0) 1 head := by
  rw [State.updCommand_idle hidle, State.updCheck]
  simp (disch := simp) [firstErr_cons, firstErr_nil, State.updState]

/-- SECTOR answers by the state of the update and the number that is expected. -/
theorem State.updSector_eq (number : Nat) (data : Option Bytes) :
    s.updCommand 2 number data =
      s.updAnswer (if s.get R.UPD_STS_STATE ≠ 3 ∧ (s.get R.UPD_STS_STATE ≠ 6 ∨ s.get R.UPD_PROGRESS_NEXT = 0) then 3
        else if number ≠ s.get R.UPD_PROGRESS_NEXT then 9 else 0) 2 data := by
  rw [State.updCommand_idle hidle, State.updCheck]
  simp (disch := simp) [firstErr_cons, firstErr_nil, State.updState]

/-- START with nothing under check, in RECOVERY or under the Operator in IDLE. -/
theorem State.updStart_of_idle (hcand : s.upd.cand = none)
    (hst : s.get R.UPD_STS_STATE = 6 ∨ (s.get R.UPD_STS_STATE = 0 ∧ s.holds devSession roleOper = true)) (head : Option Bytes) :
    s.updCommand 1 0 head = s.updAnswer (if s.on R.LC_STS_BUSY = true then 0xE else 0) 1 head := by
  rw [State.updStart_eq hidle, hcand]
  rcases hst with hst | ⟨hst, hses⟩
  · simp [hst]
  · simp [hst, hses]

/-- SECTOR in WRITE, and in RECOVERY with an image under way. -/
theorem State.updSector_of_writing
    (hst : s.get R.UPD_STS_STATE = 3 ∨ (s.get R.UPD_STS_STATE = 6 ∧ s.get R.UPD_PROGRESS_NEXT ≠ 0)) (number : Nat) (data : Option Bytes) :
    s.updCommand 2 number data = s.updAnswer (if number ≠ s.get R.UPD_PROGRESS_NEXT then 9 else 0) 2 data := by
  have hin : ¬(s.get R.UPD_STS_STATE ≠ 3 ∧ (s.get R.UPD_STS_STATE ≠ 6 ∨ s.get R.UPD_PROGRESS_NEXT = 0)) :=
    fun ⟨h3, h6⟩ => hst.elim h3 fun h => h6.elim (· h.1) h.2
  rw [State.updSector_eq hidle, if_neg hin]

theorem State.updActivate_eq : s.updCommand 3 0 none = s.updAnswer (if s.get R.UPD_STS_STATE ≠ 5 then 3 else 0) 3 none := by
  rw [State.updCommand_idle hidle, State.updCheck]
  simp (disch := simp) [firstErr_cons, firstErr_nil, State.updState]

theorem State.updAbort_eq :
    s.updCommand 4 0 none =
      s.updAnswer (if s.get R.UPD_STS_STATE ≠ 1 ∧ s.get R.UPD_STS_STATE ≠ 2 then 3 else 0) 4 none := by
  rw [State.updCommand_idle hidle, State.updCheck]
  simp (disch := simp) [firstErr_cons, firstErr_nil, State.updState]

/-- CONFIRM answers by its session, the image, the lifecycle and the counter tree. -/
theorem State.updConfirm_eq :
    s.updCommand 5 0 none =
      s.updAnswer (if s.holds devSession roleSO = false then 2 else if s.on R.UPD_STS_UNCONFIRMED = false then 3
        else if s.get R.LC_STATE_CODE ≠ 2 ∧ s.get R.LC_STATE_CODE ≠ 3 then 6 else if s.ks.ctRo = true then 0xD else 0) 5 none := by
  rw [State.updCommand_idle hidle, State.updCheck]
  simp (disch := simp) [firstErr_cons, firstErr_nil]

end

/-- Every UPD_CMD is dropped while one is being served. -/
theorem exec_updateCommand_of_busy {s : State} (hw : s.writable 0x100004 = true) (hbusy : s.on R.UPD_CMD_STS_BUSY = true)
    {number : Nat} {data : Option Bytes} {c : Instr}
    (hc : c ∈ [Instr.updStart data, .updSector number data, .updActivate, .updAbort, .updConfirm]) : exec c s = ok s := by
  simp only [List.mem_cons, List.not_mem_nil, or_false] at hc
  rcases hc with rfl | rfl | rfl | rfl | rfl
  · rw [exec_updStart hw, State.updCommand_of_busy hbusy]
  · rw [exec_updSector hw, State.updCommand_of_busy hbusy]
  · rw [exec_updActivate hw, State.updCommand_of_busy hbusy]
  · rw [exec_updAbort hw, State.updCommand_of_busy hbusy]
  · rw [exec_updConfirm hw, State.updCommand_of_busy hbusy]

/-- Settles O45: UPD_CMD busy, then START, SECTOR, ACTIVATE, ABORT and CONFIRM by what covers and what stops them. -/
theorem updateCommands : Obligations.UpdateCommands := by
  unfold Obligations.UpdateCommands
  intro s number data hw st waits fails
  refine ⟨fun hbusy c hc => exec_updateCommand_of_busy hw hbusy hc, fun hidle => ⟨fun hcand hst => ⟨fun hlc => ?start, fun hlc => ?startLc⟩,
    fun hst hses => ?startUncovered, fun hses hout => ?startOut, fun hst => ⟨fun hn => ?sector, fun hn => ?sectorOther⟩,
    fun h3 h6 => ?sectorOut, fun h5 => ?activate, fun h5 => ?activateOut, fun hst => ?abort, fun h1 h2 => ?abortOut,
    fun hses => ⟨fun hun hlc hct => ?confirm, fun hun => ?confirmed⟩, fun hses => ?confirmUncovered⟩⟩
  case start => rw [exec_updStart hw, State.updStart_of_idle hidle hcand hst, hlc]; rfl
  case startLc => rw [exec_updStart hw, State.updStart_of_idle hidle hcand hst, hlc]; rfl
  case startUncovered => rw [exec_updStart hw, State.updStart_eq hidle, if_pos ⟨hst, hses⟩]; rfl
  case startOut =>
    rw [exec_updStart hw, State.updStart_eq hidle, if_neg fun h => hses.elim h.1 (Bool.eq_false_iff.1 h.2), if_pos hout]
    rfl
  case sector => rw [exec_updSector hw, State.updSector_of_writing hidle hst, if_neg (not_not_intro hn)]; rfl
  case sectorOther => rw [exec_updSector hw, State.updSector_of_writing hidle hst, if_pos hn]; rfl
  case sectorOut => rw [exec_updSector hw, State.updSector_eq hidle, if_pos ⟨h3, .inl h6⟩]; rfl
  case activate => rw [exec_updActivate hw, State.updActivate_eq hidle, if_neg (not_not_intro h5)]; rfl
  case activateOut => rw [exec_updActivate hw, State.updActivate_eq hidle, if_pos h5]; rfl
  case abort =>
    rw [exec_updAbort hw, State.updAbort_eq hidle, if_neg fun h => hst.elim h.1 h.2]
    rfl
  case abortOut => rw [exec_updAbort hw, State.updAbort_eq hidle, if_pos ⟨h1, h2⟩]; rfl
  case confirm =>
    have hstate : ¬(s.get R.LC_STATE_CODE ≠ 2 ∧ s.get R.LC_STATE_CODE ≠ 3) := fun h => hlc.elim h.1 h.2
    rw [exec_updConfirm hw, State.updConfirm_eq hidle, hses, hun, hct, if_neg hstate]
    rfl
  case confirmed => rw [exec_updConfirm hw, State.updConfirm_eq hidle, hses, hun]; rfl
  case confirmUncovered => rw [exec_updConfirm hw, State.updConfirm_eq hidle, hses]; rfl

end Sys2Proof.Machine

namespace Sys2Proof.Machine

/-! ## The journal and the flash (R324, R326) -/

/-- A copy of the journal that is written is the one in force (R326). -/
theorem State.putJournal_journal (s : State) (st next : Nat) (head : Bytes) :
    (s.putJournal st next head).upd.journal =
      some { state := st, next := next, imageId := headId head, digest := hashOf 0x03 48 (headSigned head)
             seq := max (seqOf s.upd.jA) (seqOf s.upd.jB) + 1 } := by
  by_cases h : seqOf s.upd.jA ≤ seqOf s.upd.jB
  · rw [State.putJournal, if_pos h]
    exact if_pos (show seqOf s.upd.jB ≤ max (seqOf s.upd.jA) (seqOf s.upd.jB) + 1 by omega)
  · rw [State.putJournal, if_neg h]
    exact if_neg (show ¬max (seqOf s.upd.jA) (seqOf s.upd.jB) + 1 ≤ seqOf s.upd.jA by omega)

theorem State.putJournal_rest (s : State) (st next : Nat) (head : Bytes) :
    s.putJournal st next head =
      { s with upd := { s.upd with jA := (s.putJournal st next head).upd.jA, jB := (s.putJournal st next head).upd.jB } } := by
  unfold State.putJournal
  dsimp only
  split <;> rfl

/-- The writing begins: sector 1 is expected, the journal says WRITING of this image, and sector 0 is erased (R324). -/
def State.WritingBegan (t : State) (head : Bytes) : Prop :=
  t.get R.UPD_PROGRESS_NEXT = 1 ∧ t.upd.journal.map (fun j => (j.state, j.next, j.imageId)) = some (2, 1, headId head) ∧
    t.flashAt 0 = []

theorem State.enterWrite_upd (s : State) : s.enterWrite.upd = ((s.program 0 []).putJournal 2 1 s.upd.head).upd :=
  (State.LogStep.ofRecord _ _ _ _ _ _ _ _).upd

theorem State.enterWrite_get (s : State) {f : Field} (hf : f.key 0 / 64 / 0x10000 ≠ 0xF) :
    s.enterWrite.get f =
      ((s.set R.UPD_PROGRESS_NEXT 0 1).set R.UPD_PROGRESS_SECTORS 0 (headSectors s.upd.head)).get f := by
  refine ((State.LogStep.ofRecord _ _ _ _ _ _ _ _).get f 0 hf).trans (State.get_of_regs ?_ f 0)
  show (State.set (State.set _ _ _ _) _ _ _).regs = _
  rw [State.putJournal_rest]
  rfl

theorem State.enterWrite_state (s : State) : s.enterWrite.get R.UPD_STS_STATE = s.get R.UPD_STS_STATE := by
  rw [s.enterWrite_get (by decide), State.get_set_other _ _ _ _ _ _ (by decide), State.get_set_other _ _ _ _ _ _ (by decide)]

theorem State.enterWrite_rest (s : State) :
    s.enterWrite.upd = { s.upd with
      flash := Tab.put [] s.upd.flash 0 [], jA := s.enterWrite.upd.jA, jB := s.enterWrite.upd.jB } := by
  rw [State.enterWrite_upd, State.putJournal_rest]
  rfl

theorem State.enterWrite_began (s : State) : s.enterWrite.wires.WritingBegan s.upd.head := by
  refine ⟨?_, ?_, ?_⟩
  · rw [State.get_wires _ _ _ (by decide), s.enterWrite_get (by decide), State.get_set_other _ _ _ _ _ _ (by decide)]
    exact State.get_set_self _ _ _ _ (by decide)
  · rw [State.wires_upd, State.enterWrite_upd, State.putJournal_journal]
    rfl
  · rw [State.flashAt, State.wires_upd, State.enterWrite_rest]
    exact Tab.get_put_self [] s.upd.flash 0 []

/-! ## The check of a head sector (R319, R324, R325) -/

theorem State.ksFault_updState (s : State) {f : Field} (slice leaf : Nat) (hf : f.key 0 ≠ R.UPD_STS_STATE.key 0) :
    (s.ksFault f slice leaf).get R.UPD_STS_STATE = s.get R.UPD_STS_STATE := by
  refine ((State.LogStep.ofRecord _ _ _ _ _ _ _ _).get _ 0 (by decide)).trans ((State.get_event_other _ _ _ _ _ _ _ hf).trans ?_)
  split
  · rw [State.get_set_other _ _ _ _ _ _ (by decide), State.get_set_other _ _ _ _ _ _ (by decide),
      State.get_set_other _ _ _ _ _ _ (by decide)]
  · rfl

/-- The read of the floor leaf leaves the state of the update (R207, R320). -/
theorem State.readFloor_updState (s : State) : s.readFloor.get R.UPD_STS_STATE = s.get R.UPD_STS_STATE := by
  unfold State.readFloor State.resolveFloor
  split
  · split
    · exact s.ksFault_updState _ _ (by decide)
    · split
      · rfl
      · exact State.ksFault_updState _ _ _ (by decide)
  · rfl

/-- A head sector that passed in RECOVERY stands in the recovery record, and is the image under way (R325). -/
def State.headTaken (s : State) (h : Bytes) : State :=
  let u := { s with upd := { s.upd with head := h, recorded := false } }
  let v := u.program u.recoveryAt h
  { v with upd := { v.upd with cand := none, recorded := true } }

theorem State.verifyDone_of_idle {s : State}
    (h : s.upd.cand = none ∨ s.updHalted = true ∨ (s.get R.UPD_STS_STATE ≠ 1 ∧ s.get R.UPD_STS_STATE ≠ 6)) : s.verifyDone = s := by
  unfold State.verifyDone
  split
  · rfl
  next c hc =>
    rcases h with h | h | ⟨h1, h6⟩
    · rw [h] at hc; exact absurd hc (by simp)
    · exact if_pos h
    · have hst : ¬((s.updState = 1 ∨ s.updState = 6) ∧ s.upd.passed = none ∧ s.upd.sector = none) := fun h => h.1.elim h1 h6
      by_cases hh : s.updHalted = true
      · exact if_pos hh
      · exact (if_neg hh).trans (if_neg hst)

/-- The answer of a check: the code of the first failure, or what the state of the update makes of a head that passed. -/
theorem State.verifyDone_eq {s : State} {c : Bytes} (hc : s.upd.cand = some c) (hp : s.upd.passed = none) (hs : s.upd.sector = none)
    (hh : s.updHalted = false) (hst : s.get R.UPD_STS_STATE = 1 ∨ s.get R.UPD_STS_STATE = 6) :
    s.verifyDone =
      if s.readFloor.imageErr (fitTo 65536 c) ≠ 0 then
        s.readFloor.startFails (s.readFloor.imageErr (fitTo 65536 c)) (fitTo 65536 c)
      else if s.get R.UPD_STS_STATE = 6 then
        (if s.glb.pwrFail then s else (s.readFloor.headTaken (fitTo 65536 c)).enterWrite)
      else { s.readFloor with upd := { s.readFloor.upd with head := fitTo 65536 c, recorded := false, passed := some s.frameNo } } := by
  have hcond : (s.updState = 1 ∨ s.updState = 6) ∧ s.upd.passed = none ∧ s.upd.sector = none := ⟨hst, hp, hs⟩
  rw [State.verifyDone, hc]
  exact (if_neg (by rw [hh]; decide)).trans (if_pos hcond)

/-- A START that fails after it was accepted, from the state `t` of the update on. -/
def State.startFailed (t : State) (e : Nat) (h : Bytes) : State :=
  ((t.updReply e).updErr R.UPD_ERR_STS_START_FAIL).updRecord 2 h e

theorem State.startFails_updating {s : State} (hst : s.get R.UPD_STS_STATE = 1) (e : Nat) (h : Bytes) :
    s.startFails e h = State.startFailed (({ s with upd := { s.upd with cand := none } }).set R.UPD_STS_STATE 0 0) e h :=
  congrArg (State.startFailed · e h) (if_pos hst)

theorem State.startFails_recovery {s : State} (hst : s.get R.UPD_STS_STATE = 6) (e : Nat) (h : Bytes) :
    s.startFails e h = State.startFailed { s with upd := { s.upd with cand := none } } e h :=
  congrArg (State.startFailed · e h) (if_neg fun h1 => absurd (hst.symm.trans h1) (by decide))

/-! ## The drain, the sectors and the seal (R324, R325, R327) -/

theorem State.updDrained_of_drained {s : State} (hst : s.get R.UPD_STS_STATE = 2) (hrec : s.upd.recorded = true)
    (hrun : s.updStopped = false) (hcmds : s.trv.cmds = []) : s.updDrained = (s.setUpd 3).enterWrite := by
  have hcond : s.updState = 2 ∧ s.upd.recorded = true ∧ (!s.updStopped) = true ∧ s.trv.cmds.all (·.isHeld) = true :=
    ⟨hst, hrec, by rw [hrun]; rfl, by rw [hcmds]; rfl⟩
  rw [State.updDrained, if_pos hcond, hcmds]
  rfl

theorem State.updDrained_of_early {s : State}
    (h : s.get R.UPD_STS_STATE ≠ 2 ∨ s.upd.recorded = false ∨ s.updStopped = true ∨ ∃ c ∈ s.trv.cmds, c.isHeld = false) :
    s.updDrained = s := by
  refine if_neg ?_
  rintro ⟨hst, hrec, hrun, hcmds⟩
  rcases h with h | h | h | ⟨c, hc, hheld⟩
  · exact h hst
  · rw [h] at hrec; exact absurd hrec (by decide)
  · rw [h] at hrun; exact absurd hrun (by decide)
  · exact absurd (List.all_eq_true.1 hcmds c hc) (by rw [hheld]; decide)

/-- A body sector that is in the flash: the journal and NEXT move on, after the last one to SEAL. -/
theorem State.sectorWritten_good {s : State} {b : Bytes} (hb : s.upd.sector = some b) (hh : s.updHalted = false) :
    s.sectorWritten true =
      let n := s.get R.UPD_PROGRESS_NEXT
      let t := ((({ s with upd := { s.upd with sector := none, tries := 0 } }).program n b).putJournal
        (if headSectors s.upd.head ≤ n then 3 else 2) (n + 1) s.upd.head).set R.UPD_PROGRESS_NEXT 0 (n + 1)
      (if headSectors s.upd.head ≤ n then t.set R.UPD_STS_STATE 0 4 else t).updReply 0 := by
  rw [State.sectorWritten, hb]
  dsimp only
  rw [hh]
  simp only [Bool.false_eq_true, if_false, if_true, decide_eq_true_eq]
  rfl

/-- A body sector that is not: cut off by a power failure, tried again, or given up after the fourth try. -/
theorem State.sectorWritten_bad {s : State} {b : Bytes} (hb : s.upd.sector = some b) (hh : s.updHalted = false) :
    s.sectorWritten false =
      if s.glb.pwrFail then { s with upd := { s.upd with sector := none, tries := 0 } }
      else if s.upd.tries + 1 < 4 then { s with upd := { s.upd with tries := s.upd.tries + 1 } }
      else (({ s with upd := { s.upd with sector := none, tries := 0 } }).updReply 0xC).updErr R.UPD_ERR_STS_FLASH := by
  rw [State.sectorWritten, hb]
  exact if_neg (by rw [hh]; decide)

theorem State.sectorWritten_idle {s : State} (h : s.upd.sector = none ∨ s.updHalted = true) (good : Bool) :
    s.sectorWritten good = s := by
  unfold State.sectorWritten
  split
  · rfl
  next b hb =>
    rcases h with h | h
    · rw [h] at hb; exact absurd hb (by simp)
    · exact if_pos h

theorem State.sealed_eq {s : State} (hst : s.get R.UPD_STS_STATE = 4) (hrun : s.updStopped = false) :
    s.sealed =
      ((((s.program 0 s.upd.head).putJournal 4 (s.get R.UPD_PROGRESS_NEXT) s.upd.head).set R.UPD_STS_STATE 0 5).updErr
        R.UPD_ERR_STS_WRITTEN).updRecord 4 s.upd.head 0 := by
  have hcond : s.updState = 4 ∧ (!s.updStopped) = true := ⟨hst, by rw [hrun]; rfl⟩
  exact if_pos hcond

theorem State.sealed_of_early {s : State} (h : s.get R.UPD_STS_STATE ≠ 4 ∨ s.updStopped = true) : s.sealed = s := by
  refine if_neg ?_
  rintro ⟨hst, hrun⟩
  rcases h with h | h
  · exact h hst
  · rw [h] at hrun; exact absurd hrun (by decide)

/-- Settles O46: the check of a head sector in START and in RECOVERY, the end of the drain, a sector that was written or failed, and
the seal. -/
theorem updateSteps : Obligations.UpdateSteps := by
  unfold Obligations.UpdateSteps
  intro s b good n r began
  refine ⟨fun c hc hp hs hh => ⟨fun hst => ⟨fun he => ?passed, fun he => ?failed⟩,
      fun hst => ⟨fun he hpwr => ?replaced, fun he => ?kept⟩⟩,
    fun h => congrArg ok (State.verifyDone_of_idle h), fun hst hrec hrun hcmds => ?drained,
    fun h => congrArg ok (State.updDrained_of_early h), fun hb hh => ⟨fun hlast => ?last, fun hmore => ?more, fun hpwr => ?cut,
      fun hpwr htries => ?again, fun hpwr htries => ?given⟩,
    fun h => congrArg ok (State.sectorWritten_idle h good), fun hst hrun => congrArg ok (State.sealed_eq hst hrun),
    fun h => congrArg ok (State.sealed_of_early h)⟩
  case passed =>
    refine congrArg ok ((State.verifyDone_eq hc hp hs hh (.inl hst)).trans ?_)
    rw [if_neg (not_not_intro he), hst]
    rfl
  case failed =>
    refine congrArg ok ((State.verifyDone_eq hc hp hs hh (.inl hst)).trans ?_)
    rw [if_pos he, State.startFails_updating (s.readFloor_updState.trans hst)]
    rfl
  case replaced =>
    have hv := State.verifyDone_eq hc hp hs hh (.inr hst)
    rw [if_neg (not_not_intro he), if_pos hst, hpwr] at hv
    refine ⟨_, congrArg ok hv, ?_, ?_, ?_, State.enterWrite_began _⟩
    · rw [State.get_wires _ _ _ (by decide)]
      exact (State.enterWrite_state _).trans (s.readFloor_updState.trans hst)
    · rw [State.wires_upd]
      exact congrArg Upd.head (State.enterWrite_rest _)
    · rw [State.wires_upd]
      exact congrArg Upd.cand (State.enterWrite_rest _)
  case kept =>
    refine congrArg ok ((State.verifyDone_eq hc hp hs hh (.inr hst)).trans ?_)
    rw [if_pos he, State.startFails_recovery (s.readFloor_updState.trans hst)]
    rfl
  case drained =>
    refine ⟨_, congrArg ok (State.updDrained_of_drained hst hrec hrun hcmds), ?_, State.enterWrite_began (s.setUpd 3)⟩
    rw [State.get_wires _ _ _ (by decide)]
    exact (State.enterWrite_state _).trans (State.get_set_self _ _ _ _ (by decide))
  case last =>
    refine congrArg ok ((State.sectorWritten_good hb hh).trans ?_)
    dsimp only
    rw [if_pos hlast, if_pos hlast]
    rfl
  case more =>
    refine congrArg ok ((State.sectorWritten_good hb hh).trans ?_)
    dsimp only
    rw [if_neg (Nat.not_le.2 hmore), if_neg (Nat.not_le.2 hmore)]
    rfl
  case cut => exact congrArg ok ((State.sectorWritten_bad hb hh).trans (if_pos hpwr))
  case again =>
    refine congrArg ok ((State.sectorWritten_bad hb hh).trans ?_)
    rw [hpwr]
    exact if_pos (show s.upd.tries + 1 < 4 by omega)
  case given =>
    refine congrArg ok ((State.sectorWritten_bad hb hh).trans ?_)
    rw [hpwr]
    exact if_neg (show ¬s.upd.tries + 1 < 4 by omega)

end Sys2Proof.Machine

namespace Sys2Proof.Machine

/-! ## The trim and the muxes (R332 to R334) -/

/-- GOOD intervals in a row after one with the error `e` (R332). -/
def State.goodAfter (s : State) (e : Int) : Nat := if e.natAbs ≤ 500 then s.clk.good + 1 else 0

/-- The end of a measurement interval with the error `e` as the registers show it. -/
def State.trimShown (s : State) (e : Int) : State :=
  (({ s with clk := { s.clk with good := s.goodAfter e, toMove := e.natAbs / 5, moveUp := decide (e < 0) } }).set
    R.CLK_TRIM_ERR_ERR 0 (e % (2 ^ 24 : Nat)).toNat).set R.CLK_TRIM_ERR_VALID 0 1

theorem State.trimShown_lock (s : State) (e : Int) : (s.trimShown e).on R.CLK_STS_LOCK = s.on R.CLK_STS_LOCK := by
  rw [State.trimShown, State.on_set_other _ _ _ _ _ _ (by decide), State.on_set_other _ _ _ _ _ _ (by decide)]
  rfl

theorem State.trimInterval_of_idle {s : State} (h : s.get R.CLK_TRIM_CFG_SRC = 0 ∨ s.on R.CLK_STS_HOLDOVER = true) (n : Nat) (phase : Int) :
    s.trimInterval n phase = s := if_pos h

theorem State.refLost_of_idle {s : State} (h : s.get R.CLK_TRIM_CFG_SRC = 0 ∨ s.on R.CLK_STS_HOLDOVER = true) : s.refLost = s := if_pos h

section
variable {s : State} (hsrc : s.get R.CLK_TRIM_CFG_SRC ≠ 0) (hhold : s.on R.CLK_STS_HOLDOVER = false)
include hsrc hhold

theorem State.trim_measures : ¬(s.get R.CLK_TRIM_CFG_SRC = 0 ∨ s.on R.CLK_STS_HOLDOVER = true) :=
  fun h => h.elim hsrc (Bool.eq_false_iff.1 hhold)

theorem State.trimInterval_skipped (hskip : s.clk.skip = true) (n : Nat) (phase : Int) :
    s.trimInterval n phase = { s with clk := { s.clk with skip := false } } :=
  (if_neg (State.trim_measures hsrc hhold)).trans (if_pos hskip)

/-- LOCK rises after two good intervals, and falls with one past 20 ppm (R332). -/
theorem State.trimInterval_eq (hskip : s.clk.skip = false) (n : Nat) (phase : Int) :
    s.trimInterval n phase =
      let e := trimError (s.get R.CLK_TRIM_CFG_SRC) n phase
      if 2 ≤ s.goodAfter e ∧ s.on R.CLK_STS_LOCK = false then
        (((s.trimShown e).set R.CLK_STS_LOCK 0 1).clkErr R.CLK_ERR_STS_LOCK_GAINED 0 0).clkRecord 1
      else if 2000 < e.natAbs ∧ s.on R.CLK_STS_LOCK = true then
        (((s.trimShown e).set R.CLK_STS_LOCK 0 0).clkErr R.CLK_ERR_STS_LOCK_LOST 0 0).clkRecord 2
      else s.trimShown e := by
  refine ((if_neg (State.trim_measures hsrc hhold)).trans (if_neg (by rw [hskip]; decide))).trans ?_
  dsimp only
  generalize he : trimError (s.get R.CLK_TRIM_CFG_SRC) n phase = e
  show (if 2 ≤ s.goodAfter e ∧ (!(s.trimShown e).on R.CLK_STS_LOCK) = true then _
    else if 2000 < e.natAbs then (if (s.trimShown e).on R.CLK_STS_LOCK then _ else s.trimShown e) else s.trimShown e) = _
  rw [State.trimShown_lock]
  cases hl : s.on R.CLK_STS_LOCK <;> simp <;> rfl

theorem State.refLost_eq :
    s.refLost = (((({ s with clk := { s.clk with lostTemp := s.hottest, good := 0, toMove := 0 } }).set
      R.CLK_STS_HOLDOVER 0 1).set R.CLK_STS_TREF_OK 0 0).clkErr R.CLK_ERR_STS_REF_LOST
        (if s.get R.CLK_TRIM_CFG_SRC = 3 then 0 else 9) 0).clkRecord 3 := if_neg (State.trim_measures hsrc hhold)

end

theorem State.refReturn_of_holdover {s : State} (h : s.on R.CLK_STS_HOLDOVER = true) :
    s.refReturn = (((({ s with clk := { s.clk with skip := true } }).set R.CLK_STS_HOLDOVER 0 0).set R.CLK_STS_TREF_OK 0
      (if s.get R.CLK_TRIM_CFG_SRC = 1 ∨ s.get R.CLK_TRIM_CFG_SRC = 2 then 1 else 0))).clkRecord 4 := by
  have hsrc : b2n (s.get R.CLK_TRIM_CFG_SRC == 1 || s.get R.CLK_TRIM_CFG_SRC == 2) =
      if s.get R.CLK_TRIM_CFG_SRC = 1 ∨ s.get R.CLK_TRIM_CFG_SRC = 2 then 1 else 0 := by
    simp only [b2n, Bool.or_eq_true, beq_iff_eq]
  rw [← hsrc]
  exact if_neg (by rw [h]; decide)

theorem State.refReturn_of_locked {s : State} (h : s.on R.CLK_STS_HOLDOVER = false) : s.refReturn = s := if_pos (by rw [h]; rfl)

/-- Settles O47: an interval skipped, shown, or with LOCK gained or lost, the reference lost and returned, and the muxes. -/
theorem trimAndMuxes : Obligations.TrimAndMuxes := by
  unfold Obligations.TrimAndMuxes
  intro s count m phase src e good shown busy
  refine ⟨fun hsrc hhold => ⟨fun hskip => ?skipped, fun hskip => ⟨fun hgood hlow => ?shown, fun hlock hlow => ?kept, fun hgood hlock => ?gained,
      fun hhigh hlock => ?lost⟩, congrArg ok (State.refLost_eq hsrc hhold)⟩, fun hidle => ⟨?idle, congrArg ok (State.refLost_of_idle hidle)⟩,
    fun hhold => congrArg ok (State.refReturn_of_holdover hhold), fun hhold => congrArg ok (State.refReturn_of_locked hhold),
    fun hm hbusy hold => congrArg ok (if_pos ⟨hm, hbusy, hold⟩), fun h => congrArg ok (if_neg ?muxStays)⟩
  case skipped => exact congrArg (fun t : State => ok t.sendTime) (State.trimInterval_skipped hsrc hhold hskip count phase)
  case shown =>
    refine congrArg (fun t : State => ok t.sendTime) ((State.trimInterval_eq hsrc hhold hskip count phase).trans ?_)
    refine (if_neg fun h => ?_).trans (if_neg fun h => ?_)
    · exact absurd h.1 (Nat.not_le.2 hgood)
    · rcases hlow with hlow | hlow
      · exact absurd h.1 (Nat.not_lt.2 hlow)
      · exact Bool.false_ne_true (hlow.symm.trans h.2)
  case kept =>
    refine congrArg (fun t : State => ok t.sendTime) ((State.trimInterval_eq hsrc hhold hskip count phase).trans ?_)
    refine (if_neg fun h => ?_).trans (if_neg fun h => ?_)
    · exact Bool.false_ne_true (h.2.symm.trans hlock)
    · exact absurd h.1 (Nat.not_lt.2 hlow)
  case gained =>
    refine congrArg (fun t : State => ok t.sendTime) ((State.trimInterval_eq hsrc hhold hskip count phase).trans ?_)
    exact if_pos ⟨hgood, hlock⟩
  case lost =>
    refine congrArg (fun t : State => ok t.sendTime) ((State.trimInterval_eq hsrc hhold hskip count phase).trans ?_)
    refine (if_neg fun h => ?_).trans (if_pos ⟨hhigh, hlock⟩)
    exact Bool.false_ne_true (h.2.symm.trans hlock)
  case idle => exact congrArg (fun t : State => ok t.sendTime) (State.trimInterval_of_idle hidle count phase)
  case muxStays =>
    rintro ⟨hm, hbusy, hold⟩
    rcases h with h | h | h
    · exact absurd hm (Nat.not_lt.2 h)
    · exact Bool.false_ne_true (h.symm.trans hbusy)
    · exact Bool.false_ne_true (h.symm.trans hold)

end Sys2Proof.Machine

namespace Sys2Proof.Machine

/-! ## The monitors (R335) -/

/-- PLLs that lose lock with a clock change registers alone. -/
theorem State.locksLost_rest (s : State) (m kind : Nat) : s.locksLost m kind = { s with regs := (s.locksLost m kind).regs } := by
  unfold State.locksLost
  dsimp only
  split <;> split <;> split <;> rfl

/-- A failing monitor changes registers alone. -/
theorem State.monitorFails_rest (s : State) (m kind count : Nat) :
    s.monitorFails m kind count = { s with regs := (s.monitorFails m kind count).regs } :=
  State.locksLost_rest ..

/-- A field of none of the monitors' registers and of no lock reads as before. -/
theorem State.monitorFails_get (s : State) (m kind count : Nat) {f : Field}
    (hf : f.key 0 ∉ [R.CLK_MON_STS_OK.key 0, R.CLK_STS_XIN_OK.key 0, R.CLK_STS_BKO_OK.key 0, R.CLK_MON_CNT_COUNT.key m,
      R.CLK_STS_CORE_LOCK.key 0, R.CLK_STS_SEQ_LOCK.key 0, R.CLK_STS_DDR_LOCK.key 0]) :
    (s.monitorFails m kind count).get f = s.get f := by
  simp only [List.mem_cons, List.not_mem_nil, or_false, not_or] at hf
  obtain ⟨hmon, hxin, hbko, hcnt, hcore, hseq, hddr⟩ := hf
  have hset : ∀ (t : State) (p : Prop) [Decidable p] {g : Field} (v : Nat), f.key 0 ≠ g.key 0 →
      (if p then t.set g 0 v else t).get f = t.get f := by
    intro t p _ g v hg
    split
    · exact State.get_set_other _ _ _ _ _ _ (Ne.symm hg)
    · rfl
  rw [State.monitorFails, State.locksLost, hset _ _ _ hddr, hset _ _ _ hseq, hset _ _ _ hcore,
    State.get_set_other _ _ _ _ _ _ (Ne.symm hcnt), State.monitors,
    State.get_set_other _ _ _ _ _ _ (Ne.symm hbko), State.get_set_other _ _ _ _ _ _ (Ne.symm hxin),
    State.get_set_other _ _ _ _ _ _ (Ne.symm hmon)]

theorem isClockFailure_iff (m : Nat) : isClockFailure m = true ↔ m = 0 ∨ m = 1 ∨ m = 3 ∨ m = 4 ∨ m = 5 := by
  simp [isClockFailure, or_assoc]

theorem State.clockInService_iff (s : State) :
    s.clockInService = true ↔ s.get R.LC_STATE_CODE = 3 ∧ s.on R.GLB_STS_SERVICE_READY = true := by
  simp [State.clockInService]

/-! ## Clock failures (R335 to R337) -/

theorem State.clockFailure_unpowered {s : State} (h : s.glb.powered = false) (m kind count : Nat) : s.clockFailure m kind count = s :=
  if_pos (by rw [h]; rfl)

section
variable {s : State} (hp : s.glb.powered = true)
include hp

/-- A clock failure takes the safe-state wait outside service, and in service the fatal path, once. -/
theorem State.clockFailure_watched {m : Nat} (hm : isClockFailure m = true) (kind count : Nat) :
    s.clockFailure m kind count =
      if s.clockInService then (if s.clk.fatal then s else s.clockFatal m kind count) else s.safeWait m kind count := by
  refine (if_neg (by rw [hp]; decide)).trans ((if_pos hm).trans ?_)
  cases s.clockInService <;> rfl

theorem State.clockFailure_unwatched {m : Nat} (hm : isClockFailure m = false) (kind count : Nat) :
    s.clockFailure m kind count =
      if m = 2 then s.bkoFailed kind count
      else if m = 6 ∨ m = 7 then (s.monitorFails m kind count).linkLoss (m - 6) 0xA
      else if m = 8 then netPorts.foldl (fun t p => t.portDown p 3) (s.monitorFails 8 kind count)
      else if m = 9 then
        (if (s.monitorFails 9 kind count).get R.CLK_TRIM_CFG_SRC = 1 ∨ (s.monitorFails 9 kind count).get R.CLK_TRIM_CFG_SRC = 2 then
          (s.monitorFails 9 kind count).refLost else s.monitorFails 9 kind count)
      else s :=
  (if_neg (by rw [hp]; decide)).trans (if_neg (by rw [hm]; decide))

theorem State.clockFailure_bko (kind count : Nat) : s.clockFailure 2 kind count = s.bkoFailed kind count :=
  State.clockFailure_unwatched hp rfl kind count

theorem State.clockFailure_host {m : Nat} (hm : m = 6 ∨ m = 7) (kind count : Nat) :
    s.clockFailure m kind count = (s.monitorFails m kind count).linkLoss (m - 6) 0xA := by
  rcases hm with rfl | rfl <;> exact State.clockFailure_unwatched hp rfl kind count

theorem State.clockFailure_net (kind count : Nat) :
    s.clockFailure 8 kind count = netPorts.foldl (fun t p => t.portDown p 3) (s.monitorFails 8 kind count) :=
  State.clockFailure_unwatched hp rfl kind count

theorem State.clockFailure_tref (kind count : Nat) :
    s.clockFailure 9 kind count =
      if s.get R.CLK_TRIM_CFG_SRC = 1 ∨ s.get R.CLK_TRIM_CFG_SRC = 2 then (s.monitorFails 9 kind count).refLost
      else s.monitorFails 9 kind count := by
  rw [State.clockFailure_unwatched hp rfl, State.monitorFails_get _ _ _ _ (by decide)]
  rfl

theorem State.clockFailure_none {m : Nat} (hm : 9 < m) (kind count : Nat) : s.clockFailure m kind count = s := by
  have hw : isClockFailure m = false := Bool.eq_false_iff.2 fun h => by have := (isClockFailure_iff m).1 h; omega
  rw [State.clockFailure_unwatched hp hw, if_neg (by omega), if_neg (by omega), if_neg (by omega), if_neg (by omega)]

end

/-- While the backup oscillator or TBCLK runs, a clock failure in service writes the words, the record and the flush (R336). -/
theorem State.clockFatal_of_path {s : State} {m kind count : Nat}
    (h : bit ((s.monitorFails m kind count).get R.CLK_MON_STS_OK) 2 = true ∨ bit ((s.monitorFails m kind count).get R.CLK_MON_STS_OK) 0 = true) :
    s.clockFatal m kind count =
      (({ s.monitorFails m kind count with clk := { (s.monitorFails m kind count).clk with fatal := true } } : State).fatalRecords.breakPromises
        ccFatalClock |>.recordAs false true 0x0603 3 1024 m kind count 0).flush 4 :=
  if_pos (by simpa using h)

/-- With neither, the records that wait are lost and the fatal reset is asked for at once (R307). -/
theorem State.clockFatal_of_no_path {s : State} {m kind count : Nat}
    (h2 : bit ((s.monitorFails m kind count).get R.CLK_MON_STS_OK) 2 = false)
    (h0 : bit ((s.monitorFails m kind count).get R.CLK_MON_STS_OK) 0 = false) (hrst : (s.monitorFails m kind count).glb.rst = none) :
    s.clockFatal m kind count =
      { s.monitorFails m kind count with
        clk := { (s.monitorFails m kind count).clk with fatal := true }
        fb := { (s.monitorFails m kind count).fb with pending := [], buffer := [] }
        glb := { (s.monitorFails m kind count).glb with rst := some ⟨false, 5, false⟩ } } := by
  refine (if_neg (by rw [h2, h0]; decide)).trans (State.askReset_of_none ?_ false 5 false)
  exact hrst

/-- The safe-state wait from the state before the failure (R337). -/
theorem State.safeWait_eq (s : State) (m kind count : Nat) :
    s.safeWait m kind count =
      ((({ s.monitorFails m kind count with
        clk := { (s.monitorFails m kind count).clk with
          safe := some (match s.clk.safe with | some l => if l.contains m then l else l ++ [m] | none => [m]), passRun := 0 }
        trv := { (s.monitorFails m kind count).trv with cmds := s.trv.cmds.map (fun (c : Cmd) => { c with granted := false }) } } : State).set
          R.GLB_STS_STAGE 0 0xA).set R.TRV_STS_READY 0 0) := by
  unfold State.safeWait
  dsimp only
  rw [show (s.monitorFails m kind count).clk = s.clk by rw [State.monitorFails_rest],
    show (s.monitorFails m kind count).trv = s.trv by rw [State.monitorFails_rest]] <;> rfl

/-- Settles O48: the backup oscillator, a failure in service and outside, the clocks of the ports and of the reference, and the ends of the
fatal path and of the wait. -/
theorem clockFailures : Obligations.ClockFailures := by
  unfold Obligations.ClockFailures
  intro s m kind count now left failed watched service fatal waits
  have hwatched : watched ↔ isClockFailure m = true := (isClockFailure_iff m).symm
  have hservice : service ↔ s.clockInService = true := s.clockInService_iff.symm
  simp only [hwatched, hservice, Bool.not_eq_true]
  refine ⟨fun hm => ?bko, fun hw hp hs hf => ⟨fun hpath => ?path, fun h2 h0 hrst => ?noPath⟩, fun hw hp hs => ?wait,
    fun hw h => ?twice, fun hm hp => congrArg ok (State.clockFailure_host hp hm kind count), fun hm hp => ?net,
    fun hm hp => ⟨fun h1 h2 => ?trefIdle, fun h => ?tref⟩, fun hm => ?none, fun h => congrArg ok (if_pos h),
    fun h => congrArg ok (if_neg (Bool.eq_false_iff.1 h)), fun hw hk hs => ?waitRow, fun h => ?waitNone,
    fun hs hrun hrst => ?ends, fun h => ?early⟩
  case bko => subst hm; exact ⟨rfl, fun hp => congrArg ok (State.clockFailure_bko hp kind count)⟩
  case path =>
    refine congrArg ok ((State.clockFailure_watched hp hw kind count).trans ((if_pos hs).trans ((if_neg (Bool.eq_false_iff.1 hf)).trans ?_)))
    exact State.clockFatal_of_path hpath
  case noPath =>
    refine congrArg ok ((State.clockFailure_watched hp hw kind count).trans ((if_pos hs).trans ((if_neg (Bool.eq_false_iff.1 hf)).trans ?_)))
    exact State.clockFatal_of_no_path h2 h0 hrst
  case wait =>
    refine congrArg ok ((State.clockFailure_watched hp hw kind count).trans ((if_neg (Bool.eq_false_iff.1 hs)).trans ?_))
    exact s.safeWait_eq m kind count
  case twice =>
    rcases hp : s.glb.powered with _ | _
    · exact congrArg ok (State.clockFailure_unpowered hp m kind count)
    · rcases h with ⟨hs, hf⟩ | h
      · exact congrArg ok ((State.clockFailure_watched hp hw kind count).trans ((if_pos hs).trans (if_pos hf)))
      · exact absurd (h.symm.trans hp) (by decide)
  case net => subst hm; exact congrArg ok (State.clockFailure_net hp kind count)
  case trefIdle => subst hm; exact congrArg ok ((State.clockFailure_tref hp kind count).trans (if_neg fun h => h.elim h1 h2))
  case tref => subst hm; exact congrArg ok ((State.clockFailure_tref hp kind count).trans (if_pos h))
  case none =>
    rcases hp : s.glb.powered with _ | _
    · exact congrArg ok (State.clockFailure_unpowered hp m kind count)
    · exact congrArg ok (State.clockFailure_none hp hm kind count)
  case waitRow => exact congrArg ok ((if_pos ⟨hw, hk, by rw [hs]; rfl⟩).trans (s.safeWait_eq m kind count))
  case waitNone =>
    refine congrArg ok (if_neg ?_)
    rintro ⟨hw, hk, hs⟩
    rcases h with h | h | h
    · exact Bool.false_ne_true (h.symm.trans hw)
    · exact hk h
    · rw [h] at hs; exact absurd hs (by decide)
  case ends =>
    exact congrArg ok ((if_pos ⟨hs, hrun⟩).trans (State.askReset_of_none hrst false 4 false))
  case early =>
    refine congrArg ok (if_neg ?_)
    rintro ⟨hs, hrun⟩
    rcases h with h | h
    · rw [h] at hs; exact absurd hs (by decide)
    · omega

end Sys2Proof.Machine

namespace Sys2Proof.Machine

/-! ## PMBus reads (R340, R343, R399) -/

/-- The PMBus registers after a read of `what` of a rail. -/
def State.pmbShown (s : State) (rail : Nat) (what : PmbRead) : State :=
  (((s.set R.MGT_PMB_STS_ADDR 0 (s.get R.DOSE_RAIL_CFG_ADDR rail)).set R.MGT_PMB_STS_CMD 0 (pmbCode what)).set R.MGT_PMB_STS_PAGE 0
    (s.get R.DOSE_RAIL_CFG_PAGE rail)).set R.MGT_PMB_STS_BUSY 0 0

/-- The values of a read are put to use, and a read that failed voids its round. -/
def State.pmbEnds (s : State) (rail : Nat) (what : PmbRead) : PmbResult → State
  | .value v => s.pmbValue rail v what
  | .nack => s.pmbFail rail R.MGT_PMB_ERR_NACK
  | .timeout => s.pmbFail rail R.MGT_PMB_ERR_TIMEOUT

theorem State.pmbRuns_iff (s : State) : s.pmbRuns = true ↔ bit (s.get R.CLK_GATE_ON) 8 = true ∧ s.clk.safe = none := by
  simp [State.pmbRuns]

theorem State.pmbRead_of_idle {s : State} {rail : Nat} (h : rail ∉ s.railsOn ∨ ¬s.pmbRuns = true) (what : PmbRead) (r : PmbResult) :
    s.pmbRead rail what r = s := by
  refine if_pos ?_
  simpa using h

theorem State.pmbRead_of_enabled {s : State} {rail : Nat} (hr : rail ∈ s.railsOn) (hruns : s.pmbRuns = true) (what : PmbRead) (r : PmbResult) :
    s.pmbRead rail what r = (s.pmbShown rail what).pmbEnds rail what r := by
  refine (if_neg (by simp [hr, hruns])).trans ?_
  cases r <;> rfl

theorem State.railsOn_lt {s : State} {rail : Nat} (h : rail ∈ s.railsOn) : rail < 7 :=
  List.mem_range.1 (List.mem_filter.1 h).1

/-- The limit of a rail after its read is the one before. -/
theorem State.pmbShown_limit (s : State) {rail : Nat} (h : rail < 7) (what : PmbRead) :
    (s.pmbShown rail what).railLimit ((s.pmbShown rail what).get R.DOSE_RAIL_CFG_LIMIT rail) rail =
      s.railLimit (s.get R.DOSE_RAIL_CFG_LIMIT rail) rail := by
  have hkey : ∀ f ∈ [R.MGT_PMB_STS_ADDR, R.MGT_PMB_STS_CMD, R.MGT_PMB_STS_PAGE, R.MGT_PMB_STS_BUSY],
      f.key 0 ≠ R.DOSE_RAIL_CFG_LIMIT.key rail := by
    interval_cases rail <;> decide
  have hget : (s.pmbShown rail what).get R.DOSE_RAIL_CFG_LIMIT rail = s.get R.DOSE_RAIL_CFG_LIMIT rail := by
    rw [State.pmbShown, State.get_set_other _ _ _ _ _ _ (hkey _ (by simp)), State.get_set_other _ _ _ _ _ _ (hkey _ (by simp)),
      State.get_set_other _ _ _ _ _ _ (hkey _ (by simp)), State.get_set_other _ _ _ _ _ _ (hkey _ (by simp))]
  rw [hget]
  rfl

/-- VOUT of a rail shown, and counted for the round. -/
def State.voutShown (s : State) (rail mv : Nat) : State :=
  ({ s with dose := { s.dose with
    readV := if s.dose.readV.contains rail then s.dose.readV else s.dose.readV ++ [rail] } }).set R.DOSE_RAIL_TEL_VOUT rail (min mv 4095)

/-- A voltage below 95 percent of nominal warns (R343). -/
theorem State.pmbValue_vout {s : State} {rail mode : Nat} (hmode : Tab.get 0 s.dose.modes rail = 64 + mode) (v : Nat) :
    s.pmbValue rail v .vout =
      if 100 * scaled (v % 65536) mode 1000 < 95 * railNominal rail then
        (s.voutShown rail (scaled (v % 65536) mode 1000)).brownWarn rail (scaled (v % 65536) mode 1000)
      else s.voutShown rail (scaled (v % 65536) mode 1000) := by
  have hsub : Tab.get 0 s.dose.modes rail - 64 = mode := by omega
  unfold State.pmbValue
  dsimp only
  rw [if_neg (by omega), hsub]
  rfl

/-- IOUT of a rail shown, and counted for the round. -/
def State.ioutShown (s : State) (rail q : Nat) : State :=
  ({ s with dose := { s.dose with
    readI := if s.dose.readI.contains rail then s.dose.readI else s.dose.readI ++ [rail] } }).set R.DOSE_RAIL_TEL_IOUT rail (min q 4095)

/-- A current above the limit is reported (R340). -/
theorem State.pmbValue_iout (s : State) {rail limit : Nat} (hlimit : s.railLimit (s.get R.DOSE_RAIL_CFG_LIMIT rail) rail = limit) (v : Nat) :
    s.pmbValue rail v .iout =
      if 2 * limit < scaled (v % 2048) (v / 2048 % 32) 4 then
        (s.ioutShown rail (scaled (v % 2048) (v / 2048 % 32) 4)).doseErr R.DOSE_ERR_STS_OVER rail
      else s.ioutShown rail (scaled (v % 2048) (v / 2048 % 32) 4) := by
  rw [← hlimit]
  rfl

/-! ## Telemetry rounds (R340) -/

/-- A round is void: a read failed, or a rail lacks a value. -/
def State.roundVoided (s : State) : Bool :=
  s.dose.roundVoid || s.railsOn.any (fun r => !s.dose.readV.contains r || !s.dose.readI.contains r)

theorem State.roundVoided_iff (s : State) :
    s.roundVoided = true ↔ s.dose.roundVoid = true ∨ ∃ r ∈ s.railsOn, r ∉ s.dose.readV ∨ r ∉ s.dose.readI := by
  simp [State.roundVoided]

/-- Dose with a round closed, before its value is taken. -/
def State.roundClosed (s : State) : Dose :=
  { s.dose with
    roundAt := s.frameNo + 1, roundEnergy := 0, roundVoid := false, warned := false, readV := [], readI := []
    clean := s.dose.clean || (!s.roundVoided && !s.dose.warned) }

section
variable {s : State} (hdue : s.frameNo % 256 = 0 ∧ s.dose.roundAt ≠ s.frameNo + 1)
include hdue

theorem State.round_due : ¬(s.frameNo % 256 ≠ 0 ∨ s.dose.roundAt = s.frameNo + 1) := fun h => h.elim (· hdue.1) hdue.2

/-- The fourth void round in a row ends the history. -/
theorem State.telemetryRound_lost (hvoid : s.roundVoided = true) (h : 3 ≤ s.dose.voids) :
    s.telemetryRound =
      ({ s with dose := { s.roundClosed with voids := s.dose.voids + 1, rounds := [], hist := false } } : State).showHist :=
  (if_neg (State.round_due hdue)).trans ((if_pos hvoid).trans (if_pos (show 4 ≤ s.dose.voids + 1 by omega)))

theorem State.telemetryRound_void (hvoid : s.roundVoided = true) (h : s.dose.voids < 3) :
    s.telemetryRound = { s with dose := { s.roundClosed with voids := s.dose.voids + 1 } } :=
  (if_neg (State.round_due hdue)).trans ((if_pos hvoid).trans (if_neg (show ¬4 ≤ s.dose.voids + 1 by omega)))

/-- With no rail enabled a round has no value. -/
theorem State.telemetryRound_unread (hvoid : s.roundVoided = false) (hrails : s.railsOn = []) :
    s.telemetryRound = { s with dose := { s.roundClosed with voids := 0 } } :=
  (if_neg (State.round_due hdue)).trans ((if_neg (Bool.eq_false_iff.1 hvoid)).trans (if_pos hrails))

/-- With four round values the telemetry base follows them. -/
theorem State.telemetryRound_full (hvoid : s.roundVoided = false) (hrails : s.railsOn ≠ []) (h : 3 ≤ s.dose.rounds.length) :
    s.telemetryRound =
      ({ s with dose := { s.roundClosed with
        voids := 0, rounds := (s.roundValue :: s.dose.rounds).take 4, hist := true
        telBase := ((s.roundValue :: s.dose.rounds).take 4).foldl max 0 + s.get R.DOSE_BASE_CFG_MARGIN } } : State).showHist := by
  have hlen : ((s.roundValue :: s.dose.rounds).take 4).length = 4 := by rw [List.length_take, List.length_cons]; omega
  exact (if_neg (State.round_due hdue)).trans
    ((if_neg (Bool.eq_false_iff.1 hvoid)).trans ((if_neg hrails).trans (if_pos hlen)))

theorem State.telemetryRound_part (hvoid : s.roundVoided = false) (hrails : s.railsOn ≠ []) (h : s.dose.rounds.length < 3) :
    s.telemetryRound =
      { s with dose := { s.roundClosed with voids := 0, rounds := (s.roundValue :: s.dose.rounds).take 4 } } := by
  have hlen : ¬((s.roundValue :: s.dose.rounds).take 4).length = 4 := by rw [List.length_take, List.length_cons]; omega
  exact (if_neg (State.round_due hdue)).trans
    ((if_neg (Bool.eq_false_iff.1 hvoid)).trans ((if_neg hrails).trans (if_neg hlen)))

/-- Whatever a round brought, the next one starts with nothing read. -/
theorem State.telemetryRound_closed :
    s.telemetryRound.dose.readV = [] ∧ s.telemetryRound.dose.readI = [] ∧ s.telemetryRound.dose.roundVoid = false ∧
      s.telemetryRound.dose.warned = false ∧ s.telemetryRound.dose.roundEnergy = 0 := by
  rcases hvoid : s.roundVoided with _ | _
  · by_cases hrails : s.railsOn = []
    · rw [State.telemetryRound_unread hdue hvoid hrails]; exact ⟨rfl, rfl, rfl, rfl, rfl⟩
    · rcases Nat.lt_or_ge s.dose.rounds.length 3 with h | h
      · rw [State.telemetryRound_part hdue hvoid hrails h]; exact ⟨rfl, rfl, rfl, rfl, rfl⟩
      · rw [State.telemetryRound_full hdue hvoid hrails h]; exact ⟨rfl, rfl, rfl, rfl, rfl⟩
  · rcases Nat.lt_or_ge s.dose.voids 3 with h | h
    · rw [State.telemetryRound_void hdue hvoid h]; exact ⟨rfl, rfl, rfl, rfl, rfl⟩
    · rw [State.telemetryRound_lost hdue hvoid h]; exact ⟨rfl, rfl, rfl, rfl, rfl⟩

end

theorem State.showHist_on (s : State) : s.showHist.wires.on R.DOSE_STS_HIST = (s.dose.hist && !s.on R.DOSE_BASE_CFG_FIXED) := by
  rw [State.on, State.get_wires _ _ _ (by decide)]
  exact State.on_set_self _ _ _ _ rfl

/-- Settles O49: a read that fails, each kind of value, the rounds that are void, unread, partial or full, and what does nothing. -/
theorem telemetry : Obligations.Telemetry := by
  unfold Obligations.Telemetry
  intro s rail v what result shown seen void runs
  have hruns : runs ↔ s.pmbRuns = true := s.pmbRuns_iff.symm
  have hvoided : void ↔ s.roundVoided = true := s.roundVoided_iff.symm
  simp only [hruns, hvoided]
  refine ⟨fun h => congrArg ok (State.pmbRead_of_idle h what result), fun hr hrun => ?_, fun h256 hat => ?round,
    fun h => congrArg ok (if_pos h)⟩
  · have hread := State.pmbRead_of_enabled hr hrun
    have hlimit := s.pmbShown_limit (State.railsOn_lt hr) what
    refine ⟨congrArg ok (hread what .nack), congrArg ok (hread what .timeout), fun hw => ⟨fun hm => ?linear, fun hm => ?other⟩,
      fun hw mode hmode => ⟨fun hv => ?sound, fun hv => ?low⟩, fun hw => ⟨fun hq => ?within, fun hq => ?above⟩,
      fun hw => ⟨fun hb => ?warns, fun h15 h14 => ?quiet⟩⟩
    case linear => subst hw; exact congrArg ok ((hread .voutMode (.value v)).trans (if_pos hm))
    case other => subst hw; exact congrArg ok ((hread .voutMode (.value v)).trans (if_neg hm))
    case sound =>
      subst hw
      exact congrArg ok ((hread .vout (.value v)).trans ((State.pmbValue_vout (s := s.pmbShown rail .vout) hmode v).trans (if_neg (Nat.not_lt.2 hv))))
    case low =>
      subst hw
      exact congrArg ok ((hread .vout (.value v)).trans ((State.pmbValue_vout (s := s.pmbShown rail .vout) hmode v).trans (if_pos hv)))
    case within =>
      subst hw
      exact congrArg ok ((hread .iout (.value v)).trans ((s.pmbShown rail .iout).pmbValue_iout hlimit v |>.trans (if_neg (Nat.not_lt.2 hq))))
    case above =>
      subst hw
      exact congrArg ok ((hread .iout (.value v)).trans ((s.pmbShown rail .iout).pmbValue_iout hlimit v |>.trans (if_pos hq)))
    case warns => subst hw; exact congrArg ok ((hread .statusWord (.value v)).trans (if_pos hb))
    case quiet =>
      subst hw
      exact congrArg ok ((hread .statusWord (.value v)).trans (if_neg fun h => by simp [h15, h14] at h))
  case round =>
    have hdue : s.frameNo % 256 = 0 ∧ s.dose.roundAt ≠ s.frameNo + 1 := ⟨h256, hat⟩
    obtain ⟨hreadV, hreadI, hclear, hwarned, henergy⟩ := State.telemetryRound_closed hdue
    refine ⟨_, rfl, ?_⟩
    simp only [State.wires_dose]
    refine ⟨hreadV, hreadI, hclear, hwarned, henergy, fun hvoid => ⟨?voids, fun h => ?lost, fun h => ?kept⟩, fun hvoid hrails => ?unread,
      fun hvoid hrails => ⟨?novoid, ?rounds, fun h => ?full, fun h => ?part⟩⟩
    case voids =>
      rcases Nat.lt_or_ge s.dose.voids 3 with h | h
      · rw [State.telemetryRound_void hdue hvoid h]
      · rw [State.telemetryRound_lost hdue hvoid h]; rfl
    case lost =>
      rw [State.telemetryRound_lost hdue hvoid h]
      exact ⟨rfl, rfl, State.showHist_on _⟩
    case kept =>
      rw [State.telemetryRound_void hdue hvoid h]
      exact ⟨rfl, State.get_wires _ _ _ (by decide)⟩
    case unread =>
      rw [State.telemetryRound_unread hdue (Bool.eq_false_iff.2 hvoid) hrails]
      exact ⟨rfl, rfl⟩
    case novoid =>
      rcases Nat.lt_or_ge s.dose.rounds.length 3 with h | h
      · rw [State.telemetryRound_part hdue (Bool.eq_false_iff.2 hvoid) hrails h]
      · rw [State.telemetryRound_full hdue (Bool.eq_false_iff.2 hvoid) hrails h]; rfl
    case rounds =>
      rcases Nat.lt_or_ge s.dose.rounds.length 3 with h | h
      · rw [State.telemetryRound_part hdue (Bool.eq_false_iff.2 hvoid) hrails h]
      · rw [State.telemetryRound_full hdue (Bool.eq_false_iff.2 hvoid) hrails h]; rfl
    case full =>
      rw [State.telemetryRound_full hdue (Bool.eq_false_iff.2 hvoid) hrails h]
      exact ⟨rfl, State.showHist_on _, rfl⟩
    case part =>
      rw [State.telemetryRound_part hdue (Bool.eq_false_iff.2 hvoid) hrails h]
      exact ⟨rfl, rfl⟩

/-! ## Brown-out, the thermal ceiling and the stuck bus (R341, R343, R399) -/

theorem State.brownWarn_first {s : State} (h : s.dose.brownReq = none) (rail value : Nat) :
    s.brownWarn rail value = { s with dose := { s.dose with warned := true, brownReq := some (rail, value) } } := by
  rw [State.brownWarn, h]
  rfl

/-- A warning that waits is not replaced by a later one of its frame. -/
theorem State.brownWarn_again {s : State} (h : s.dose.brownReq.isSome = true) (rail value : Nat) :
    s.brownWarn rail value = { s with dose := { s.dose with warned := true } } := by
  rw [State.brownWarn, h]
  rfl

/-- Settles O50: the first warning of a frame and a later one, the end of brown-out, the ceiling reached and left, and the stuck bus. -/
theorem warningsAndCeiling : Obligations.WarningsAndCeiling := by
  unfold Obligations.WarningsAndCeiling
  intro s rail value
  refine ⟨fun h => congrArg ok (State.brownWarn_first h rail value), fun h => congrArg ok (State.brownWarn_again h rail value),
    fun hb hat hpin hclean => congrArg ok (if_pos ⟨hb, hat, hpin, hclean⟩), fun h => congrArg ok (if_neg ?stands),
    fun hen hhot hoff => congrArg ok (if_pos ⟨hen, hhot, by rw [hoff]; rfl⟩), fun h => congrArg ok (if_neg ?below),
    fun hon hcool => congrArg ok (if_pos ⟨hon, hcool⟩), fun h => congrArg ok (if_neg ?warm),
    fun hgate hsafe => congrArg ok (if_neg ?stuck), fun h => congrArg ok (if_pos ?released)⟩
  case stands =>
    rintro ⟨hb, hat, hpin, hclean⟩
    rcases h with h | h | h | h
    · exact Bool.false_ne_true (h.symm.trans hb)
    · omega
    · exact Bool.false_ne_true (h.symm.trans hpin)
    · exact Bool.false_ne_true (h.symm.trans hclean)
  case below =>
    rintro ⟨hen, hhot, hoff⟩
    rcases h with h | h | h
    · exact Bool.false_ne_true (h.symm.trans hen)
    · omega
    · rw [h] at hoff; exact absurd hoff (by decide)
  case warm =>
    rintro ⟨hon, hcool⟩
    rcases h with h | h
    · exact Bool.false_ne_true (h.symm.trans hon)
    · omega
  case stuck => simp [s.pmbRuns_iff.2 ⟨hgate, hsafe⟩]
  case released => rcases h with h | h <;> simp [State.pmbRuns, h]

end Sys2Proof.Machine

namespace Sys2Proof.Machine

/-! ## GLB_CFG_CMD (R375, R376) -/

section
variable {s : State} (hw : s.writable 0x000048 = true)
include hw

theorem exec_cfgCheck : exec .cfgCheck s = ok (s.cfgCommand 1) := congrArg ok (State.ifWritable_true hw _)
theorem exec_cfgCommit : exec .cfgCommit s = ok (s.cfgCommand 2) := congrArg ok (State.ifWritable_true hw _)
theorem exec_cfgDiscard : exec .cfgDiscard s = ok (s.cfgCommand 3) := congrArg ok (State.ifWritable_true hw _)

/-- The three commands answer alike where their operation does not matter. -/
theorem exec_cfgCommand_of_all {t : State} (h : ∀ op, s.cfgCommand op = t) {c : Instr}
    (hc : c ∈ [Instr.cfgCheck, .cfgCommit, .cfgDiscard]) : exec c s = ok t := by
  simp only [List.mem_cons, List.not_mem_nil, or_false] at hc
  rcases hc with rfl | rfl | rfl
  · rw [exec_cfgCheck hw, h]
  · rw [exec_cfgCommit hw, h]
  · rw [exec_cfgDiscard hw, h]

end

theorem State.cfgCommand_of_busy {s : State} (h : s.on R.GLB_CFG_STS_BUSY = true) (op : Nat) : s.cfgCommand op = s := if_pos h

/-- An accepted operation of GLB_CFG_CMD waits for its boundary. -/
def State.cfgAccepted (s : State) (op : Nat) : State :=
  { (s.set R.GLB_CFG_STS_ERR 0 0).set R.GLB_CFG_STS_BUSY 0 1 with glb := { s.glb with cfg := some (op, false) } }

section
variable {s : State} (hidle : s.on R.GLB_CFG_STS_BUSY = false)
include hidle

theorem State.cfgCommand_of_early (h : s.stage < 4) (op : Nat) : s.cfgCommand op = s.set R.GLB_CFG_STS_ERR 0 2 :=
  (if_neg (by rw [hidle]; decide)).trans (if_pos h)

/-- From stage 4 on CHECK, COMMIT and DISCARD are taken, COMMIT with a staged set that may be committed. -/
theorem State.cfgCommand_eq (h : 4 ≤ s.stage) {op : Nat} (hop : 1 ≤ op ∧ op ≤ 3) :
    s.cfgCommand op =
      if op = 2 ∧ !(s.on R.GLB_CFG_STS_PASSED && s.glb.clean && !s.on R.GLB_CFG_STS_STALE) then s.set R.GLB_CFG_STS_ERR 0 3
      else s.cfgAccepted op :=
  (if_neg (by rw [hidle]; decide)).trans ((if_neg (Nat.not_lt.2 h)).trans (if_neg (by omega)))

end

/-- Settles O51: GLB_CFG_CMD busy, before stage 4, CHECK and DISCARD, and COMMIT with and without a set that may be committed. -/
theorem configurationCommands : Obligations.ConfigurationCommands := by
  unfold Obligations.ConfigurationCommands
  intro s hw waits passed
  have hpassed : passed ↔ (s.on R.GLB_CFG_STS_PASSED && s.glb.clean && !s.on R.GLB_CFG_STS_STALE) = true := by
    simp [passed, and_assoc]
  refine ⟨fun hbusy c hc => exec_cfgCommand_of_all hw (State.cfgCommand_of_busy hbusy) hc,
    fun hidle => ⟨fun hearly c hc => exec_cfgCommand_of_all hw (State.cfgCommand_of_early hidle hearly) hc,
      fun hstage => ⟨?check, ?discard, fun hp => ?commit, fun hp => ?unfit⟩⟩⟩
  case check => rw [exec_cfgCheck hw, State.cfgCommand_eq hidle hstage ⟨by decide, by decide⟩]; rfl
  case discard => rw [exec_cfgDiscard hw, State.cfgCommand_eq hidle hstage ⟨by decide, by decide⟩]; rfl
  case commit => rw [exec_cfgCommit hw, State.cfgCommand_eq hidle hstage ⟨by decide, by decide⟩, hpassed.1 hp]; rfl
  case unfit =>
    rw [exec_cfgCommit hw, State.cfgCommand_eq hidle hstage ⟨by decide, by decide⟩, Bool.eq_false_iff.2 (mt hpassed.2 hp)]
    rfl

/-! ## Resets asked for (R372, R374) -/

/-- DRAIN of GLB_RST_CMD stops observation. -/
def State.obsStopped (s : State) (drain : Bool) : State := if drain then s.set R.TRV_CTL_OBS_STOP 0 1 else s

theorem State.obsStopped_glb (s : State) (drain : Bool) : (s.obsStopped drain).glb = s.glb := by cases drain <;> rfl

theorem State.obsStopped_on (s : State) (drain : Bool) (h : drain = true) : (s.obsStopped drain).on R.TRV_CTL_OBS_STOP = true := by
  subst h
  exact State.on_set_self s R.TRV_CTL_OBS_STOP 0 true rfl

/-- A cold reset takes the place of a warm one that was asked for. -/
theorem State.askReset_over_warm {s : State} {cause : Nat} {drain : Bool} (h : s.glb.rst = some ⟨true, cause, drain⟩) (c : Nat) (d : Bool) :
    s.askReset false c d = { s with glb := { s.glb with rst := some ⟨false, c, d⟩ } } := by
  rw [State.askReset, h]
  rfl

/-- A cold reset that was asked for stands. -/
theorem State.askReset_under_cold {s : State} {cause : Nat} {drain : Bool} (h : s.glb.rst = some ⟨false, cause, drain⟩) (warm : Bool)
    (c : Nat) (d : Bool) : s.askReset warm c d = s := by
  rw [State.askReset, h]
  rfl

/-- A warm reset replaces none that was asked for. -/
theorem State.askReset_warm_after {s : State} {r : RstReq} (h : s.glb.rst = some r) (c : Nat) (d : Bool) : s.askReset true c d = s := by
  rw [State.askReset, h]
  exact if_neg (by simp)

section
variable {s : State} (hrst : s.glb.rst = none) (drain : Bool)
include hrst

theorem State.askDrain_of_none (warm : Bool) (cause : Nat) :
    s.askDrain warm cause drain =
      { s.obsStopped drain with glb := { s.glb with rst := some ⟨warm, cause, drain⟩ } } := by
  refine (State.askReset_of_none (s := s.obsStopped drain) ?_ warm cause drain).trans ?_
  · rw [State.obsStopped_glb, hrst]
  · rw [State.obsStopped_glb]

end

theorem exec_rstWarm {s : State} (hw : s.writable 0x000030 = true) (drain : Bool) :
    exec (.rstWarm drain) s = ok (s.askDrain true 0xB drain) := congrArg ok (State.ifWritable_true hw _)

theorem State.mayCold_iff (s : State) :
    s.mayCold = true ↔ s.holds devSession roleSO = true ∨ s.get R.LC_STATE_CODE = 0 ∨ s.get R.LC_STATE_CODE = 1 ∨
      s.get R.LC_STATE_CODE = 4 ∨ s.get R.LC_STATE_CODE = 7 ∨ s.on R.TMP_STS_HALT = true ∨ s.stage = 8 := by
  simp [State.mayCold, or_assoc]

theorem exec_rstCold {s : State} (hp : s.glb.powered = true) (hst : 1 ≤ s.stage) (hlc : s.get R.LC_STATE_CODE ≠ 5) (drain : Bool) :
    exec (.rstCold drain) s = ok (if s.mayCold then s.askDrain false 2 drain else s.writeDropped 0x000030) :=
  congrArg ok (if_pos ⟨hp, hst, hlc⟩)

theorem exec_rstCold_of_ignored {s : State} (h : s.get R.LC_STATE_CODE = 5 ∨ s.glb.powered = false ∨ s.stage = 0) (drain : Bool) :
    exec (.rstCold drain) s = ok s := by
  refine congrArg ok (if_neg ?_)
  rintro ⟨hp, hst, hlc⟩
  rcases h with h | h | h
  · exact hlc h
  · exact Bool.false_ne_true (h.symm.trans hp)
  · omega

theorem State.resetDrained_of {s : State} {w : Bool} {c : Nat} {d : Bool} (h : s.glb.rst = some ⟨w, c, d⟩) :
    s.resetDrained = (d && s.drained && (!w || s.warmAllowed)) := by
  rw [State.resetDrained, h]

theorem State.resetDue_of {s : State} {w : Bool} {c : Nat} {d : Bool} (h : s.glb.rst = some ⟨w, c, d⟩) :
    s.resetDue = if d && !s.drained then s
      else if w then (if s.warmAllowed then s.warmReset c s.bootAgain else s) else s.coldReset c s.bootAgain := by
  rw [State.resetDue, h]

/-- RESET_DRAIN_END before the drain has ended announces nothing. -/
theorem exec_resetDrainEnd_of_not {s : State} (h : s.resetDrained = false) : exec .resetDrainEnd s = ok s := by
  show ok (s.mark .resetDrain s.resetDrained) = ok s
  rw [h]
  rfl

theorem exec_resetDrainEnd_of_drained {s : State} (h : s.resetDrained = true) : exec .resetDrainEnd s = ok (s.mark .resetDrain true) := by
  show ok (s.mark .resetDrain s.resetDrained) = _
  rw [h]

/-- Settles O52: WARM and COLD over each reset that may stand, COLD not covered or ignored, and what is due with a drain and without. -/
theorem resetsAskedFor : Obligations.ResetsAskedFor := by
  unfold Obligations.ResetsAskedFor
  intro s drain t lc cold
  have hcold : cold ↔ s.mayCold = true := s.mayCold_iff.symm
  have hglb : (s.obsStopped drain).glb = s.glb := s.obsStopped_glb drain
  simp only [hcold, Bool.not_eq_true]
  refine ⟨fun hw hrst => ?warm, fun hw r hr => ?warmAfter,
    fun hp hst hlc => ⟨fun hc hrst => ?cold, fun hc w d hr => ?coldOver, fun hc c d hr => ?coldAfter, fun hc => ?uncovered⟩,
    fun h => exec_rstCold_of_ignored h drain, fun w c hr => ⟨fun hd => ⟨fun h => ?ended, fun hwarm h => ?warmDue, fun hwarm h => ?warmWaits,
      fun hwarm => ?coldDue⟩, fun hd => ?draining⟩, fun h => ?nothing, fun c => ⟨fun hr h => ?warmNow, fun hr => ?coldNow⟩⟩
  case warm => rw [exec_rstWarm hw, State.askDrain_of_none hrst]; rfl
  case warmAfter =>
    rw [exec_rstWarm hw]
    exact congrArg ok (State.askReset_warm_after (s := s.obsStopped drain) (r := r) (by rw [hglb, hr]) 0xB drain)
  case cold => rw [exec_rstCold hp hst hlc, hc, State.askDrain_of_none hrst]; rfl
  case coldOver =>
    rw [exec_rstCold hp hst hlc, hc]
    refine congrArg ok ((State.askReset_over_warm (s := s.obsStopped drain) (by rw [hglb, hr]) 2 drain).trans ?_)
    rw [hglb]
    rfl
  case coldAfter =>
    rw [exec_rstCold hp hst hlc, hc]
    exact congrArg ok (State.askReset_under_cold (s := s.obsStopped drain) (by rw [hglb, hr]) false 2 drain)
  case uncovered => rw [exec_rstCold hp hst hlc, hc]; rfl
  case ended =>
    refine exec_resetDrainEnd_of_drained ?_
    rw [State.resetDrained_of hr, State.drained, hd]
    rcases h with h | h <;> simp [h]
  case warmDue => rw [State.resetDue_of hr, State.drained, hd, hwarm, h]; rfl
  case warmWaits =>
    refine ⟨by rw [State.resetDue_of hr, State.drained, hd, hwarm, h]; rfl, exec_resetDrainEnd_of_not ?_⟩
    rw [State.resetDrained_of hr, State.drained, hd, hwarm, h]
    rfl
  case coldDue => rw [State.resetDue_of hr, State.drained, hd, hwarm]; rfl
  case draining =>
    refine ⟨by rw [State.resetDue_of hr, State.drained, hd]; rfl, exec_resetDrainEnd_of_not ?_⟩
    rw [State.resetDrained_of hr, State.drained, hd]
    rfl
  case nothing =>
    refine exec_resetDrainEnd_of_not ?_
    rcases h with h | ⟨w, c, h⟩
    · rw [State.resetDrained, h]
    · rw [State.resetDrained_of h]; rfl
  case warmNow => rw [State.resetDue_of hr, h]; rfl
  case coldNow => rw [State.resetDue_of hr]; rfl

end Sys2Proof.Machine

namespace Sys2Proof.Machine

/-! ## NET_CMD (R348, R358, R366, R368) -/

/-- A NET_CMD that passes its checks waits for its boundary. -/
def State.netWaits (s : State) (c : NetCmd) : State :=
  (({ s with net := { s.net with cmd := some c, jobs := none, drawn := [] } }).set R.NET_CMD_STS_BUSY 0 1).set R.NET_CMD_STS_ERR 0 0

/-- What a NET_CMD with the code `e` makes of the state; CREATE asks for its draw. -/
def State.netAnswer (s : State) (e : Nat) (c : NetCmd) : State :=
  if e ≠ 0 then (if e = 2 then (s.netReply 2).writeDropped 0x130008 else s.netReply e)
  else if c.op = 1 then (s.netWaits c).askDraw 64 .netCreate else s.netWaits c

theorem State.netAnswer_uncovered (s : State) (c : NetCmd) : s.netAnswer 2 c = (s.netReply 2).writeDropped 0x130008 :=
  (if_pos (by decide)).trans (if_pos rfl)

/-- The rows of NET_CMD that a Security Officer of the device covers, with their commands. -/
def coveredRows (auto : Bool) (member slice : Nat) (records : Option (Bytes × Bytes)) : List (Instr × NetCmd) :=
  [(.netCreate, { op := 1 }), (.netRequest, { op := 2 }),
   (.netAdmit auto member records, { op := 3, member := member % 4096, auto := auto, records := records }),
   (.netAccept records, { op := 4, records := records }), (.netLeave, { op := 5 }), (.netExpel member, { op := 6, member := member % 4096 }),
   (.netBench member, { op := 7, member := member % 4096 }),
   (.moveHome member slice, { op := 8, member := member % 4096, arg := slice % 1024 })]

/-- A row of NET_CMD runs its command. -/
theorem exec_coveredRow {s : State} (hw : s.writable 0x130008 = true) {auto : Bool} {member slice : Nat} {records : Option (Bytes × Bytes)}
    {r : Instr × NetCmd} (hr : r ∈ coveredRows auto member slice records) : exec r.1 s = ok (s.netCommand r.2) := by
  simp only [coveredRows, List.mem_cons, List.not_mem_nil, or_false] at hr
  rcases hr with rfl | rfl | rfl | rfl | rfl | rfl | rfl | rfl <;> exact congrArg ok (State.ifWritable_true hw _)

theorem exec_portRekey {s : State} (hw : s.writable 0x130008 = true) (port : Nat) :
    exec (.portRekey port) s = ok (s.netCommand { op := 9, arg := port % 1024 }) := congrArg ok (State.ifWritable_true hw _)

theorem State.netCommand_of_busy {s : State} (h : s.on R.NET_CMD_STS_BUSY = true) (c : NetCmd) : s.netCommand c = s := if_pos h

theorem State.netCommand_idle {s : State} (h : s.on R.NET_CMD_STS_BUSY = false) (c : NetCmd) :
    s.netCommand c = s.netAnswer (s.netCheck c) c := by
  refine (if_neg (by rw [h]; decide)).trans ?_
  by_cases he : s.netCheck c = 2
  · simp only [State.netAnswer, he]
    rfl
  · simp only [State.netAnswer, he, if_false]
    rfl

/-- A command of a Security Officer that no session covers answers 2. -/
theorem State.netCheck_uncovered {s : State} (hses : s.holds devSession roleSO = false) {auto : Bool} {member slice : Nat}
    {records : Option (Bytes × Bytes)} {r : Instr × NetCmd} (hr : r ∈ coveredRows auto member slice records) : s.netCheck r.2 = 2 := by
  simp only [coveredRows, List.mem_cons, List.not_mem_nil, or_false] at hr
  rcases hr with rfl | rfl | rfl | rfl | rfl | rfl | rfl | rfl <;> simp (disch := simp) [State.netCheck, firstErr_cons, hses]

/-- PORT_REKEY needs no session, and a port that is UP. -/
theorem State.netCheck_rekey (s : State) (port : Nat) :
    s.netCheck { op := 9, arg := port } = if 4 ≤ port ∨ s.get R.NET_PORT_STS_STATE port ≠ 3 then 3 else 0 := by
  simp (disch := simp) [State.netCheck, firstErr_cons, firstErr_nil, State.portState]

section
variable {s : State} (hses : s.holds devSession roleSO = true)
include hses

theorem State.netCheck_create : s.netCheck { op := 1 } = if s.mayJoin = false then 3 else 0 := by
  simp (disch := simp) [State.netCheck, firstErr_cons, firstErr_nil, hses]

theorem State.netCheck_request : s.netCheck { op := 2 } = if s.mayJoin = false then 3 else 0 := by
  simp (disch := simp) [State.netCheck, firstErr_cons, firstErr_nil, hses]

theorem State.netCheck_admit (member : Nat) (auto : Bool) (records : Option (Bytes × Bytes)) :
    s.netCheck { op := 3, member := member, auto := auto, records := records } =
      if s.on R.NET_STS_MEMBER = false then 3 else if s.on R.NET_STS_BENCH = false then 7 else 0 := by
  simp (disch := simp) [State.netCheck, firstErr_cons, firstErr_nil, hses]

theorem State.netCheck_accept (records : Option (Bytes × Bytes)) :
    s.netCheck { op := 4, records := records } = if s.on R.NET_STS_MEMBER = true ∨ s.requested = false then 3 else 0 := by
  simp (disch := simp) [State.netCheck, firstErr_cons, firstErr_nil, hses]

theorem State.netCheck_leave :
    s.netCheck { op := 5 } = if s.on R.NET_STS_MEMBER = false then 3
      else if s.on R.NET_STS_BENCH = true ∨ s.homedAt (s.get R.NET_STS_ID) ≠ [] then 7 else 0 := by
  simp (disch := simp) [State.netCheck, firstErr_cons, firstErr_nil, hses]

theorem State.netCheck_expel (member : Nat) :
    s.netCheck { op := 6, member := member } = if s.on R.NET_STS_MEMBER = false then 3
      else if s.get R.NET_MEMBER_STATE member ≠ 1 then 5 else if s.on R.NET_STS_BENCH = false then 7 else 0 := by
  simp (disch := simp) [State.netCheck, firstErr_cons, firstErr_nil, hses]

theorem State.netCheck_bench (member : Nat) :
    s.netCheck { op := 7, member := member } = if s.on R.NET_STS_MEMBER = false then 3
      else if s.get R.NET_MEMBER_STATE member ≠ 1 then 5 else if s.on R.NET_STS_BENCH = false then 7 else 0 := by
  simp (disch := simp) [State.netCheck, firstErr_cons, firstErr_nil, hses]

theorem State.netCheck_moveHome (member slice : Nat) :
    s.netCheck { op := 8, member := member, arg := slice } = if s.on R.NET_STS_MEMBER = false then 3
      else if s.isHome slice = false then 8 else 0 := by
  simp (disch := simp) [State.netCheck, firstErr_cons, firstErr_nil, hses]

end

theorem State.mayJoin_iff (s : State) :
    s.mayJoin = true ↔ s.get R.LC_STATE_CODE = 3 ∧ s.on R.KS_STS_DATUM = true ∧ s.on R.NET_STS_MEMBER = false := by
  simp [State.mayJoin, and_assoc]

theorem exec_coveredRow_of_code {s : State} (hw : s.writable 0x130008 = true) (hidle : s.on R.NET_CMD_STS_BUSY = false) {auto : Bool}
    {member slice : Nat} {records : Option (Bytes × Bytes)} {r : Instr × NetCmd} (hr : r ∈ coveredRows auto member slice records)
    {e : Nat} (he : s.netCheck r.2 = e) : exec r.1 s = ok (s.netAnswer e r.2) := by
  rw [exec_coveredRow hw hr, State.netCommand_idle hidle, he]

/-- The verdict on an ADMIT record: a failure ends the ACCEPT, else the draw of BOOT is asked for (R358). -/
theorem State.joinFinish_accept {s : State} {records : Option (Bytes × Bytes)} {e : Nat} {nrk : Bytes}
    (h : s.acceptCheck records = (e, nrk)) :
    s.joinFinish { op := 4, records := records } =
      if e ≠ 0 then s.joinEnds e
      else
        let b := fitTo 16384 ((records.map Prod.fst).getD [])
        ({ s with net := { s.net with
          joining := some (fieldLE b 4464 2 % 4096, cut b 4480 16, nrk, devOf (cut b 8 16)) } }).askDraw 16 .netJoin := by
  simp only [State.joinFinish]
  rw [if_neg (by decide), if_neg (by decide), h]

/-- Settles O55: NET_CMD busy, PORT_REKEY, each covered command by what stops it, and the verdict on the record of an ACCEPT. -/
theorem netCommands : Obligations.NetCommands := by
  unfold Obligations.NetCommands
  intro s auto member slice port records hw waits fails covered mayJoin bench
  have hmay : mayJoin ↔ s.mayJoin = true := s.mayJoin_iff.symm
  have hcovered : covered = (coveredRows auto member slice records).map Prod.fst := rfl
  simp only [hmay, Bool.not_eq_true, hcovered, List.forall_mem_map]
  refine ⟨fun hbusy => ⟨?rekeyBusy, fun r hr => ?rowBusy⟩, fun hidle => ?_, fun e nrk h => ⟨fun he => ?failed, fun he => ?kept⟩⟩
  case rekeyBusy => rw [exec_portRekey hw, State.netCommand_of_busy hbusy]; rfl
  case rowBusy => rw [exec_coveredRow hw hr, State.netCommand_of_busy hbusy]; rfl
  case failed => exact (State.joinFinish_accept h).trans (if_pos he)
  case kept =>
    refine (State.joinFinish_accept h).trans ((if_neg (not_not_intro he)).trans ?_)
    rw [State.askDraw_eq]
  · have hrow : ∀ r ∈ coveredRows auto member slice records, ∀ e, s.netCheck r.2 = e → exec r.1 s = ok (s.netAnswer e r.2) :=
      fun r hr e he => exec_coveredRow_of_code hw hidle hr he
    simp only [coveredRows, List.forall_mem_cons] at hrow
    obtain ⟨hcreate, hrequest, hadmit, haccept, hleave, hexpel, hbench, hmove, -⟩ := hrow
    refine ⟨fun hp hup => ?rekey, fun hp hno => ?rekeyOther, fun hses r hr => ?uncovered, fun hses => ⟨fun hj => ⟨?create, ?request⟩,
      fun hj => ⟨?createOut, ?requestOut⟩, fun hm => ?member, fun hm => ⟨fun c hc => ?outside, fun hreq => ?accept⟩, fun h => ?acceptOut⟩⟩
    case rekey =>
      rw [exec_portRekey hw, State.netCommand_idle hidle, State.netCheck_rekey, Nat.mod_eq_of_lt (by omega), if_neg (by simp [hup]; omega)]
      rfl
    case rekeyOther =>
      rw [exec_portRekey hw, State.netCommand_idle hidle, State.netCheck_rekey, Nat.mod_eq_of_lt hp, if_pos hno]
      rfl
    case uncovered =>
      exact (exec_coveredRow_of_code hw hidle hr (State.netCheck_uncovered hses hr)).trans (congrArg ok (s.netAnswer_uncovered r.2))
    case create =>
      refine (hcreate 0 (by rw [State.netCheck_create hses, hj]; rfl)).trans (congrArg ok ?_)
      exact (s.netWaits { op := 1 }).askDraw_eq 64 .netCreate
    case request => exact hrequest 0 (by rw [State.netCheck_request hses, hj]; rfl)
    case createOut => exact hcreate 3 (by rw [State.netCheck_create hses, hj]; rfl)
    case requestOut => exact hrequest 3 (by rw [State.netCheck_request hses, hj]; rfl)
    case outside =>
      simp only [List.mem_cons, List.not_mem_nil, or_false] at hc
      rcases hc with rfl | rfl | rfl | rfl | rfl
      · exact hadmit 3 (by rw [State.netCheck_admit hses, hm]; rfl)
      · exact hleave 3 (by rw [State.netCheck_leave hses, hm]; rfl)
      · exact hexpel 3 (by rw [State.netCheck_expel hses, hm]; rfl)
      · exact hbench 3 (by rw [State.netCheck_bench hses, hm]; rfl)
      · exact hmove 3 (by rw [State.netCheck_moveHome hses, hm]; rfl)
    case accept => exact haccept 0 (by rw [State.netCheck_accept hses, hm, hreq]; rfl)
    case acceptOut => exact haccept 3 (by rw [State.netCheck_accept hses, if_pos h])
    case member =>
      have hnot : ¬s.on R.NET_STS_MEMBER = false := by rw [hm]; decide
      refine ⟨fun hb => ?admitHere, fun hb => ?admitOther, fun hb hh => ?leave, fun h => ?leaveOther,
        fun hin => ⟨fun hb => ⟨?expel, ?bench⟩, fun hb => ⟨?expelOther, ?benchOther⟩⟩, fun hout => ⟨?expelNone, ?benchNone⟩,
        fun hh => ?move, fun hh => ?moveOther⟩
      case admitHere => exact hadmit 0 (by rw [State.netCheck_admit hses, if_neg hnot, show s.on R.NET_STS_BENCH = true from hb]; rfl)
      case admitOther => exact hadmit 7 (by rw [State.netCheck_admit hses, if_neg hnot, if_pos (Bool.eq_false_iff.2 hb)])
      case leave =>
        exact hleave 0 (by rw [State.netCheck_leave hses, if_neg hnot, if_neg fun h => h.elim hb (· hh)])
      case leaveOther => exact hleave 7 (by rw [State.netCheck_leave hses, if_neg hnot, if_pos h])
      case expel =>
        exact hexpel 0 (by
          rw [State.netCheck_expel hses, if_neg hnot, if_neg (not_not_intro hin), show s.on R.NET_STS_BENCH = true from hb]; rfl)
      case bench =>
        exact hbench 0 (by
          rw [State.netCheck_bench hses, if_neg hnot, if_neg (not_not_intro hin), show s.on R.NET_STS_BENCH = true from hb]; rfl)
      case expelOther =>
        exact hexpel 7 (by
          rw [State.netCheck_expel hses, if_neg hnot, if_neg (not_not_intro hin), if_pos (Bool.eq_false_iff.2 hb)])
      case benchOther =>
        exact hbench 7 (by
          rw [State.netCheck_bench hses, if_neg hnot, if_neg (not_not_intro hin), if_pos (Bool.eq_false_iff.2 hb)])
      case expelNone => exact hexpel 5 (by rw [State.netCheck_expel hses, if_neg hnot, if_pos hout])
      case benchNone => exact hbench 5 (by rw [State.netCheck_bench hses, if_neg hnot, if_pos hout])
      case move => exact hmove 0 (by rw [State.netCheck_moveHome hses, if_neg hnot, hh]; rfl)
      case moveOther => exact hmove 8 (by rw [State.netCheck_moveHome hses, if_neg hnot, if_pos hh])

end Sys2Proof.Machine

namespace Sys2Proof.Machine

/-! ## What arriving flits change (R349, R350) -/

/-- From `s` to `t` only the ports of the Net and the free numbers change. -/
def State.PortStep (s t : State) : Prop := t = { s with free := t.free, net := { s.net with ports := t.net.ports } }

section
variable {s t u : State}

theorem State.PortStep.refl (s : State) : s.PortStep s := rfl

theorem State.PortStep.trans (h : s.PortStep t) (g : t.PortStep u) : s.PortStep u := by
  rw [State.PortStep] at *
  rw [g, h]

theorem State.PortStep.ofModPort (s : State) (p : Nat) (f : NetPort → NetPort) : s.PortStep (s.modPort p f) := rfl

theorem State.PortStep.ofIdleIn (s : State) (p : Nat) : s.PortStep (s.idleIn p) := by
  unfold State.idleIn
  split <;> rfl

theorem State.PortStep.ofNextFlits (s : State) (p n : Nat) : s.PortStep (s.nextFlits p n) := rfl

theorem State.PortStep.ofGotFlit (s : State) (p : Nat) : s.PortStep (s.gotFlit p) := (State.PortStep.ofIdleIn s p).trans (.ofNextFlits _ p 1)

variable (h : s.PortStep t)
include h

theorem State.PortStep.regs : t.regs = s.regs := by rw [h]
theorem State.PortStep.frameNo : t.frameNo = s.frameNo := by rw [h]
theorem State.PortStep.clk : t.clk = s.clk := by rw [h]
theorem State.PortStep.stepTo : t.net.stepTo = s.net.stepTo := by rw [h]
theorem State.PortStep.netId : t.net.netId = s.net.netId := by rw [h]
theorem State.PortStep.nrk : t.net.nrk = s.net.nrk := by rw [h]
theorem State.PortStep.sent : t.net.sent = s.net.sent := by rw [h]
theorem State.PortStep.aligning : t.net.aligning = s.net.aligning := by rw [h]
theorem State.PortStep.net : t.net = { s.net with ports := t.net.ports } := congrArg State.net h

theorem State.PortStep.get (f : Field) (i : Nat) : t.get f i = s.get f i := State.get_of_regs h.regs f i

theorem State.PortStep.on (f : Field) (i : Nat) : t.on f i = s.on f i := congrArg (· != 0) (h.get f i)

theorem State.PortStep.netRuns : t.netRuns = s.netRuns := by rw [State.netRuns, State.netRuns, h.get, h.clk]

theorem State.PortStep.netUp (p : Nat) : t.netUp p = s.netUp p := by
  rw [State.netUp, State.netUp, h.netRuns, State.portState, State.portState, h.get]

theorem State.PortStep.netSilent : t.netSilent = s.netSilent := by
  rw [State.netSilent, State.netSilent, h.get, h.on, h.on, h.clk]

end

theorem State.netUp_iff (s : State) (p : Nat) : s.netUp p = true ↔ s.netRuns = true ∧ s.get R.NET_PORT_STS_STATE p = 3 := by
  simp [State.netUp, State.portState]

/-! ## Messages (R354 to R356) -/

/-- The state in which the flits of a message have arrived on a port. -/
def State.messageIn (s : State) (p : Nat) (body : NetBody) : State := (s.idleIn p).nextFlits p (messageFlits body)

theorem State.PortStep.ofMessageIn (s : State) (p : Nat) (body : NetBody) : s.PortStep (s.messageIn p body) :=
  (State.PortStep.ofIdleIn s p).trans (.ofNextFlits _ p _)

/-- A message is taken: messages are spoken, by a member, from a member, with a new counter and the right tag (R355). -/
def State.messageGood (s : State) (h : NetHeader) (body : NetBody) : Prop :=
  s.netSilent = false ∧ s.on R.NET_STS_MEMBER = true ∧ s.get R.NET_MEMBER_STATE h.src = 1 ∧ s.net.counterOk h = true ∧
    h.tag = (messageSeal s.net.nrk h.src h.dst h.bcast h.counter h.boot body).2

/-- Arriving flits leave what the check of a message reads. -/
theorem State.PortStep.messageGood {s t : State} (g : s.PortStep t) (h : NetHeader) (body : NetBody) :
    t.messageGood h body ↔ s.messageGood h body := by
  have hok : t.net.counterOk h = s.net.counterOk h := by rw [g.net]; rfl
  have hnrk : t.net.nrk = s.net.nrk := by rw [g.net]
  rw [State.messageGood, State.messageGood, g.netSilent, g.on, g.get, hok, hnrk]

theorem State.messageGood_iff (s : State) (h : NetHeader) (body : NetBody) :
    s.messageGood h body ↔ ¬(s.netSilent = true ∨ (!s.on R.NET_STS_MEMBER) = true ∨ s.get R.NET_MEMBER_STATE h.src ≠ 1 ∨
      (!s.net.counterOk h) = true ∨ (!tagHolds h s.net.nrk body) = true) := by
  simp [State.messageGood, tagHolds]

/-- Where no port carries flits under a key no message arrives. -/
theorem State.takeMessage_of_down {s : State} {h : NetHeader} {p : Nat} (hport : h.port = some p)
    (hup : ¬(p < 4 ∧ s.netUp p = true)) (body : NetBody) (use : State → State) : s.takeMessage h body use = s := by
  rw [State.takeMessage, State.arrives, hport]
  dsimp only
  rw [if_neg hup]

section
variable {s : State} {h : NetHeader} {p : Nat} (hport : h.port = some p) (hup : p < 4 ∧ s.netUp p = true)
include hport hup

theorem State.arrives_direct (body : NetBody) : s.arrives h body = some (s.messageIn p body) := by
  rw [State.arrives, hport]
  exact if_pos hup

/-- A message with a failing check is dropped and reported (R355). -/
theorem State.takeMessage_dropped {body : NetBody} (hbad : ¬s.messageGood h body) (use : State → State) :
    s.takeMessage h body use = (s.messageIn p body).netErr R.NET_ERR_STS_MSG_DROP p h.src 0 := by
  have hcond := mt (State.messageGood_iff (s.messageIn p body) h body).2 (mt ((State.PortStep.ofMessageIn s p body).messageGood h body).1 hbad)
  rw [State.takeMessage, State.arrives_direct hport hup]
  refine (if_pos (not_not.1 hcond)).trans ?_
  rw [hport]
  rfl

/-- One that is taken is carried on where it must be, and used where it is for this member (R355). -/
theorem State.takeMessage_taken {body : NetBody} (hgood : s.messageGood h body) (use : State → State) :
    s.takeMessage h body use =
      let u := { s.messageIn p body with net := (s.messageIn p body).net.accept h }
      let mine := h.bcast || h.dst == s.get R.NET_STS_ID
      let v := if !mine ∨ (h.bcast ∧ h.port.isSome) then
          u.carry h.src h.dst h.bcast h.counter h.boot body (if h.bcast then h.port else none)
        else u
      if mine then use v else v := by
  have hcond := (State.messageGood_iff (s.messageIn p body) h body).1 (((State.PortStep.ofMessageIn s p body).messageGood h body).2 hgood)
  rw [State.takeMessage, State.arrives_direct hport hup]
  refine (if_neg hcond).trans ?_
  have hid : (s.messageIn p body).get R.NET_STS_ID = s.get R.NET_STS_ID := (State.PortStep.ofMessageIn s p body).get _ 0
  rw [← hid]
  rfl

end

/-- Settles O58: a message taken, carried on, broadcast or dropped on a direct port, and none on a port that is not up. -/
theorem netMessages : Obligations.NetMessages := by
  unfold Obligations.NetMessages
  intro s h p bench frame elapsed slice rseq seq rows record digest slices hport received got taken good
  have hrow : ∀ r ∈ received, exec r.1 s = ok (s.takeMessage h r.2.1 r.2.2) := by
    simp only [received, List.forall_mem_cons]
    exact ⟨rfl, rfl, rfl, rfl, rfl, rfl, rfl, rfl, rfl, fun _ hr => absurd hr (List.not_mem_nil)⟩
  refine ⟨fun hp hruns hst r hr => ⟨fun hgood hb => ⟨fun hdst => ?mine, fun hdst => ?other⟩, fun hgood hb => ?broadcast,
    fun hbad => ?dropped⟩, fun hdown r hr => ?down⟩
  case mine =>
    refine (hrow r hr).trans (congrArg ok ((State.takeMessage_taken hport ⟨hp, (s.netUp_iff p).2 ⟨hruns, hst⟩⟩ hgood r.2.2).trans ?_))
    simp [hb, hdst]
    rfl
  case other =>
    refine (hrow r hr).trans (congrArg ok ((State.takeMessage_taken hport ⟨hp, (s.netUp_iff p).2 ⟨hruns, hst⟩⟩ hgood r.2.2).trans ?_))
    simp [hb, hdst]
    rfl
  case broadcast =>
    refine (hrow r hr).trans (congrArg ok ((State.takeMessage_taken hport ⟨hp, (s.netUp_iff p).2 ⟨hruns, hst⟩⟩ hgood r.2.2).trans ?_))
    simp [hb, hport]
    rfl
  case dropped =>
    exact (hrow r hr).trans (congrArg ok (State.takeMessage_dropped hport ⟨hp, (s.netUp_iff p).2 ⟨hruns, hst⟩⟩ hbad r.2.2))
  case down =>
    refine (hrow r hr).trans (congrArg ok (State.takeMessage_of_down hport (fun ⟨hp, hup⟩ => ?_) r.2.1 r.2.2))
    obtain ⟨hruns, hst⟩ := (s.netUp_iff p).1 hup
    rcases hdown with h | h | h
    · omega
    · exact Bool.false_ne_true (h.symm.trans hruns)
    · exact h hst

end Sys2Proof.Machine

namespace Sys2Proof.Machine

/-! ## Ports of the Net (R349, R350) -/

theorem State.port_modPort (s : State) (p o : Nat) (f : NetPort → NetPort) :
    (s.modPort p f).port o = if p = o then f (s.port o) else s.port o := by
  refine (Tab.get_upd _ _ p o f).trans ?_
  by_cases h : p = o
  · subst h; rfl
  · rw [if_neg h, if_neg h]; rfl

@[simp] theorem State.port_modPort_self (s : State) (p : Nat) (f : NetPort → NetPort) : (s.modPort p f).port p = f (s.port p) := by
  rw [State.port_modPort, if_pos rfl]

theorem State.port_modPort_other (s : State) {p o : Nat} (f : NetPort → NetPort) (h : o ≠ p) : (s.modPort p f).port o = s.port o := by
  rw [State.port_modPort, if_neg (Ne.symm h)]

/-- Sending leaves of a port all but its sequence number, its counts and its replay buffer. -/
def NetPort.SentOn (x y : NetPort) : Prop := y = { x with txSeq := y.txSeq, sent := y.sent, txSlot := y.txSlot, replay := y.replay }

theorem NetPort.SentOn.trans {x y z : NetPort} (h : x.SentOn y) (g : y.SentOn z) : x.SentOn z := by
  rw [NetPort.SentOn] at *
  rw [g, h]

section
variable {x y : NetPort} (h : x.SentOn y)
include h

theorem NetPort.SentOn.key : y.key = x.key := by rw [h]
theorem NetPort.SentOn.next : y.next = x.next := by rw [h]
theorem NetPort.SentOn.peer : y.peer = x.peer := by rw [h]
theorem NetPort.SentOn.routes : y.routes = x.routes := by rw [h]
theorem NetPort.SentOn.rxSwitch : y.rxSwitch = x.rxSwitch := by rw [h]
theorem NetPort.SentOn.txSwitch : y.txSwitch = x.txSwitch := by rw [h]
theorem NetPort.SentOn.acked : y.acked = x.acked := by rw [h]
theorem NetPort.SentOn.rxSeq : y.rxSeq = x.rxSeq := by rw [h]
theorem NetPort.SentOn.flitFails : y.flitFails = x.flitFails := by rw [h]

end

/-! ## What sending changes (R350 to R356) -/

/-- From `s` to `t` flits and messages are sent: the host interface, the free numbers, what went out, and of the registers
none of a port or a slice. -/
structure State.SendStep (s t : State) : Prop where
  rest : t = { s with free := t.free, regs := t.regs, hif := t.hif, net := { s.net with
    ports := t.net.ports, wire := t.net.wire, sent := t.net.sent, counter := t.net.counter } }
  regs : ∀ k, 0x130100 ≤ k / 64 → k / 64 < 0x134000 → Tab.get 0 t.regs k = Tab.get 0 s.regs k
  ports : ∀ o, (s.port o).SentOn (t.port o)

theorem State.SendStep.refl (s : State) : s.SendStep s := ⟨rfl, fun _ _ _ => rfl, fun _ => rfl⟩

theorem State.SendStep.trans {s t u : State} (h : s.SendStep t) (g : t.SendStep u) : s.SendStep u :=
  ⟨by rw [g.rest, h.rest], fun k h1 h2 => (g.regs k h1 h2).trans (h.regs k h1 h2), fun o => (h.ports o).trans (g.ports o)⟩

section
variable {s t : State} (h : s.SendStep t)
include h

theorem State.SendStep.frameNo : t.frameNo = s.frameNo := by rw [h.rest]
theorem State.SendStep.slices : t.net.slices = s.net.slices := by rw [h.rest]
theorem State.SendStep.repl (n : Nat) : t.repl n = s.repl n := congrArg (fun l => Tab.get ({} : Repl) l n) h.slices

/-- A register field of a port or a slice reads as before. -/
theorem State.SendStep.get (f : Field) (i : Nat) (h1 : 0x130100 ≤ f.key i / 64) (h2 : f.key i / 64 < 0x134000) :
    t.get f i = s.get f i := by
  rw [State.get, State.get, h.regs _ h1 h2]

end

theorem State.SendStep.ofFold {α : Type} {f : State → α → State} (h : ∀ (t : State) (x : α), t.SendStep (f t x)) (l : List α)
    (s : State) : s.SendStep (l.foldl f s) := by
  induction l generalizing s with
  | nil => exact .refl s
  | cons x l ih => exact (h s x).trans (ih _)

theorem State.SendStep.ofSet (s : State) (f : Field) (i v : Nat) (h : f.key i / 64 < 0x130100 ∨ 0x134000 ≤ f.key i / 64) :
    s.SendStep (s.set f i v) :=
  ⟨rfl, fun k h1 h2 => Tab.get_put_other _ _ _ (by rintro rfl; omega), fun _ => rfl⟩

theorem State.SendStep.ofPost (s : State) (p : Post) : s.SendStep (s.post p) := by
  unfold State.post; split <;> exact ⟨rfl, fun _ _ _ => rfl, fun _ => rfl⟩

theorem State.SendStep.ofRaise (s : State) (v : Nat) : s.SendStep (s.raise v) := by
  unfold State.raise State.msix; split
  · exact .ofPost ..
  · exact ⟨rfl, fun _ _ _ => rfl, fun _ => rfl⟩

theorem State.SendStep.ofEvent (s : State) {f : Field} (en : Field) (v m : Nat) (h : f.key 0 / 64 < 0x130100 ∨ 0x134000 ≤ f.key 0 / 64) :
    s.SendStep (s.event f en v m) := by
  simp only [State.event]
  split
  · exact .ofSet _ f 0 _ h
  · exact (State.SendStep.ofSet _ f 0 _ h).trans (.ofRaise ..)

theorem State.SendStep.ofNetErr (s : State) {f : Field} (h : f.key 0 / 64 = 0x130018) (port member slice : Nat) :
    s.SendStep (s.netErr f port member slice) := by
  have hcap : s.SendStep (if s.storedAt 0x130018 = 0 then
      (((s.set R.NET_ERR_INFO_CAUSE 0 f.lo).set R.NET_ERR_INFO_PORT 0 port).set R.NET_ERR_INFO_MEMBER 0 member).set
        R.NET_ERR_INFO_SLICE 0 slice else s) := by
    split
    · exact (((State.SendStep.ofSet _ _ _ _ (by decide)).trans (.ofSet _ _ _ _ (by decide))).trans (.ofSet _ _ _ _ (by decide))).trans
        (.ofSet _ _ _ _ (by decide))
    · exact .refl s
  exact hcap.trans (.ofEvent _ _ _ _ (.inl (by omega)))

theorem State.SendStep.ofModPort (s : State) (p : Nat) {f : NetPort → NetPort} (h : ∀ x : NetPort, x.SentOn (f x)) :
    s.SendStep (s.modPort p f) := by
  refine ⟨rfl, fun _ _ _ => rfl, fun o => ?_⟩
  rw [State.port_modPort]
  split
  · exact h _
  · rfl

theorem State.SendStep.ofNetTx (s : State) (x : NetTx) : s.SendStep (s.netTx x) := ⟨rfl, fun _ _ _ => rfl, fun _ => rfl⟩

theorem State.SendStep.ofFresh (s : State) : s.SendStep s.fresh.2 := ⟨rfl, fun _ _ _ => rfl, fun _ => rfl⟩

theorem State.SendStep.ofSendFlit (s : State) (p room : Nat) : s.SendStep (s.sendFlit p room).2 :=
  (State.SendStep.ofFresh s).trans (.ofModPort _ p fun _ => rfl)

theorem State.SendStep.ofPutFlit (s : State) (p q : Nat) (payload : Bytes) : s.SendStep (s.putFlit p q payload) :=
  (State.SendStep.ofModPort s p (f := fun x => { x with replay := (x.replay.filter (fun e => decide (q < e.1 + 2048))) ++ [(q, payload)] })
    fun _ => rfl).trans ⟨rfl, fun _ _ _ => rfl, fun _ => rfl⟩

theorem State.SendStep.ofPutFlits (p : Nat) (l : List Bytes) (s : State) (q : Nat) : s.SendStep (s.putFlits p q l) := by
  induction l generalizing s q with
  | nil => exact .refl s
  | cons b l ih => exact (State.SendStep.ofPutFlit s p q b).trans (ih _ _)

theorem State.SendStep.ofSendControl (s : State) (p : Nat) (x : NetTx) : s.SendStep (s.sendControl p x) :=
  ((State.SendStep.ofSendFlit s p 4375).trans (.ofPutFlit ..)).trans (.ofNetTx ..)

theorem State.SendStep.ofTunnelPut (s : State) (src dst : Nat) (bcast : Bool) (counter : Nat) (boot : Bytes) (body : NetBody) :
    s.SendStep (s.tunnelPut src dst bcast counter boot body) := by
  unfold State.tunnelPut
  split
  · exact .refl s
  · dsimp only
    split
    · exact .ofNetErr s (by decide) ..
    · exact ((State.SendStep.ofPost s _).trans (.ofSet _ _ _ _ (by decide))).trans (.ofNetTx ..)

theorem State.SendStep.ofPortPut (s : State) (p src dst : Nat) (bcast : Bool) (counter : Nat) (boot : Bytes) (body : NetBody) :
    s.SendStep (s.portPut p src dst bcast counter boot body) := by
  unfold State.portPut
  split
  · exact (((State.SendStep.ofSendFlit s p 4375).trans (.ofModPort _ p (f := fun x => { x with
      txSeq := (x.txSeq + (messageFlits body - 1)) % 2 ^ 48, sent := x.sent + (messageFlits body - 1),
      txSlot := x.txSlot + (messageFlits body - 1) }) fun _ => rfl)).trans (.ofPutFlits ..)).trans (.ofNetTx ..)
  · exact .refl s

theorem State.SendStep.ofCarry (s : State) (src dst : Nat) (bcast : Bool) (counter : Nat) (boot : Bytes) (body : NetBody) (came : Option Nat) :
    s.SendStep (s.carry src dst bcast counter boot body came) := by
  unfold State.carry
  split
  · exact (State.SendStep.ofFold (fun t p => .ofPortPut t p ..) _ s).trans (.ofTunnelPut ..)
  · split
    · exact .ofPortPut ..
    · exact .ofTunnelPut ..

theorem State.SendStep.ofSendMsg (s : State) (dst : Nat) (bcast : Bool) (body : NetBody) : s.SendStep (s.sendMsg dst bcast body) := by
  unfold State.sendMsg
  split
  · exact .refl s
  · exact State.SendStep.trans (t := { s with net := { s.net with counter := s.net.counter + 1 } })
      ⟨rfl, fun _ _ _ => rfl, fun _ => rfl⟩ (.ofCarry ..)

end Sys2Proof.Machine

namespace Sys2Proof.Machine

/-! ## Flits of a live link (R349, R350) -/

theorem State.portLive_iff (s : State) (p : Nat) : s.portLive p = true ↔
    s.netRuns = true ∧ (s.get R.NET_PORT_STS_STATE p = 2 ∨ s.get R.NET_PORT_STS_STATE p = 3) := by
  simp [State.portLive, State.portState]

theorem State.withFlit_live {s : State} {p : Nat}
    (h : p < 4 ∧ s.netRuns = true ∧ (s.get R.NET_PORT_STS_STATE p = 2 ∨ s.get R.NET_PORT_STS_STATE p = 3)) (use : State → State) :
    s.withFlit p use = use (s.gotFlit p) := if_pos ⟨h.1, (s.portLive_iff p).2 h.2⟩

theorem State.withFlit_dead {s : State} {p : Nat}
    (h : ¬(p < 4 ∧ s.netRuns = true ∧ (s.get R.NET_PORT_STS_STATE p = 2 ∨ s.get R.NET_PORT_STS_STATE p = 3))) (use : State → State) :
    s.withFlit p use = s := if_neg fun ⟨hp, hlive⟩ => h ⟨hp, (s.portLive_iff p).1 hlive⟩

/-! ## The frame step (R361) -/

section
variable (s : State) (d : Nat)

theorem State.shiftFrames_frameNo : (s.shiftFrames d).frameNo = s.frameNo + d :=
  iteInduction (motive := fun t : State => t.frameNo = s.frameNo + d) (fun _ => rfl) (fun _ => rfl)

theorem State.shiftFrames_stepTo : (s.shiftFrames d).net.stepTo = s.net.stepTo :=
  iteInduction (motive := fun t : State => t.net.stepTo = s.net.stepTo) (fun _ => rfl) (fun _ => rfl)

theorem State.shiftFrames_aligning : (s.shiftFrames d).net.aligning = s.net.aligning :=
  iteInduction (motive := fun t : State => t.net.aligning = s.net.aligning) (fun _ => rfl) (fun _ => rfl)

theorem State.shiftFrames_sessions :
    (s.shiftFrames d).sessions = s.sessions.map (fun e => (e.1, { e.2 with start := e.2.start + d })) :=
  iteInduction (motive := fun t : State => t.sessions = s.sessions.map (fun e => (e.1, { e.2 with start := e.2.start + d })))
    (fun _ => rfl) (fun _ => rfl)

theorem State.shiftFrames_dues : (s.shiftFrames d).trv.cmds.map (fun c => (c.id, c.st, c.due)) =
    s.trv.cmds.map (fun c => (c.id, c.st, if c.isHeld then c.due else c.due + d)) :=
  iteInduction (motive := fun t : State => t.trv.cmds.map (fun c => (c.id, c.st, c.due)) =
    s.trv.cmds.map (fun c => (c.id, c.st, if c.isHeld then c.due else c.due + d)))
    (fun _ => List.map_map) (fun _ => List.map_map)

theorem State.shiftFrames_calEnd : (s.shiftFrames d).trv.calEnd = s.trv.calEnd + d :=
  iteInduction (motive := fun t : State => t.trv.calEnd = s.trv.calEnd + d) (fun _ => rfl) (fun _ => rfl)

theorem State.shiftFrames_datum : (s.shiftFrames d).ks.datum = s.ks.datum :=
  iteInduction (motive := fun t : State => t.ks.datum = s.ks.datum) (fun _ => rfl) (fun _ => rfl)

theorem State.shiftFrames_otp : (s.shiftFrames d).otp = s.otp :=
  iteInduction (motive := fun t : State => t.otp = s.otp) (fun _ => rfl) (fun _ => rfl)

end

/-- The state with its frames raised to the number the Net gave, and the device aligned. -/
def State.steppedTo (s : State) (k : Nat) : State :=
  (({ s with net := { s.net with stepTo := none, aligning := false } }).shiftFrames (k - (s.frameNo + 1))).set R.NET_STS_ALIGNED 0 1

section
variable {s : State} {k : Nat} (hstep : s.net.stepTo = some k)
include hstep

/-- The frame step is recorded. -/
theorem State.stepFrames_log : (s.steppedTo k).LogStep s.stepFrames := by
  rw [State.stepFrames, hstep]
  exact State.LogStep.ofRecord ..

theorem State.stepFrames_frameNo (hk : s.frameNo < k) : s.stepFrames.frameNo + 1 = k := by
  rw [(State.stepFrames_log hstep).frameNo, State.steppedTo, State.set_frameNo, State.shiftFrames_frameNo]
  dsimp only
  omega

theorem State.stepFrames_aligned : s.stepFrames.get R.NET_STS_ALIGNED = 1 :=
  ((State.stepFrames_log hstep).get _ _ (by decide)).trans (State.get_set_self _ _ _ _ (by decide))

theorem exec_frameStep_of_some : exec .frameStep s = ok (s.mark .frameStep true) :=
  congrArg (fun b => ok (s.mark .frameStep b)) (congrArg Option.isSome hstep)

end

/-! ## Marks (R360, R361) -/

theorem State.markChoice_rest (s : State) : s.markChoice = { s with regs := s.markChoice.regs } := by
  unfold State.markChoice; dsimp only; split <;> rfl

theorem State.markChoice_aligned (s : State) : s.markChoice.on R.NET_STS_ALIGNED = s.on R.NET_STS_ALIGNED := by
  unfold State.markChoice
  dsimp only
  split
  · rw [State.on_set_other _ _ _ _ _ _ (by decide), State.on_set_other _ _ _ _ _ _ (by decide)]
  · rfl

/-- A mark in first transmission heard on a port. -/
def State.heard (s : State) (p : Nat) (m : MarkFlit) : State :=
  (({ s with net := { s.net with markless := 0 } }).modPort p (fun x => { x with markHops := some (m.hops % 256) })).markChoice

theorem State.heard_rest (s : State) (p : Nat) (m : MarkFlit) : s.heard p m = { s with
    regs := (s.heard p m).regs
    net := { s.net with markless := 0, ports := Tab.upd {} s.net.ports p (fun x => { x with markHops := some (m.hops % 256) }) } } :=
  State.markChoice_rest _

theorem State.heard_markHops (s : State) (p : Nat) (m : MarkFlit) : ((s.heard p m).port p).markHops = some (m.hops % 256) := by
  rw [State.heard_rest]
  exact congrArg NetPort.markHops (State.port_modPort_self s p (fun x => { x with markHops := some (m.hops % 256) }))

/-- A mark that is used for timing: of a port that is UP, in first transmission. -/
theorem State.tookMark_first {s : State} {p : Nat} {m : MarkFlit} (hup : s.netUp p = true) (hs : s.netSilent = false) (hm : m.first = true) :
    s.tookMark p m = if (s.heard p m).get R.NET_STS_MARK_PORT = p ∨ (s.heard p m).net.aligning = true then
      (s.heard p m).netNumber (m.frame + m.elapsed) else s.heard p m :=
  if_pos ⟨hup, by rw [hs]; rfl, hm⟩

/-- In ALIGNING it gives the boundary to come its number. -/
theorem State.tookMark_aligning {s : State} {p : Nat} {m : MarkFlit} (hup : s.netUp p = true) (hs : s.netSilent = false)
    (hm : m.first = true) (ha : s.net.aligning = true) :
    s.tookMark p m = { s.heard p m with net := { (s.heard p m).net with stepTo := some (m.frame + m.elapsed) } } := by
  have haligning : (s.heard p m).net.aligning = true := (congrArg (·.net.aligning) (s.heard_rest p m)).trans ha
  rw [State.tookMark_first hup hs hm, if_pos (.inr haligning)]
  exact if_pos haligning

/-- A member neither in ALIGNING nor aligned takes no number from it. -/
theorem State.tookMark_unaligned {s : State} {p : Nat} {m : MarkFlit} (hup : s.netUp p = true) (hs : s.netSilent = false)
    (hm : m.first = true) (ha : s.net.aligning = false) (hon : s.on R.NET_STS_ALIGNED = false) : s.tookMark p m = s.heard p m := by
  have haligning : (s.heard p m).net.aligning = false := (congrArg (·.net.aligning) (s.heard_rest p m)).trans ha
  have haligned : (s.heard p m).on R.NET_STS_ALIGNED = false := (State.markChoice_aligned _).trans hon
  have hnumber : (s.heard p m).netNumber (m.frame + m.elapsed) = s.heard p m := by
    rw [State.netNumber, haligning, haligned]
    rfl
  rw [State.tookMark_first hup hs hm, hnumber, ite_self]

theorem State.tookMark_unused {s : State} {p : Nat} {m : MarkFlit}
    (h : m.first = false ∨ s.netUp p = false ∨ s.netSilent = true) : s.tookMark p m = s := by
  refine if_neg ?_
  rintro ⟨hup, hs, hm⟩
  rcases h with h | h | h
  · exact Bool.false_ne_true (h.symm.trans hm)
  · exact Bool.false_ne_true (h.symm.trans hup)
  · rw [h] at hs; exact Bool.false_ne_true hs

/-! ## Leases (R364) -/

/-- A slice replicated here whose home is another member, with a lease. -/
def State.leased (s : State) (n : Nat) : Prop :=
  s.on R.NET_STS_MEMBER = true ∧ s.on R.NET_SLICE_REPL n = true ∧ s.get R.NET_SLICE_HOME n ≠ s.get R.NET_STS_ID ∧
    s.on R.NET_SLICE_LEASE_OK n = true

theorem State.lapse_of_out {s : State} {n : Nat} (h : s.leased n) (hout : (s.repl n).lease ≤ s.frameNo) :
    s.lapse n = if s.netRuns then
      ((s.set R.NET_SLICE_LEASE_OK n 0).setLapsed n true).netErr R.NET_ERR_STS_LEASE 0 (s.get R.NET_SLICE_HOME n) n
      else s.setLapsed n true := by
  obtain ⟨hmember, hrepl, hhome, hok⟩ := h
  exact if_pos ⟨hmember, hrepl, by simp [State.isHome, hhome], hok, hout⟩

theorem State.setLapsed_mem (s : State) (n : Nat) : n ∈ (s.setLapsed n true).net.lapsed := by
  show n ∈ if s.net.lapsed.contains n then s.net.lapsed else s.net.lapsed ++ [n]
  split
  case isTrue h => exact List.contains_iff_mem.1 h
  case isFalse => simp

theorem State.netErr_net (s : State) (f : Field) (port member slice : Nat) : (s.netErr f port member slice).net = s.net := by
  unfold State.netErr
  dsimp only
  rw [State.event_net]
  split <;> rfl

theorem State.lapse_lapsed {s : State} {n : Nat} (h : s.leased n) (hout : (s.repl n).lease ≤ s.frameNo) : n ∈ (s.lapse n).net.lapsed := by
  rw [State.lapse_of_out h hout]
  split
  · rw [State.netErr_net]; exact State.setLapsed_mem ..
  · exact State.setLapsed_mem ..

/-! ## Records resent and gaps (R363) -/

theorem State.repl_modRepl (s : State) (n i : Nat) (f : Repl → Repl) :
    (s.modRepl n f).repl i = if n = i then f (s.repl i) else s.repl i := by
  refine (Tab.get_upd _ _ n i f).trans ?_
  by_cases h : n = i
  · subst h; rfl
  · rw [if_neg h, if_neg h]; rfl

/-- The records of a slice with those due in frame `f` stamped with it. -/
def stamped (f : Nat) (l : List SentRec) : List SentRec := l.map (fun e => if e.frame + 1024 ≤ f then { e with frame := f } else e)

theorem stamped_of_fresh {f : Nat} {l : List SentRec} (h : ∀ e ∈ l, f < e.frame + 1024) : stamped f l = l :=
  (List.map_congr_left fun e he => if_neg (Nat.not_le.2 (h e he))).trans (List.map_id l)

/-- A record just stamped is not due. -/
theorem stamped_stamped (f : Nat) (l : List SentRec) : stamped f (stamped f l) = stamped f l := by
  refine stamped_of_fresh fun e he => ?_
  obtain ⟨x, -, rfl⟩ := List.mem_map.1 he
  split
  · dsimp only; omega
  · omega

theorem State.resendSlice_of_fresh {s : State} {n : Nat} (h : ∀ e ∈ (s.repl n).sent, s.frameNo < e.frame + 1024) : s.resendSlice n = s := by
  have hdue : (s.repl n).sent.filter (fun e => decide (e.frame + 1024 ≤ s.frameNo)) = [] :=
    List.filter_eq_nil_iff.2 fun e he => by have := h e he; simp; omega
  rw [State.resendSlice, hdue]
  rfl

/-- The records due of a slice go out again and are stamped. -/
theorem State.resendSlice_stamps (s : State) (n : Nat) : (s.resendSlice n).frameNo = s.frameNo ∧
    ∀ i, ((s.resendSlice n).repl i).sent = if n = i then stamped s.frameNo (s.repl i).sent else (s.repl i).sent := by
  unfold State.resendSlice
  dsimp only
  split
  case isTrue hdue =>
    refine ⟨rfl, fun i => ?_⟩
    split
    case isTrue hi =>
      subst hi
      exact (stamped_of_fresh fun e he => by
        have := List.filter_eq_nil_iff.1 hdue e he
        simp at this; omega).symm
    case isFalse => rfl
  case isFalse =>
    have hsend := State.SendStep.ofFold (f := fun u (e : SentRec) => e.pend.foldl (fun v m => v.sendMsg m false (.domain e.record)) u)
      (fun u e => .ofFold (fun v m => .ofSendMsg v m false _) e.pend u)
      ((s.repl n).sent.filter (fun e => decide (e.frame + 1024 ≤ s.frameNo))) s
    refine ⟨hsend.frameNo, fun i => ?_⟩
    rw [State.repl_modRepl, hsend.repl]
    split <;> rfl

theorem State.resendFold_stamps (l : List Nat) (s : State) : (l.foldl (fun t n => t.resendSlice n) s).frameNo = s.frameNo ∧
    ∀ i, ((l.foldl (fun t n => t.resendSlice n) s).repl i).sent = if i ∈ l then stamped s.frameNo (s.repl i).sent else (s.repl i).sent := by
  induction l generalizing s with
  | nil => exact ⟨rfl, fun i => rfl⟩
  | cons n l ih =>
    obtain ⟨hframe, hsent⟩ := s.resendSlice_stamps n
    obtain ⟨hframes, hsents⟩ := ih (s.resendSlice n)
    refine ⟨hframes.trans hframe, fun i => (hsents i).trans ?_⟩
    rw [hframe, hsent]
    by_cases hn : n = i
    · subst hn
      simp [stamped_stamped]
    · simp [hn, Ne.symm hn]

theorem Tab.get_of_unlisted {α : Type} (d : α) {t : Tab α} {k : Nat} (h : k ∉ t.map Prod.fst) : Tab.get d t k = d := by
  induction t with
  | nil => rfl
  | cons e t ih =>
    rw [List.map_cons, List.mem_cons, not_or] at h
    exact (if_neg (Ne.symm h.1)).trans (ih h.2)

theorem State.resendAll_stamps {s : State} (hruns : s.netRuns = true) (i : Nat) :
    (s.resendAll.repl i).sent = stamped s.frameNo (s.repl i).sent := by
  rw [State.resendAll, if_pos hruns, (State.resendFold_stamps _ s).2 i]
  split
  case isTrue => rfl
  case isFalse hi =>
    rw [show s.repl i = {} from Tab.get_of_unlisted _ hi]
    rfl

theorem State.resendAll_of_fresh {s : State} (h : s.netRuns = false ∨ ∀ i, ∀ e ∈ (s.repl i).sent, s.frameNo < e.frame + 1024) :
    s.resendAll = s := by
  rcases h with h | h
  · exact if_neg (by rw [h]; decide)
  · rw [State.resendAll, List.foldl_fixed' (fun n => State.resendSlice_of_fresh (h n)), ite_self]

/-- A gap that has stood its time asks for SYNC, and its records wait anew. -/
theorem State.gapSync_waiting {s : State} {n : Nat} (hruns : s.netRuns = true)
    (hgap : (s.repl n).waiting.any (fun e => decide (e.2.1 + 4096 ≤ s.frameNo)) = true) (i : Nat) :
    (s.gapSync n).repl i = if n = i then
      { s.repl i with waiting := (s.repl i).waiting.map (fun e => (e.1, s.frameNo, e.2.2)) } else s.repl i := by
  rw [State.gapSync, if_pos ⟨hruns, hgap⟩, State.repl_modRepl, (State.SendStep.ofSendMsg ..).repl]

/-! ## Join requests (R358) -/

section
variable {s : State} {nonce sc dk : Bytes} {f : Nat} (hreq : s.net.request = some (nonce, f, sc, dk))
include hreq

theorem State.requestExpire_of_old (h : f + 65536 ≤ s.frameNo) : s.requestExpire = { s with net := { s.net with request := none } } := by
  rw [State.requestExpire, State.requested, hreq]
  exact if_neg (by simp only [decide_eq_true_eq]; omega)

theorem State.requestExpire_of_new (h : s.frameNo < f + 65536) : s.requestExpire = s := by
  rw [State.requestExpire, State.requested, hreq]
  exact if_pos (decide_eq_true h)

end

end Sys2Proof.Machine

namespace Sys2Proof.Machine

/-- Settles O59: the frame step, marks, leases, resent records, gaps and join requests, each where it is due and where it is not. -/
theorem netUpkeep : Obligations.NetUpkeep := by
  unfold Obligations.NetUpkeep
  intro s n p m live
  have hport : s.PortStep (s.gotFlit p) := .ofGotFlit s p
  have hup : live → s.get R.NET_PORT_STS_STATE p = 3 → (s.gotFlit p).netUp p = true :=
    fun hl h3 => (hport.netUp p).trans ((s.netUp_iff p).2 ⟨hl.2.1, h3⟩)
  refine ⟨fun hno => ?noStep, fun k hk hlt => ⟨exec_frameStep_of_some hk, ?stepped⟩,
    fun hl h3 hs => ⟨fun hm => ?replayed, fun hm ha => ?aligning, fun hm ha hon => ?unaligned⟩, fun hl h => ?unusable,
    fun hl => ?dead, fun hmember hrepl hhome hok => ⟨fun hout hruns => ?lapses, fun hout hruns => ?lapsesStill, fun hin => ?renewed⟩,
    fun h => ?unleased, fun hruns => ?resent, fun h => ?fresh, fun hruns hgap => ?gap, fun h => ?noGap,
    fun nonce f sc dk hreq => ⟨fun hold => ?old, fun hnew => ?new⟩, fun hreq => ?noRequest⟩
  case noStep =>
    show ok (s.mark .frameStep s.net.stepTo.isSome) = ok s
    rw [hno]
    rfl
  case stepped =>
    have hlog := State.stepFrames_log hk
    refine ⟨State.stepFrames_frameNo hk hlt, ?_, ?_, State.stepFrames_aligned hk, ?_, ?_, ?_, ?_, ?_⟩
    · rw [hlog.net]; exact State.shiftFrames_stepTo ..
    · rw [hlog.net]; exact State.shiftFrames_aligning ..
    · rw [hlog.sessions]; exact State.shiftFrames_sessions ..
    · rw [hlog.trv]; exact State.shiftFrames_dues ..
    · rw [hlog.trv]; exact State.shiftFrames_calEnd ..
    · rw [hlog.ks]; exact State.shiftFrames_datum ..
    · rw [hlog.otp]; exact State.shiftFrames_otp ..
  case replayed => exact congrArg ok ((State.withFlit_live hl _).trans (State.tookMark_unused (.inl hm)))
  case aligning =>
    have haligning : (s.gotFlit p).net.aligning = true := hport.aligning.trans ha
    refine ⟨_, congrArg ok ((State.withFlit_live hl _).trans
      (State.tookMark_aligning (hup hl h3) (hport.netSilent.trans hs) hm haligning)), ?_⟩
    refine ⟨by rw [State.wires_net], by rw [State.wires_net, State.heard_rest], ?_, ?_⟩
    · rw [State.port, State.wires_net]; exact State.heard_markHops ..
    · rw [State.wires_frameNo, State.heard_rest]; exact hport.frameNo
  case unaligned =>
    have haligning : (s.gotFlit p).net.aligning = false := hport.aligning.trans ha
    refine ⟨_, congrArg ok ((State.withFlit_live hl _).trans
      (State.tookMark_unaligned (hup hl h3) (hport.netSilent.trans hs) hm haligning ((hport.on _ 0).trans hon))), ?_⟩
    refine ⟨?_, by rw [State.wires_net, State.heard_rest], ?_⟩
    · rw [State.wires_net, State.heard_rest]; exact hport.stepTo
    · rw [State.port, State.wires_net]; exact State.heard_markHops ..
  case unusable =>
    refine congrArg ok ((State.withFlit_live hl _).trans (State.tookMark_unused ?_))
    rcases h with h2 | hs
    · refine .inr (.inl ((hport.netUp p).trans (Bool.eq_false_iff.2 fun hu => ?_)))
      obtain ⟨-, h3⟩ := (s.netUp_iff p).1 hu
      omega
    · exact .inr (.inr (hport.netSilent.trans hs))
  case dead => exact congrArg ok (State.withFlit_dead hl _)
  case lapses =>
    refine congrArg ok ((State.lapse_of_out ⟨hmember, hrepl, hhome, hok⟩ hout).trans ?_)
    rw [hruns]
    rfl
  case lapsesStill =>
    refine congrArg ok ((State.lapse_of_out ⟨hmember, hrepl, hhome, hok⟩ hout).trans ?_)
    rw [hruns]
    rfl
  case renewed => exact congrArg ok (if_neg fun ⟨_, _, _, _, hout⟩ => by omega)
  case unleased =>
    refine congrArg ok (if_neg ?_)
    rintro ⟨hmember, hrepl, -, hok, -⟩
    simp [hmember, hrepl, hok] at h
  case resent =>
    refine ⟨_, rfl, fun i => ?_⟩
    rw [State.repl, State.wires_net]
    exact State.resendAll_stamps hruns i
  case fresh => exact congrArg ok (State.resendAll_of_fresh h)
  case gap =>
    refine ⟨_, rfl, ?_, fun i hi => ?_⟩
    · rw [State.repl, State.wires_net]
      exact congrArg Repl.waiting ((State.gapSync_waiting hruns hgap n).trans (if_pos rfl))
    · rw [State.repl, State.wires_net]
      exact (State.gapSync_waiting hruns hgap i).trans (if_neg (Ne.symm hi))
  case noGap =>
    refine congrArg ok (if_neg ?_)
    rintro ⟨hruns, hgap⟩
    simp [hruns, hgap] at h
  case old => exact congrArg ok (State.requestExpire_of_old hreq hold)
  case new => exact congrArg ok (State.requestExpire_of_new hreq hnew)
  case noRequest =>
    show ok s.requestExpire = ok s
    rw [State.requestExpire, hreq]

/-- Settles O60: the frame step, a mark, a lapsed lease, a resent record, a gap, a join request and the resets asked for. -/
theorem upkeepAndResetsComplete : Obligations.UpkeepAndResetsComplete := by
  unfold Obligations.UpkeepAndResetsComplete
  intro s drain
  refine ⟨fun k hk hlt => ⟨exec_frameStep_of_some hk, State.stepFrames_frameNo hk hlt, ?aligned⟩, fun p m hp hruns h3 hs hm ha => ?mark,
    fun n hmember hrepl hhome hok hout => ⟨_, rfl, ?lapses⟩, fun hruns => ⟨_, rfl, fun n e he hdue => ?resent⟩,
    fun n f src record hruns hw hgap => ⟨_, rfl, ?gap⟩, fun nonce f sc dk hreq hold => congrArg ok (State.requestExpire_of_old hreq hold),
    fun hw hrst => ⟨_, exec_rstWarm hw drain, ?warm⟩, fun hp hst hlc hso hrst => ⟨_, exec_rstCold hp hst hlc drain, ?cold⟩,
    fun cause hrst hended => ⟨?announced, ?due⟩⟩
  case aligned =>
    rw [State.on, State.stepFrames_aligned hk]
    rfl
  case mark =>
    have hport : s.PortStep (s.gotFlit p) := .ofGotFlit s p
    have haligning : (s.gotFlit p).net.aligning = true := hport.aligning.trans ha
    refine ⟨_, congrArg ok ((State.withFlit_live ⟨hp, hruns, .inr h3⟩ _).trans
      (State.tookMark_aligning ((hport.netUp p).trans ((s.netUp_iff p).2 ⟨hruns, h3⟩)) (hport.netSilent.trans hs) hm haligning)), ?_⟩
    exact ⟨by rw [State.wires_net], by rw [State.wires_net, State.heard_rest]⟩
  case lapses =>
    rw [State.wires_net]
    exact State.lapse_lapsed ⟨hmember, hrepl, hhome, hok⟩ hout
  case resent =>
    rw [State.repl, State.wires_net]
    refine (congrArg (_ ∈ ·) (State.resendAll_stamps hruns n)).mpr (List.mem_map.2 ⟨e, he, if_pos hdue⟩)
  case gap =>
    have hdue : (s.repl n).waiting.any (fun e => decide (e.2.1 + 4096 ≤ s.frameNo)) = true := List.any_eq_true.2 ⟨_, hw, decide_eq_true hgap⟩
    rw [State.repl, State.wires_net]
    refine (congrArg (_ ∈ ·) (congrArg Repl.waiting ((State.gapSync_waiting hruns hdue n).trans (if_pos rfl)))).mpr ?_
    exact List.mem_map.2 ⟨_, hw, rfl⟩
  case warm =>
    rw [State.askDrain_of_none hrst]
    refine ⟨by rw [State.wires_glb], fun hd => ?_⟩
    rw [State.on, State.get_wires _ _ _ (by decide)]
    exact State.obsStopped_on s drain hd
  case cold =>
    rw [if_pos (s.mayCold_iff.2 (.inl hso)), State.askDrain_of_none hrst]
    refine ⟨by rw [State.wires_glb], fun hd => ?_⟩
    rw [State.on, State.get_wires _ _ _ (by decide)]
    exact State.obsStopped_on s drain hd
  case announced =>
    refine exec_resetDrainEnd_of_drained ?_
    rw [State.resetDrained_of hrst, State.drained, hended]
    rfl
  case due =>
    rw [State.resetDue_of hrst, State.drained, hended]
    rfl

end Sys2Proof.Machine

namespace Sys2Proof.Machine

/-! ## Registers of the Net -/

/-- No register of a port or a slice is an output of `wires`. -/
theorem State.get_wires_net (s : State) (f : Field) (i : Nat) (h1 : 0x130100 ≤ f.key i / 64) (h2 : f.key i / 64 < 0x134000) :
    s.wires.get f i = s.get f i := by
  have hout : ∀ k ∈ wiredKeys, k / 64 < 0x130100 ∨ 0x134000 ≤ k / 64 := by decide
  exact State.get_wires s f i fun hk => absurd (hout _ hk) (by omega)

theorem State.port_wires (s : State) (p : Nat) : s.wires.port p = s.port p := by
  rw [State.port, State.wires_net]
  rfl

/-- Fields of one register have keys of their own. -/
theorem key_ne_of_lo {f g : Field} (hlo : f.lo ≠ g.lo) (hoff : f.off = g.off) (hstride : f.stride = g.stride) (i : Nat) : f.key i ≠ g.key i := by
  rw [Field.key, Field.key, hoff, hstride]
  omega

theorem State.get_set_sts (s : State) (f g : Field) (i v : Nat) (hlo : f.lo ≠ g.lo := by decide) (hoff : f.off = g.off := by decide)
    (hstride : f.stride = g.stride := by decide) : (s.set f i v).get g i = s.get g i :=
  State.get_set_other _ _ _ _ _ _ (key_ne_of_lo hlo hoff hstride i)

/-- The keys of NET_PORT_STS of a port of the device. -/
theorem portSts_key {f : Field} {p : Nat} (hp : p < 4) (hoff : f.off = 0x130120) (hstride : f.stride = 4) (hlo : f.lo < 64) :
    0x130100 ≤ f.key p / 64 ∧ f.key p / 64 < 0x134000 := by
  rw [Field.key, hoff, hstride]
  omega

theorem State.SendStep.portSts {s t : State} (h : s.SendStep t) {p : Nat} (hp : p < 4) (f : Field) (hoff : f.off = 0x130120 := by decide)
    (hstride : f.stride = 4 := by decide) (hlo : f.lo < 64 := by decide) : t.get f p = s.get f p := by
  obtain ⟨h1, h2⟩ := portSts_key hp hoff hstride hlo
  exact h.get f p h1 h2

theorem State.wires_portSts (s : State) {p : Nat} (hp : p < 4) (f : Field) (hoff : f.off = 0x130120 := by decide)
    (hstride : f.stride = 4 := by decide) (hlo : f.lo < 64 := by decide) : s.wires.get f p = s.get f p := by
  obtain ⟨h1, h2⟩ := portSts_key hp hoff hstride hlo
  exact s.get_wires_net f p h1 h2

/-! ## Paths (R355) -/

theorem State.SendStep.ofRouteAll (s : State) (m hops : Nat) : s.SendStep (s.routeAll m hops) :=
  .ofFold (fun t p => .ofSendControl t p _) _ s

theorem member_key_high (f : Field) (h : 0x134000 ≤ f.off) (m : Nat) : 0x134000 ≤ f.key m / 64 := by
  rw [Field.key, Nat.le_div_iff_mul_le (by decide)]
  have := Nat.le_add_right f.off (f.stride * m)
  omega

/-- PATH, HOPS and PORT of a member written. -/
theorem State.SendStep.ofMemberPath (s : State) (m path hops port : Nat) :
    s.SendStep (((s.set R.NET_MEMBER_PATH m path).set R.NET_MEMBER_HOPS m hops).set R.NET_MEMBER_PORT m port) :=
  ((State.SendStep.ofSet _ _ m _ (.inr (member_key_high _ (by decide) m))).trans
    (.ofSet _ _ m _ (.inr (member_key_high _ (by decide) m)))).trans (.ofSet _ _ m _ (.inr (member_key_high _ (by decide) m)))

theorem State.SendStep.ofPathOf (s : State) (m : Nat) : s.SendStep (s.pathOf m) := by
  have hput (path hops port : Nat) : s.SendStep (
      let t := ((s.set R.NET_MEMBER_PATH m path).set R.NET_MEMBER_HOPS m hops).set R.NET_MEMBER_PORT m port
      if s.get R.NET_MEMBER_PATH m = 1 ∧ path ≠ 1 then t.routeAll m 15 else t) := by
    dsimp only
    split
    · exact (State.SendStep.ofMemberPath ..).trans (.ofRouteAll ..)
    · exact .ofMemberPath ..
  unfold State.pathOf
  dsimp only
  split
  · exact hput 3 0 0
  · split
    · exact hput 0 0 0
    · split
      · next q h _ =>
        split
        · exact hput 1 h q
        · exact (hput 1 h q).trans (.ofRouteAll ..)
      · exact hput _ 0 0

theorem State.SendStep.ofPaths (s : State) : s.SendStep s.paths := by
  unfold State.paths
  split
  · exact .refl s
  · exact (State.SendStep.ofFold State.SendStep.ofPathOf _ s).trans (.ofSet _ _ 0 _ (.inl (by decide)))

/-! ## A flit received (R349, R350) -/

/-- Flits received leave of a port all but what counts them. -/
def NetPort.Heard (x y : NetPort) : Prop :=
  y = { x with rxSeq := y.rxSeq, rcvd := y.rcvd, rxSlot := y.rxSlot, flitFails := y.flitFails, await := y.await }

theorem State.gotFlit_port (s : State) (p : Nat) : (s.port p).Heard ((s.gotFlit p).port p) := by
  have hidle : (s.port p).Heard ((s.idleIn p).port p) := by
    unfold State.idleIn
    split
    · rfl
    · dsimp only
      rw [State.port_modPort_self]
      rfl
  rw [State.gotFlit, State.nextFlits, State.port_modPort_self, NetPort.Heard]
  rw [NetPort.Heard] at hidle
  rw [hidle]

/-! ## Keys of a link (R353) -/

/-- A port that changes to key ID `k`. -/
def State.changing (s : State) (p k : Nat) (peer : HelloFlit) (x : NetPort) : NetPort :=
  { x with allocs := (s.port p).allocs + 1
           next := some (k, (s.linkKeys p k ((s.port p).allocs + 1) peer).1, (s.linkKeys p k ((s.port p).allocs + 1) peer).2) }

theorem State.sendFlit_regs (s : State) (p room : Nat) : (s.sendFlit p room).2.regs = s.regs := rfl
theorem State.sendFlit_sent (s : State) (p room : Nat) : (s.sendFlit p room).2.net.sent = s.net.sent := rfl
theorem State.putFlit_regs (s : State) (p q : Nat) (payload : Bytes) : (s.putFlit p q payload).regs = s.regs := rfl
theorem State.putFlit_sent (s : State) (p q : Nat) (payload : Bytes) : (s.putFlit p q payload).net.sent = s.net.sent := rfl

/-- A key change begun: after a flit has gone out, the port notes the number of the next one, and KEY_SWITCH is sent. -/
theorem State.switchTo_eq (s : State) (p k : Nat) (peer : HelloFlit) : ∃ q u,
    (s.modPort p (s.changing p k peer)).SendStep u ∧ u.regs = s.regs ∧ u.net.sent = s.net.sent ∧
      s.switchTo p k peer = (u.modPort p (fun y => { y with txSwitch := some q })).netTx (.keySwitch p k q) := by
  let t := (s.modPort p (s.changing p k peer)).sendFlit p
  let q := (t.1 + 1) % 2 ^ 48
  refine ⟨q, t.2.putFlit p t.1 ((NetTx.keySwitch p k q).payload 0), (State.SendStep.ofSendFlit _ p 4375).trans (.ofPutFlit ..), ?_, ?_, rfl⟩
  · rw [State.putFlit_regs, State.sendFlit_regs]; rfl
  · rw [State.putFlit_sent, State.sendFlit_sent]; rfl

theorem State.switchTo_spec (s : State) (p k : Nat) (peer : HelloFlit) : ∃ q,
    (s.switchTo p k peer).regs = s.regs ∧ (s.switchTo p k peer).net.sent = s.net.sent ++ [.keySwitch p k q] ∧
      NetPort.SentOn { s.changing p k peer (s.port p) with txSwitch := some q } ((s.switchTo p k peer).port p) := by
  obtain ⟨q, u, hstep, hregs, hsent, heq⟩ := s.switchTo_eq p k peer
  have hport := hstep.ports p
  rw [State.port_modPort_self, NetPort.SentOn] at hport
  rw [heq]
  refine ⟨q, hregs, congrArg (· ++ [NetTx.keySwitch p k q]) hsent, ?_⟩
  show NetPort.SentOn _ ((u.modPort p (fun y => { y with txSwitch := some q })).port p)
  rw [State.port_modPort_self, NetPort.SentOn, hport]

/-- The new key in force. -/
def State.keyed (s : State) (p : Nat) (key : Nat × Bytes × Bytes) : State :=
  (s.modPort p (fun y => { y with
    key := some key, next := none, txSwitch := none, rxSwitch := none, sent := 0, rcvd := 0 })).set R.NET_PORT_STS_KEYID p key.1

section
variable {s : State} {p k a b : Nat} {kx kt : Bytes} (hnext : (s.port p).next = some (k, kx, kt)) (htx : (s.port p).txSwitch = some a)
  (hrx : (s.port p).rxSwitch = some b)
include hnext htx hrx

/-- While a direction has not left the old key it stays. -/
theorem State.keysSettle_waits (h : ¬(a ≤ (s.port p).acked ∧ b ≤ (s.port p).rxSeq)) : s.keysSettle p = s := by
  rw [State.keysSettle, hnext, htx, hrx]
  exact if_neg h

/-- Once both have left it the new one is in force; a link keyed for the first time is UP, and sends its hop counts. -/
theorem State.keysSettle_settled (h : a ≤ (s.port p).acked ∧ b ≤ (s.port p).rxSeq) :
    (s.portState p = 3 ∧ s.keysSettle p = s.keyed p (k, kx, kt)) ∨
      (s.portState p ≠ 3 ∧ ((s.keyed p (k, kx, kt)).setPort p 3).SendStep (s.keysSettle p)) := by
  rw [State.keysSettle, hnext, htx, hrx]
  dsimp only
  rw [if_pos h]
  by_cases hup : s.portState p = 3
  · exact .inl ⟨hup, if_pos hup⟩
  · refine .inr ⟨hup, ?_⟩
    rw [if_neg hup]
    exact ((State.SendStep.ofPaths _).trans (.ofSendControl _ p _)).trans (.ofFold (fun v m => .ofSendControl v p _) _ _)

/-- A settled port: the new key in force, its number shown, UP. -/
theorem State.keysSettle_shows (h : a ≤ (s.port p).acked ∧ b ≤ (s.port p).rxSeq) (hp : p < 4) (hk : k < 16) :
    ((s.keysSettle p).port p).key = some (k, kx, kt) ∧ ((s.keysSettle p).port p).next = none ∧
      (s.keysSettle p).get R.NET_PORT_STS_KEYID p = k ∧ (s.keysSettle p).get R.NET_PORT_STS_STATE p = 3 ∧
      (s.portState p = 3 → ((s.keysSettle p).port p).sent = 0 ∧ ((s.keysSettle p).port p).rcvd = 0) := by
  have hport : (s.keyed p (k, kx, kt)).port p = { s.port p with
      key := some (k, kx, kt), next := none, txSwitch := none, rxSwitch := none, sent := 0, rcvd := 0 } := State.port_modPort_self ..
  have hid : (s.keyed p (k, kx, kt)).get R.NET_PORT_STS_KEYID p = k :=
    (State.get_set_self _ R.NET_PORT_STS_KEYID p k (by decide)).trans (Nat.mod_eq_of_lt hk)
  rcases State.keysSettle_settled hnext htx hrx h with ⟨hup, heq⟩ | ⟨hup, hstep⟩
  · rw [heq, hport]
    exact ⟨rfl, rfl, hid, (State.get_set_sts _ R.NET_PORT_STS_KEYID R.NET_PORT_STS_STATE p k).trans hup, fun _ => ⟨rfl, rfl⟩⟩
  · refine ⟨?_, ?_, ?_, ?_, fun h3 => absurd h3 hup⟩
    · exact (hstep.ports p).key.trans (congrArg NetPort.key hport)
    · exact (hstep.ports p).next.trans (congrArg NetPort.next hport)
    · exact (hstep.portSts hp R.NET_PORT_STS_KEYID).trans ((State.get_set_sts _ R.NET_PORT_STS_STATE R.NET_PORT_STS_KEYID p 3).trans hid)
    · exact (hstep.portSts hp R.NET_PORT_STS_STATE).trans (State.get_set_self _ R.NET_PORT_STS_STATE p 3 (by decide))

end

/-- On a link that is UP nothing is sent when a key change settles. -/
theorem State.keysSettle_sent {s : State} {p : Nat} (h : s.portState p = 3) : (s.keysSettle p).net.sent = s.net.sent := by
  unfold State.keysSettle
  dsimp only
  split
  · split <;> rfl
  · rfl

end Sys2Proof.Machine

namespace Sys2Proof.Machine

/-! ## LINK_HELLO (R353) -/

/-- A LINK_HELLO kept with its member. -/
def State.greeted (s : State) (p : Nat) (h : HelloFlit) : State :=
  (s.modPort p (fun x => { x with peer := some h })).set R.NET_PORT_STS_PEER p h.member

theorem State.greeted_port (s : State) (p : Nat) (h : HelloFlit) : (s.greeted p h).port p = { s.port p with peer := some h } :=
  State.port_modPort_self s p (fun x => { x with peer := some h })

theorem State.greeted_get (s : State) {p : Nat} (hp : p < 4) (h : HelloFlit) (f : Field) (i : Nat)
    (hf : f.key i / 64 < 0x130100 ∨ 0x134000 ≤ f.key i / 64) : (s.greeted p h).get f i = s.get f i := by
  obtain ⟨h1, h2⟩ := portSts_key (f := R.NET_PORT_STS_PEER) hp rfl rfl (by decide)
  exact State.get_set_other _ _ _ _ _ _ fun heq => by rw [← heq] at hf; omega

theorem State.greeted_silent (s : State) {p : Nat} (hp : p < 4) (h : HelloFlit) : (s.greeted p h).netSilent = s.netSilent := by
  unfold State.netSilent State.on
  rw [s.greeted_get hp h R.LC_DBG_STS_OPEN 0 (by decide), s.greeted_get hp h R.TRV_STS_FATAL 0 (by decide),
    s.greeted_get hp h R.TMP_STS_HALT 0 (by decide)]
  rfl

/-- A port whose LINK_HELLO lets its first key follow. -/
def State.startsKey (s : State) (p : Nat) (h : HelloFlit) : Prop :=
  s.get R.NET_PORT_STS_STATE p = 2 ∧ s.on R.NET_STS_MEMBER = true ∧ s.netSilent = false ∧ (s.port p).next = none ∧ h.member ≤ 0xFFF ∧
    h.member ≠ s.get R.NET_STS_ID ∧ h.netId = fitTo 8 s.net.netId ∧ s.get R.NET_MEMBER_STATE h.member ≠ 2

/-- Neither the flits received nor the LINK_HELLO kept change that. -/
theorem State.greeted_startsKey (s : State) {p : Nat} (hp : p < 4) (h g : HelloFlit) :
    ((s.gotFlit p).greeted p g).startsKey p h ↔ s.startsKey p h := by
  have hport : s.PortStep (s.gotFlit p) := .ofGotFlit s p
  have hnext : (((s.gotFlit p).greeted p g).port p).next = (s.port p).next := by rw [State.greeted_port, s.gotFlit_port p]
  have hstate : ((s.gotFlit p).greeted p g).get R.NET_PORT_STS_STATE p = s.get R.NET_PORT_STS_STATE p :=
    (State.get_set_sts _ R.NET_PORT_STS_PEER R.NET_PORT_STS_STATE p _).trans (hport.get _ p)
  have hmember : ((s.gotFlit p).greeted p g).on R.NET_STS_MEMBER = s.on R.NET_STS_MEMBER := by
    rw [State.on, State.greeted_get _ hp g _ 0 (by decide), hport.get, State.on]
  have hid : ((s.gotFlit p).greeted p g).get R.NET_STS_ID = s.get R.NET_STS_ID :=
    (State.greeted_get _ hp g _ 0 (by decide)).trans (hport.get _ 0)
  have hnet : ((s.gotFlit p).greeted p g).net.netId = s.net.netId := hport.netId
  have hretired : ((s.gotFlit p).greeted p g).get R.NET_MEMBER_STATE h.member = s.get R.NET_MEMBER_STATE h.member :=
    (State.greeted_get _ hp g _ _ (.inr (member_key_high _ (by decide) _))).trans (hport.get _ _)
  rw [State.startsKey, State.startsKey, State.greeted_silent _ hp, hport.netSilent, hnext, hstate, hmember, hid, hnet, hretired]

section
variable {s : State} {p : Nat} {h : HelloFlit} (hpeer : (s.port p).peer = some h)
include hpeer

theorem State.keyLink_starts (hs : s.startsKey p h) : s.keyLink p = s.switchTo p 1 h := by
  obtain ⟨hst, hmember, hsilent, hnext, hid, hother, hnet, hretired⟩ := hs
  rw [State.keyLink, hpeer]
  exact if_pos ⟨hst, hmember, by rw [hsilent]; rfl, hnext, hid, hother, hnet, hretired⟩

theorem State.keyLink_stays (hs : ¬s.startsKey p h) : s.keyLink p = s := by
  rw [State.keyLink, hpeer]
  refine if_neg fun ⟨hst, hmember, hsilent, hnext, hid, hother, hnet, hretired⟩ => hs ?_
  exact ⟨hst, hmember, by simpa using hsilent, hnext, hid, hother, hnet, hretired⟩

end

/-! ## KEY_SWITCH (R353) -/

/-- A KEY_SWITCH received: the flits before the number it names have been received. -/
def State.advanced (s : State) (p q : Nat) : State := s.modPort p (fun x => { x with rxSeq := max x.rxSeq q })

theorem State.advanced_port (s : State) (p q : Nat) : (s.advanced p q).port p = { s.port p with rxSeq := max (s.port p).rxSeq q } :=
  State.port_modPort_self s p (fun x => { x with rxSeq := max x.rxSeq q })

/-- The partner's direction moves at number `q`. -/
def State.partnerMoves (s : State) (p q : Nat) : State := s.modPort p (fun y => { y with rxSwitch := some q })

theorem State.partnerMoves_port (s : State) (p q : Nat) : (s.partnerMoves p q).port p = { s.port p with rxSwitch := some q } :=
  State.port_modPort_self s p (fun y => { y with rxSwitch := some q })

section
variable {s : State} {p : Nat}

theorem State.tookSwitch_of_next {n : Nat} {kx kt : Bytes} (hnext : (s.port p).next = some (n, kx, kt)) (k q : Nat) :
    s.tookSwitch p k q = if n = k ∧ (s.port p).rxSwitch = none then ((s.advanced p q).partnerMoves p q).keysSettle p else s.advanced p q := by
  have hport := s.advanced_port p q
  rw [State.advanced] at hport
  rw [State.tookSwitch]
  rw [hport, hnext]
  rfl

theorem State.tookSwitch_of_stranger (hnext : (s.port p).next = none) (hpeer : (s.port p).peer = none) (k q : Nat) :
    s.tookSwitch p k q = s.advanced p q := by
  have hport := s.advanced_port p q
  rw [State.advanced] at hport
  rw [State.tookSwitch]
  rw [hport, hnext, hpeer]
  rfl

/-- A change that the partner begins on a link that is UP is answered. -/
theorem State.tookSwitch_answers {h : HelloFlit} (hnext : (s.port p).next = none) (hpeer : (s.port p).peer = some h)
    (hup : s.portState p = 3) {k : Nat} (hk : k = (s.port p).keyId % 15 + 1) (q : Nat) :
    s.tookSwitch p k q = (((s.advanced p q).partnerMoves p q).switchTo p k h).keysSettle p := by
  have hport := s.advanced_port p q
  rw [State.advanced] at hport
  rw [State.tookSwitch]
  rw [hport, hnext, hpeer]
  exact if_pos ⟨hk, .inl hup⟩

end

/-! ## ROUTE (R355) -/

theorem State.tookRoute_routes {s : State} {p m hops : Nat} (hup : s.netUp p = true) (hhops : hops < 15) (hm : m ≤ 0xFFF) :
    ((s.tookRoute p m hops).port p).routes = Tab.put 0 (s.port p).routes m (hops + 1) := by
  have heq : s.tookRoute p m hops = (s.modPort p (fun x => { x with routes := Tab.put 0 x.routes m (hops + 1) })).paths :=
    if_pos ⟨hup, hhops, hm⟩
  rw [heq, ((State.SendStep.ofPaths _).ports p).routes, State.port_modPort_self]

theorem State.tookRoute_unused {s : State} {p m hops : Nat} (h : s.netUp p = false ∨ 15 ≤ hops ∨ 0xFFF < m) : s.tookRoute p m hops = s := by
  refine if_neg fun ⟨hup, hhops, hm⟩ => ?_
  rcases h with h | h | h
  · exact Bool.false_ne_true (h.symm.trans hup)
  · omega
  · omega

end Sys2Proof.Machine

namespace Sys2Proof.Machine

/-- The keys of a link depend on the number of this member, the nonce of the port and NRK alone. -/
theorem State.linkKeys_congr {s t : State} {p : Nat} (hid : t.get R.NET_STS_ID = s.get R.NET_STS_ID)
    (hnonce : (t.port p).nonce = (s.port p).nonce) (hnrk : t.net.nrk = s.net.nrk) (k n : Nat) (peer : HelloFlit) :
    t.linkKeys p k n peer = s.linkKeys p k n peer := by
  rw [State.linkKeys, State.linkKeys, hid, hnonce, hnrk]

theorem State.gotFlit_next (s : State) (p : Nat) : ((s.gotFlit p).port p).next = (s.port p).next := by rw [s.gotFlit_port p]
theorem State.gotFlit_key (s : State) (p : Nat) : ((s.gotFlit p).port p).key = (s.port p).key := by rw [s.gotFlit_port p]
theorem State.gotFlit_peer (s : State) (p : Nat) : ((s.gotFlit p).port p).peer = (s.port p).peer := by rw [s.gotFlit_port p]
theorem State.gotFlit_rxSwitch (s : State) (p : Nat) : ((s.gotFlit p).port p).rxSwitch = (s.port p).rxSwitch := by rw [s.gotFlit_port p]
theorem State.gotFlit_txSwitch (s : State) (p : Nat) : ((s.gotFlit p).port p).txSwitch = (s.port p).txSwitch := by rw [s.gotFlit_port p]
theorem State.gotFlit_acked (s : State) (p : Nat) : ((s.gotFlit p).port p).acked = (s.port p).acked := by rw [s.gotFlit_port p]
theorem State.gotFlit_allocs (s : State) (p : Nat) : ((s.gotFlit p).port p).allocs = (s.port p).allocs := by rw [s.gotFlit_port p]
theorem State.gotFlit_nonce (s : State) (p : Nat) : ((s.gotFlit p).port p).nonce = (s.port p).nonce := by rw [s.gotFlit_port p]
theorem State.gotFlit_routes (s : State) (p : Nat) : ((s.gotFlit p).port p).routes = (s.port p).routes := by rw [s.gotFlit_port p]

/-- A LINK_HELLO is kept, and a key change that it starts leaves the partner's direction. -/
theorem State.tookHello_port (t : State) (p : Nat) (h : HelloFlit) :
    ((t.greeted p h).keyLink p |>.port p).peer = some h ∧ ((t.greeted p h).keyLink p |>.port p).rxSwitch = (t.port p).rxSwitch := by
  have hpeer : ((t.greeted p h).port p).peer = some h := by rw [State.greeted_port]
  have hrx : ((t.greeted p h).port p).rxSwitch = (t.port p).rxSwitch := by rw [State.greeted_port]
  by_cases hs : (t.greeted p h).startsKey p h
  · obtain ⟨q, -, -, hport⟩ := (t.greeted p h).switchTo_spec p 1 h
    rw [State.keyLink_starts hpeer hs]
    exact ⟨hport.peer.trans hpeer, hport.rxSwitch.trans hrx⟩
  · rw [State.keyLink_stays hpeer hs]
    exact ⟨hpeer, hrx⟩

/-- The first key follows a LINK_HELLO that lets it, with the keys that this end derives. -/
theorem State.tookHello_starts {s : State} {p : Nat} (hp : p < 4) {h : HelloFlit} (hs : s.startsKey p h) :
    (((s.gotFlit p).greeted p h).keyLink p |>.port p).next = (s.changing p 1 h (s.port p)).next ∧
      ∃ q, (((s.gotFlit p).greeted p h).keyLink p |>.port p).txSwitch = some q ∧
        (((s.gotFlit p).greeted p h).keyLink p).net.sent = s.net.sent ++ [.keySwitch p 1 q] := by
  have hflit : s.PortStep (s.gotFlit p) := .ofGotFlit s p
  have hpeer : ((s.gotFlit p).greeted p h |>.port p).peer = some h := by rw [State.greeted_port]
  have hkeys := State.linkKeys_congr (s := s) (t := (s.gotFlit p).greeted p h) (p := p)
    ((State.greeted_get _ hp h _ 0 (by decide)).trans (hflit.get _ 0))
    (by rw [State.greeted_port]; exact s.gotFlit_nonce p) hflit.nrk
  have hallocs : ((s.gotFlit p).greeted p h |>.port p).allocs = (s.port p).allocs := by rw [State.greeted_port]; exact s.gotFlit_allocs p
  obtain ⟨q, -, hsent, hport⟩ := ((s.gotFlit p).greeted p h).switchTo_spec p 1 h
  rw [State.keyLink_starts hpeer ((s.greeted_startsKey hp h h).2 hs)]
  refine ⟨hport.next.trans ?_, q, hport.txSwitch, hsent.trans (congrArg (· ++ _) hflit.sent)⟩
  simp only [State.changing, hkeys, hallocs]

/-- The partner's direction has moved at number `q`. -/
def State.moved (s : State) (p q : Nat) : State := ((s.gotFlit p).advanced p q).partnerMoves p q

theorem State.tookSwitch_moves {s : State} {p k q : Nat} {kx kt : Bytes} (hnext : ((s.gotFlit p).port p).next = some (k, kx, kt))
    (hrx : ((s.gotFlit p).port p).rxSwitch = none) : (s.gotFlit p).tookSwitch p k q = (s.moved p q).keysSettle p :=
  (State.tookSwitch_of_next hnext k q).trans (if_pos ⟨rfl, hrx⟩)

theorem State.tookSwitch_replies {s : State} {p k q : Nat} {h : HelloFlit} (hnext : (s.port p).next = none) (hpeer : (s.port p).peer = some h)
    (hup : s.get R.NET_PORT_STS_STATE p = 3) (hk : k = (s.port p).keyId % 15 + 1) :
    (s.gotFlit p).tookSwitch p k q = ((s.moved p q).switchTo p k h).keysSettle p := by
  have hkeyId : ((s.gotFlit p).port p).keyId = (s.port p).keyId := by rw [NetPort.keyId, s.gotFlit_key, NetPort.keyId]
  exact State.tookSwitch_answers ((s.gotFlit_next p).trans hnext) ((s.gotFlit_peer p).trans hpeer)
    (((State.PortStep.ofGotFlit s p).get _ p).trans hup) (by rw [hkeyId]; exact hk) q

section
variable (s : State) {p q : Nat}

theorem State.PortStep.ofAdvanced (p q : Nat) : s.PortStep ((s.gotFlit p).advanced p q) := (State.PortStep.ofGotFlit s p).trans (.ofModPort ..)

theorem State.PortStep.ofMoved (p q : Nat) : s.PortStep (s.moved p q) := (State.PortStep.ofAdvanced s p q).trans (.ofModPort ..)

theorem State.moved_state (p q : Nat) : (s.moved p q).portState p = s.get R.NET_PORT_STS_STATE p :=
  (State.PortStep.ofMoved s p q).get R.NET_PORT_STS_STATE p

theorem State.moved_port (p q : Nat) : (s.moved p q).port p = { (s.gotFlit p).port p with
    rxSeq := max ((s.gotFlit p).port p).rxSeq q, rxSwitch := some q } := by
  rw [State.moved, State.partnerMoves_port, State.advanced_port]

theorem State.moved_next {k : Nat × Bytes × Bytes} (h : (s.port p).next = some k) : ((s.moved p q).port p).next = some k := by
  rw [State.moved_port]; exact (s.gotFlit_next p).trans h

theorem State.moved_txSwitch {a : Nat} (h : (s.port p).txSwitch = some a) : ((s.moved p q).port p).txSwitch = some a := by
  rw [State.moved_port]; exact (s.gotFlit_txSwitch p).trans h

theorem State.moved_rxSwitch (p q : Nat) : ((s.moved p q).port p).rxSwitch = some q := by rw [State.moved_port]

theorem State.moved_rxSeq (p q : Nat) : q ≤ ((s.moved p q).port p).rxSeq := by rw [State.moved_port]; exact Nat.le_max_right ..

theorem State.moved_acked : ((s.moved p q).port p).acked = (s.port p).acked := by rw [State.moved_port]; exact s.gotFlit_acked p

theorem State.moved_key (p q : Nat) : ((s.moved p q).port p).key = (s.port p).key := by rw [State.moved_port]; exact s.gotFlit_key p

end

theorem State.rekeyLink_begins {s : State} {p : Nat} {h : HelloFlit} (hpeer : (s.port p).peer = some h) (hup : s.netUp p = true)
    (hnext : (s.port p).next = none) : s.rekeyLink p = s.switchTo p ((s.port p).keyId % 15 + 1) h := by
  rw [State.rekeyLink, hpeer]
  exact if_pos ⟨hup, hnext⟩

theorem State.rekeyLink_stays {s : State} {p : Nat} (h : ¬((s.port p).peer ≠ none ∧ s.netUp p = true ∧ (s.port p).next = none)) :
    s.rekeyLink p = s := by
  rw [State.rekeyLink]
  cases hpeer : (s.port p).peer with
  | none => rfl
  | some peer => exact if_neg fun ⟨hup, hnext⟩ => h ⟨by rw [hpeer]; exact Option.some_ne_none peer, hup, hnext⟩

/-- What a row that puts a flit to `use` gives on a live port. -/
theorem Gives.ofFlit {s : State} {p : Nat} {c : Instr} {use : State → State} (hc : exec c s = ok (s.withFlit p use))
    (hl : p < 4 ∧ s.netRuns = true ∧ (s.get R.NET_PORT_STS_STATE p = 2 ∨ s.get R.NET_PORT_STS_STATE p = 3)) {P : State → Prop}
    (h : P (use (s.gotFlit p)).wires) : Gives (exec c s) P :=
  ⟨_, hc.trans (congrArg ok (State.withFlit_live hl use)), h⟩

/-- Settles O57: LINK_HELLO kept and answered by the first key, KEY_SWITCH under each change, the change by count, and ROUTE. -/
theorem linkKeys : Obligations.LinkKeys := by
  unfold Obligations.LinkKeys
  intro s p k q m hops h st x live hello keys
  have hflit : s.PortStep (s.gotFlit p) := .ofGotFlit s p
  have hst : (s.gotFlit p).portState p = st := hflit.get R.NET_PORT_STS_STATE p
  have hgreet : ((s.gotFlit p).greeted p hello |>.port p).peer = some hello := by rw [State.greeted_port]
  have hkept : ((s.gotFlit p).greeted p hello |>.port p).next = x.next := by rw [State.greeted_port]; exact s.gotFlit_next p
  refine ⟨fun hl => ⟨Gives.ofFlit rfl hl ?kept, fun h2 hm hs hnext hid hother hnet hret => Gives.ofFlit rfl hl ?starts,
    fun hno => Gives.ofFlit rfl hl ?stays,
    fun a kx kt hnext hrx htx => ⟨fun ha => Gives.ofFlit rfl hl ?marks, fun ha hk => Gives.ofFlit rfl hl ?settles⟩,
    fun n kx kt hnext hn => Gives.ofFlit rfl hl ?other, fun hnext hpeer hup hk => Gives.ofFlit rfl hl ?answers,
    fun hnext hpeer => Gives.ofFlit rfl hl ?stranger⟩,
    fun hl => ⟨congrArg ok (State.withFlit_dead hl _), congrArg ok (State.withFlit_dead hl _)⟩,
    fun hpeer hup hruns hnext hcount => congrArg ok ?rekeys, fun h => congrArg ok ?rekeysNot,
    fun hl hup => ⟨fun hhops hm => Gives.ofFlit rfl hl ?route, fun h => ?farRoute⟩, fun hl h2 => ?unkeyedRoute,
    fun hl => congrArg ok (State.withFlit_dead hl _)⟩
  case kept =>
    rw [State.port_wires]
    obtain ⟨hpeer, hrx⟩ := (s.gotFlit p).tookHello_port p hello
    exact ⟨hpeer, hrx.trans (s.gotFlit_rxSwitch p)⟩
  case starts =>
    rw [State.port_wires, State.wires_net]
    exact State.tookHello_starts hl.1 ⟨h2, hm, hs, hnext, hid, hother, hnet, hret⟩
  case stays =>
    have hs : ¬((s.gotFlit p).greeted p hello).startsKey p hello := by
      rw [s.greeted_startsKey hl.1]
      rintro ⟨h2, -, hsilent, hnext, -, hother, -⟩
      rcases hno with h3 | hsil | hnx | hown
      · omega
      · rw [hsil] at hsilent; contradiction
      · exact hnx hnext
      · exact hother hown
    rw [State.port_wires, State.wires_net]
    show (((s.gotFlit p).greeted p hello).keyLink p |>.port p).next = _ ∧ (((s.gotFlit p).greeted p hello).keyLink p).net.sent = _
    rw [State.keyLink_stays hgreet hs]
    exact ⟨hkept, hflit.sent⟩
  case marks =>
    rw [State.port_wires, State.wires_portSts _ hl.1 R.NET_PORT_STS_STATE,
      State.tookSwitch_moves ((s.gotFlit_next p).trans hnext) ((s.gotFlit_rxSwitch p).trans hrx),
      State.keysSettle_waits (s.moved_next hnext) (s.moved_txSwitch htx) (s.moved_rxSwitch p q) 
        (fun hw => absurd (s.moved_acked ▸ hw.1) (Nat.not_le.2 ha))]
    exact ⟨s.moved_rxSwitch p q, s.moved_key p q, (s.moved_next hnext).trans hnext.symm, s.moved_state p q⟩
  case settles =>
    obtain ⟨hkey, hnone, hid, hup, hcounts⟩ := State.keysSettle_shows (s.moved_next (q := q) hnext) (s.moved_txSwitch htx) (s.moved_rxSwitch p q)
      ⟨by rw [s.moved_acked]; exact ha, s.moved_rxSeq p q⟩ hl.1 hk
    rw [State.port_wires, State.wires_portSts _ hl.1 R.NET_PORT_STS_STATE, State.wires_portSts _ hl.1 R.NET_PORT_STS_KEYID,
      State.tookSwitch_moves ((s.gotFlit_next p).trans hnext) ((s.gotFlit_rxSwitch p).trans hrx)]
    exact ⟨hkey, hnone, hid, hup, fun h3 => hcounts ((s.moved_state p q).trans h3)⟩
  case other =>
    rw [State.port_wires, State.tookSwitch_of_next ((s.gotFlit_next p).trans hnext), if_neg fun hmove => hn hmove.1, State.advanced_port]
    exact ⟨s.gotFlit_key p, s.gotFlit_next p, s.gotFlit_rxSwitch p⟩
  case answers =>
    obtain ⟨n, hregs, hsent, -⟩ := (s.moved p q).switchTo_spec p k h
    have hup' : ((s.moved p q).switchTo p k h).portState p = 3 :=
      (State.get_of_regs hregs R.NET_PORT_STS_STATE p).trans ((s.moved_state p q).trans hup)
    rw [State.wires_net, State.tookSwitch_replies hnext hpeer hup hk, State.keysSettle_sent hup', hsent, (State.PortStep.ofMoved s p q).sent]
    exact ⟨n, rfl⟩
  case stranger =>
    rw [State.wires_net, State.port_wires,
      State.tookSwitch_of_stranger ((s.gotFlit_next p).trans hnext) ((s.gotFlit_peer p).trans hpeer), State.advanced_port]
    exact ⟨(State.PortStep.ofAdvanced s p q).sent, s.gotFlit_key p, (s.gotFlit_next p).trans hnext⟩
  case rekeys => exact (if_pos hcount).trans (State.rekeyLink_begins hpeer ((s.netUp_iff p).2 ⟨hruns, hup⟩) hnext)
  case rekeysNot =>
    by_cases hcount : 2 ^ 40 ≤ x.sent ∨ 2 ^ 40 ≤ x.rcvd
    · refine (if_pos hcount).trans (State.rekeyLink_stays ?_)
      rintro ⟨hpeer, hup, hnext⟩
      obtain ⟨hruns, h3⟩ := (s.netUp_iff p).1 hup
      rcases h with h | h | h | h | ⟨h, g⟩
      · exact hpeer h
      · exact h h3
      · exact Bool.false_ne_true (h.symm.trans hruns)
      · exact h hnext
      · omega
    · exact if_neg hcount
  case route =>
    rw [State.port_wires, State.tookRoute_routes ((hflit.netUp p).trans ((s.netUp_iff p).2 ⟨hl.2.1, hup⟩)) hhops hm, s.gotFlit_routes]
    exact ⟨Tab.get_put_self .., fun n hn => Tab.get_put_other _ _ _ (Ne.symm hn)⟩
  case farRoute => exact congrArg ok ((State.withFlit_live hl _).trans (State.tookRoute_unused (.inr h)))
  case unkeyedRoute =>
    refine congrArg ok ((State.withFlit_live hl _).trans (State.tookRoute_unused (.inl ((hflit.netUp p).trans (Bool.eq_false_iff.2 fun hu => ?_)))))
    obtain ⟨-, h3⟩ := (s.netUp_iff p).1 hu
    omega

end Sys2Proof.Machine

namespace Sys2Proof.Machine

/-! ## A flit that fails its DCODE (R352) -/

/-- Two bytes that are not `c`. -/
def otherCheck (c : Bytes) : Bytes := if c = fill 2 0 then [1#8, 0#8] else fill 2 0

theorem otherCheck_ne (c : Bytes) : otherCheck c ≠ c := by
  unfold otherCheck
  split
  case isTrue h => rw [h]; decide
  case isFalse h => exact Ne.symm h

theorem otherCheck_length (c : Bytes) : (otherCheck c).length = 2 := by
  unfold otherCheck
  split <;> rfl

/-- A flit of 32 bytes whose DCODE is not that of its first 30. -/
def spoiltFlit : Bytes := fill 30 0 ++ otherCheck (toLE 2 (crcOf 16 0x1021 (fill 30 0)))

theorem flitFault_spoilt (key : Option (Nat × Bytes × Bytes)) (q : Nat) : flitFault key q spoiltFlit = some false := by
  have hbody : spoiltFlit.take 30 = fill 30 0 := List.take_left' rfl
  have hcheck : cut spoiltFlit 30 2 = otherCheck (toLE 2 (crcOf 16 0x1021 (fill 30 0))) := by
    have hdrop : spoiltFlit.drop 30 = otherCheck (toLE 2 (crcOf 16 0x1021 (fill 30 0))) := List.drop_left' rfl
    rw [cut, hdrop]
    exact List.take_of_length_le (otherCheck_length _).le
  refine if_pos ?_
  rw [hbody, hcheck]
  exact otherCheck_ne _

theorem State.idleIn_flitFails (s : State) (p : Nat) : ((s.idleIn p).port p).flitFails = (s.port p).flitFails := by
  unfold State.idleIn
  split
  · rfl
  · dsimp only
    rw [State.port_modPort_self]
    rfl

/-- A flit that fails its DCODE fewer than four times is NAKed, and no TAG failure is counted. -/
theorem State.flitError_dcode {s : State} {p : Nat} (hp : p < 4) (hfails : (s.port p).flitFails < 3) :
    (s.flitError p false).get R.NET_PORT_CNT_TAG_FAIL p = s.get R.NET_PORT_CNT_TAG_FAIL p := by
  let awaiting := (s.bump R.NET_PORT_CNT_REPLAY 1 p).modPort p (fun x => { x with flitFails := x.flitFails + 1, await := true })
  let naked := awaiting.sendControl p (.nak p (s.port p).rxSeq)
  have hstep : awaiting.SendStep naked := .ofSendControl ..
  have hfewer : (naked.port p).flitFails < 4 := by
    rw [(hstep.ports p).flitFails, State.port_modPort_self]
    exact Nat.succ_lt_succ hfails
  have heq : s.flitError p false = naked := by
    rw [State.flitError]
    simp only [Bool.false_eq_true, if_false, false_and]
    exact if_neg (Nat.not_le.2 hfewer)
  have hkey : R.NET_PORT_CNT_TAG_FAIL.key p = (0x130140 + 8 * p) * 64 := rfl
  rw [heq, hstep.get _ p (by rw [hkey]; omega) (by rw [hkey]; omega)]
  exact State.get_set_sts s R.NET_PORT_CNT_REPLAY R.NET_PORT_CNT_TAG_FAIL p _

/-- The state with a word at the key of a register field, in its width or not. -/
def State.putWord (s : State) (f : Field) (i : Nat) (w : BitVec 64) : State := { s with regs := Tab.put 0 s.regs (f.key i) w }

theorem State.get_putWord_self (s : State) (f : Field) (i : Nat) (w : BitVec 64) :
    (s.putWord f i w).get f i = (w ^^^ BitVec.ofNat 64 f.reset).toNat := by
  rw [State.get, State.putWord, Tab.get_put_self]

theorem State.get_putWord_other (s : State) (f g : Field) (i j : Nat) (w : BitVec 64) (h : f.key i ≠ g.key j) :
    (s.putWord f i w).get g j = s.get g j := by
  rw [State.get, State.putWord, Tab.get_put_other _ _ _ h, State.get]

/-- A state of power-up with port 0 UNKEYED, in which the count of its TAG failures stands at 2^32, past its 32 bits. -/
def overCounted : State :=
  ((State.reset.set R.CLK_GATE_ON 0 64).set R.NET_PORT_STS_STATE 0 2).putWord R.NET_PORT_CNT_TAG_FAIL 0 (BitVec.ofNat 64 (2 ^ 32))

theorem overCounted_tagFail : overCounted.get R.NET_PORT_CNT_TAG_FAIL 0 = 2 ^ 32 :=
  (State.get_putWord_self ..).trans (by decide)

theorem overCounted_state : overCounted.get R.NET_PORT_STS_STATE 0 = 2 :=
  (State.get_putWord_other _ _ _ _ _ _ (by decide)).trans (State.get_set_self _ _ 0 2 (by decide))

theorem overCounted_runs : overCounted.netRuns = true := by
  have hgate : overCounted.get R.CLK_GATE_ON = 64 :=
    ((State.get_putWord_other _ _ _ _ _ _ (by decide)).trans (State.get_set_other _ _ _ 0 0 2 (by decide))).trans
      (State.get_set_self _ R.CLK_GATE_ON 0 64 (by decide))
  rw [State.netRuns, hgate]
  decide

theorem overCounted_failed :
    exec (.flitError 0 ⟨spoiltFlit, true⟩) overCounted = ok ((overCounted.idleIn 0).flitError 0 false) := by
  show ok (overCounted.flitArrives 0 spoiltFlit true) = _
  rw [State.flitArrives, if_pos ⟨by decide, (overCounted.portLive_iff 0).2 ⟨overCounted_runs, .inl overCounted_state⟩⟩]
  simp only [flitFault_spoilt]
  rfl

/-- Refutes O56: it says of a flit that fails its DCODE that NET_PORT_CNT.TAG_FAIL is the old count cut to 32 bits. No row cuts it there:
only a TAG failure writes the count. In a state that holds 2^32 in it, more than the field can take, the count stays. The statement lacks
the premise that the count fits its field; the other clauses are not at issue here. -/
theorem not_netLinks : ¬ Obligations.NetLinks := by
  unfold Obligations.NetLinks
  rintro ⟨-, h⟩
  obtain ⟨-, -, -, -, -, -, hlive, -⟩ := h overCounted 0 0 0 false false false spoiltFlit
  obtain ⟨hfault, -⟩ := hlive ⟨by decide, overCounted_runs, .inl overCounted_state⟩
  obtain ⟨t, ht, -, -, -, -, -, hcount⟩ := hfault false (flitFault_spoilt _ _) (by decide) (.inl rfl)
  have heq : ((overCounted.idleIn 0).flitError 0 false).wires = t := Host.Outcome.next.inj (overCounted_failed.symm.trans ht)
  have hport : overCounted.PortStep (overCounted.idleIn 0) := .ofIdleIn ..
  have hfails : ((overCounted.idleIn 0).port 0).flitFails < 3 := by
    rw [State.idleIn_flitFails]
    decide
  have hkept : t.get R.NET_PORT_CNT_TAG_FAIL 0 = 2 ^ 32 := by
    rw [← heq, State.get_wires_net _ _ _ (by decide) (by decide), State.flitError_dcode (by decide) hfails, hport.get]
    exact overCounted_tagFail
  rw [hkept, overCounted_tagFail] at hcount
  exact absurd hcount (by decide)

end Sys2Proof.Machine
